-- ==== Sys2Proof/Word.lean ====
section
/-! DEFINITION. The word types of the MX316 and the total tables that hold a fixed number of like things. -/

namespace Sys2Proof

/-- One byte of host memory, of a log or of a bundle. -/
abbrev Byte := BitVec 8
/-- A cell: the 24-bit two's-complement data unit (R9). -/
abbrev Cell := BitVec 24
/-- A double cell or a phase: 48 bits (R9, R32). -/
abbrev Dbl := BitVec 48
/-- A syllable: the 12-bit instruction unit (R9). -/
abbrev Syl := BitVec 12
/-- A core number, 0 to 15 (R10). -/
abbrev CoreId := BitVec 4
/-- A thread number within its core, 0 to 7 (R10). -/
abbrev ThId := BitVec 3
/-- A program address (R20). -/
abbrev PAddr := BitVec 20

/-- A table of `n` like things, read and written by number. -/
abbrev Tab (α : Type) (n : Nat) := Vector α n

/-- Entry `i`; a number past the end reads as the type's default (no caller asks for one). -/
def Tab.get {α : Type} [Inhabited α] {n : Nat} (v : Tab α n) (i : Nat) : α :=
  if h : i < n then v[i] else default

/-- The table with entry `i` replaced; a number past the end changes nothing. -/
def Tab.set {α : Type} {n : Nat} (v : Tab α n) (i : Nat) (x : α) : Tab α n :=
  if h : i < n then Vector.set v i x h else v

/-- The table with entry `i` changed by `f`. -/
def Tab.modify {α : Type} [Inhabited α] {n : Nat} (v : Tab α n) (i : Nat) (f : α → α) : Tab α n :=
  v.set i (f (v.get i))

/-- A table of `n` equal entries. -/
def Tab.fill {α : Type} (n : Nat) (x : α) : Tab α n := Vector.replicate n x

end Sys2Proof
end

