-- ==== Sys2Proof/Syntax.lean ====
section
/-! DEFINITION. The commands of the MX316: one constructor of `Instr` per row of spec/opcode_table.json. A syllable
names the core and the thread that issue it, and the fields of its encoding (R90). An event that the outside world or
a clock brings names what it brings: a level, a conversion code, the bytes a host read returned. -/

namespace Sys2Proof

/-- The six angle inputs of the Pilot (R35). -/
inductive AngleIn where
  | whl (w : BitVec 2)
  | crank
  | cam
deriving DecidableEq, Repr

/-- A CAN frame at its validity point (R193, R197): the identifier, the format bits and the data bytes. -/
structure CanFrame where
  id : BitVec 29
  ide : Bool
  fdf : Bool
  brs : Bool
  esi : Bool
  rtr : Bool
  dlc : BitVec 4
  data : List Byte
deriving DecidableEq, Repr

/-- The three priority classes of a vault write (R261). -/
inductive WClass where
  | system
  | prot
  | rolling
deriving DecidableEq, Repr

/-- The two die-to-die links (R12). -/
inductive LinkId where
  | hearth
  | pilot
deriving DecidableEq, Repr

/-- The three dies, each with its junction sensor (R456). -/
inductive Die where
  | firebox
  | hearthstone
  | pilot
deriving DecidableEq, Repr

/-- A ring with a moderated MSI-X vector (R304, R305). -/
inductive VecRing where
  | cq (n : BitVec 4)
  | eq (n : BitVec 2)
deriving DecidableEq, Repr

/-- A ring that the host enables (R314). -/
inductive RingId where
  | sq (n : BitVec 4)
  | cq (n : BitVec 4)
  | eq (n : BitVec 2)
deriving DecidableEq, Repr

/-- What raises the power-fail warning (R280, R379): a main rail below its minimum, or the HOLD_SENSE comparator. -/
inductive PfCause where
  | rail
  | cap
deriving DecidableEq, Repr

/-- The two fuse lanes (R361). -/
inductive Lane where
  | f
  | p
deriving DecidableEq, Repr

/-- How the antifuses answer a programming run (R358, R359): VFUSE in range, the target bits that stay 0 at normal
margin after the pulses, and those that read 1 at normal but 0 at strict margin. -/
structure FuseShot where
  vfuse : Bool
  unset : BitVec 39
  weak : BitVec 39
deriving DecidableEq, Repr

/-- The capture object cells of the Pilot (R479, Table 18.15). -/
inductive CapObj where
  | channel (n : BitVec 6) (k : BitVec 1)
  | spi (n : BitVec 5) (k : BitVec 3)
  | can (i : BitVec 1) (k : BitVec 3)
  | trig (p : BitVec 2)
  | th (j : BitVec 4) (k : BitVec 2)
  | cf (f : BitVec 3) (k : BitVec 3)
  | gpio (k : BitVec 2)
deriving DecidableEq, Repr

/-- A write of a setup register (R462) or of a device cell (R470): the host's dword with its byte enables, its aligned
64-bit access, a core's cell store and a core's double-cell store. -/
inductive RegWrite where
  | bar (off : BitVec 12) (be : BitVec 4) (v : BitVec 32)
  | bar64 (off : BitVec 12) (v : BitVec 64)
  | cell (c : CoreId) (a : Cell) (v : Cell)
  | cell2 (c : CoreId) (a : Cell) (v : Dbl)
deriving DecidableEq, Repr

/-- The two I/O supplies whose inputs hold their level (R438). -/
inductive IoBank where
  | vddioA
  | vddioB
deriving DecidableEq, Repr

/-- A memory unit in which a transparent test found a fault (R396, Table 15.1): a cell of a core's local memory or of a
stack window, a return-stack entry, the special registers, the private bits or an arm of a thread, 16 bits of core bit
RAM, a word of patch RAM or open store, a line of program memory or of cell memory. -/
inductive BistUnit where
  | localCell (c : CoreId) (a : BitVec 14)
  | window (c : CoreId) (t : ThId) (i : BitVec 5)
  | retStack (c : CoreId) (t : ThId) (i : BitVec 4)
  | special (c : CoreId) (t : ThId) (i : BitVec 4)
  | privBits (c : CoreId) (t : ThId) (i : BitVec 3)
  | arm (c : CoreId) (t : ThId) (i : BitVec 3)
  | coreBits (c : CoreId) (i : BitVec 8)
  | patchWord (c : CoreId) (i : BitVec 10)
  | openWord (c : CoreId) (i : BitVec 10)
  | matchPoint (c : CoreId) (i : BitVec 5)
  | dispatch (c : CoreId) (i : BitVec 6)
  | progLine (l : BitVec 16)
  | cellLine (l : BitVec 18)
deriving DecidableEq, Repr

/-- What a self-test item found (R394, Table 15.2): its verdict, its cause, its duration, its detail bytes, the units
that a transparent test found faulty, how the antifuses answer item 12, and for item 21 the two slopes S_A and S_B in
millivolts per second (R399). -/
structure BistResult where
  pass : Bool
  cause : Byte
  durUs : BitVec 32
  detail : List Byte
  bad : List BistUnit
  otp : FuseShot
deriving DecidableEq, Repr

/-- The fields of a debug request beside its OP (Table 15.6). -/
structure DbgReq where
  space : BitVec 4 := 0
  core : CoreId := 0
  thread : ThId := 0
  addr : Cell := 0
  data : Cell := 0
deriving DecidableEq, Repr, Inhabited

/-- The commands, in the order of spec/opcode_table.json. -/
inductive Instr where
  /-- LIT, R92. -/
  | lit (c : CoreId) (t : ThId) (v : BitVec 10)
  /-- CALL, R91. -/
  | call (c : CoreId) (t : ThId) (d : BitVec 9)
  /-- JMP, R91. -/
  | jmp (c : CoreId) (t : ThId) (d : BitVec 9)
  /-- BCC, R95. -/
  | bcc (c : CoreId) (t : ThId) (cc : BitVec 4) (d : BitVec 6)
  /-- PFX, R92. -/
  | pfx (c : CoreId) (t : ThId) (p : BitVec 8)
  /-- SETB, R107. -/
  | setb (c : CoreId) (t : ThId) (a : BitVec 7)
  /-- CLRB, R107. -/
  | clrb (c : CoreId) (t : ThId) (a : BitVec 7)
  /-- TSTB, R107. -/
  | tstb (c : CoreId) (t : ThId) (a : BitVec 7)
  /-- TGLB, R107. -/
  | tglb (c : CoreId) (t : ThId) (a : BitVec 7)
  /-- NOP, R99. -/
  | nop (c : CoreId) (t : ThId)
  /-- DUP, R99. -/
  | dup (c : CoreId) (t : ThId)
  /-- DROP, R99. -/
  | drop (c : CoreId) (t : ThId)
  /-- SWAP, R99. -/
  | swap (c : CoreId) (t : ThId)
  /-- OVER, R99. -/
  | over (c : CoreId) (t : ThId)
  /-- ROT, R99. -/
  | rot (c : CoreId) (t : ThId)
  /-- NIP, R99. -/
  | nip (c : CoreId) (t : ThId)
  /-- TUCK, R99. -/
  | tuck (c : CoreId) (t : ThId)
  /-- TWO_DUP, R99. -/
  | twoDup (c : CoreId) (t : ThId)
  /-- TWO_DROP, R99. -/
  | twoDrop (c : CoreId) (t : ThId)
  /-- TWO_SWAP, R99. -/
  | twoSwap (c : CoreId) (t : ThId)
  /-- TWO_OVER, R99. -/
  | twoOver (c : CoreId) (t : ThId)
  /-- TOR, R99. -/
  | tor (c : CoreId) (t : ThId)
  /-- FROMR, R99. -/
  | fromr (c : CoreId) (t : ThId)
  /-- RFETCH, R99. -/
  | rfetch (c : CoreId) (t : ThId)
  /-- DEPTH, R122. -/
  | depth (c : CoreId) (t : ThId)
  /-- ADD, R100. -/
  | add (c : CoreId) (t : ThId)
  /-- SUB, R100. -/
  | sub (c : CoreId) (t : ThId)
  /-- ADC, R100. -/
  | adc (c : CoreId) (t : ThId)
  /-- SBC, R100. -/
  | sbc (c : CoreId) (t : ThId)
  /-- NEG, R100. -/
  | neg (c : CoreId) (t : ThId)
  /-- ABS, R100. -/
  | abs (c : CoreId) (t : ThId)
  /-- INC, R100. -/
  | inc (c : CoreId) (t : ThId)
  /-- DEC, R100. -/
  | dec (c : CoreId) (t : ThId)
  /-- CMP, R99. -/
  | cmp (c : CoreId) (t : ThId)
  /-- TST, R99. -/
  | tst (c : CoreId) (t : ThId)
  /-- MIN, R99. -/
  | min (c : CoreId) (t : ThId)
  /-- MAX, R99. -/
  | max (c : CoreId) (t : ThId)
  /-- SATADD, R100. -/
  | satadd (c : CoreId) (t : ThId)
  /-- SATSUB, R100. -/
  | satsub (c : CoreId) (t : ThId)
  /-- ADD2, R100. -/
  | add2 (c : CoreId) (t : ThId)
  /-- SUB2, R100. -/
  | sub2 (c : CoreId) (t : ThId)
  /-- AND, R99. -/
  | and (c : CoreId) (t : ThId)
  /-- OR, R99. -/
  | or (c : CoreId) (t : ThId)
  /-- XOR, R99. -/
  | xor (c : CoreId) (t : ThId)
  /-- NOT, R99. -/
  | not (c : CoreId) (t : ThId)
  /-- SHL, R101. -/
  | shl (c : CoreId) (t : ThId)
  /-- SHR, R101. -/
  | shr (c : CoreId) (t : ThId)
  /-- SAR, R101. -/
  | sar (c : CoreId) (t : ThId)
  /-- ROL, R101. -/
  | rol (c : CoreId) (t : ThId)
  /-- SHL1, R99. -/
  | shl1 (c : CoreId) (t : ThId)
  /-- SHR1, R99. -/
  | shr1 (c : CoreId) (t : ThId)
  /-- SAR1, R99. -/
  | sar1 (c : CoreId) (t : ThId)
  /-- CLZ, R99. -/
  | clz (c : CoreId) (t : ThId)
  /-- POPC, R99. -/
  | popc (c : CoreId) (t : ThId)
  /-- SEXT12, R99. -/
  | sext12 (c : CoreId) (t : ThId)
  /-- ZEXT12, R99. -/
  | zext12 (c : CoreId) (t : ThId)
  /-- EXT2, R99. -/
  | ext2 (c : CoreId) (t : ThId)
  /-- MUL, R87. -/
  | mul (c : CoreId) (t : ThId)
  /-- MULU, R87. -/
  | mulu (c : CoreId) (t : ThId)
  /-- MAC, R103. -/
  | mac (c : CoreId) (t : ThId)
  /-- MFL, R87. -/
  | mfl (c : CoreId) (t : ThId)
  /-- MFH, R87. -/
  | mfh (c : CoreId) (t : ThId)
  /-- DIV, R104. -/
  | div (c : CoreId) (t : ThId)
  /-- DIVU, R104. -/
  | divu (c : CoreId) (t : ThId)
  /-- MOD, R104. -/
  | mod (c : CoreId) (t : ThId)
  /-- SQRT, R102. -/
  | sqrt (c : CoreId) (t : ThId)
  /-- TLI, R118. -/
  | tli (c : CoreId) (t : ThId)
  /-- LD, R106. -/
  | ld (c : CoreId) (t : ThId)
  /-- ST, R106. -/
  | st (c : CoreId) (t : ThId)
  /-- LDT, R106. -/
  | ldt (c : CoreId) (t : ThId)
  /-- LDTU, R106. -/
  | ldtu (c : CoreId) (t : ThId)
  /-- STT, R106. -/
  | stt (c : CoreId) (t : ThId)
  /-- LD2, R106. -/
  | ld2 (c : CoreId) (t : ThId)
  /-- ST2, R106. -/
  | st2 (c : CoreId) (t : ThId)
  /-- LDD, R88. -/
  | ldd (c : CoreId) (t : ThId)
  /-- PUSHLL, R88. -/
  | pushll (c : CoreId) (t : ThId)
  /-- LDP, R105. -/
  | ldp (c : CoreId) (t : ThId)
  /-- STP, R105. -/
  | stp (c : CoreId) (t : ThId)
  /-- FENCE, R85. -/
  | fence (c : CoreId) (t : ThId)
  /-- LCK, R113. -/
  | lck (c : CoreId) (t : ThId)
  /-- ULK, R113. -/
  | ulk (c : CoreId) (t : ThId)
  /-- SETBX, R108. -/
  | setbx (c : CoreId) (t : ThId)
  /-- CLRBX, R108. -/
  | clrbx (c : CoreId) (t : ThId)
  /-- TSTBX, R108. -/
  | tstbx (c : CoreId) (t : ThId)
  /-- TGLBX, R108. -/
  | tglbx (c : CoreId) (t : ThId)
  /-- PUSHB, R107. -/
  | pushb (c : CoreId) (t : ThId)
  /-- PUTB, R107. -/
  | putb (c : CoreId) (t : ThId)
  /-- TSTE, R107. -/
  | tste (c : CoreId) (t : ThId)
  /-- RET, R110. -/
  | ret (c : CoreId) (t : ThId)
  /-- CALLX, R110. -/
  | callx (c : CoreId) (t : ThId)
  /-- JMPX, R110. -/
  | jmpx (c : CoreId) (t : ThId)
  /-- RETE, R156. -/
  | rete (c : CoreId) (t : ThId)
  /-- WAIT, R148. -/
  | wait (c : CoreId) (t : ThId)
  /-- WAITN, R148. -/
  | waitn (c : CoreId) (t : ThId)
  /-- TRAP, R152. -/
  | trap (c : CoreId) (t : ThId)
  /-- BRK, R416. -/
  | brk (c : CoreId) (t : ThId)
  /-- MFS, R111. -/
  | mfs (c : CoreId) (t : ThId)
  /-- MTS, R111. -/
  | mts (c : CoreId) (t : ThId)
  /-- MFS2, R111. -/
  | mfs2 (c : CoreId) (t : ThId)
  /-- SWAPCTX, R140. -/
  | swapctx (c : CoreId) (t : ThId)
  /-- PHC, R112. -/
  | phc (c : CoreId) (t : ThId)
  /-- PHK, R112. -/
  | phk (c : CoreId) (t : ThId)
  /-- PHT, R112. -/
  | pht (c : CoreId) (t : ThId)
  /-- PH3, R112. -/
  | ph3 (c : CoreId) (t : ThId)
  /-- LOPEN, R233. -/
  | lopen (c : CoreId) (t : ThId)
  /-- LAPP, R234. -/
  | lapp (c : CoreId) (t : ThId)
  /-- LEMB, R216. -/
  | lemb (c : CoreId) (t : ThId)
  /-- LCOMMIT, R236. -/
  | lcommit (c : CoreId) (t : ThId)
  /-- LDROP, R236. -/
  | ldrop (c : CoreId) (t : ThId)
  /-- LSTAT, R238. -/
  | lstat (c : CoreId) (t : ThId)
  /-- ETRIG, R205. -/
  | etrig (c : CoreId) (t : ThId)
  /-- OPEN_CODE, R181. -/
  | openCode (c : CoreId) (t : ThId) (k : BitVec 6)
  /-- UNASSIGNED_OP, R120. -/
  | unassignedOp (c : CoreId) (t : ThId) (k : BitVec 8)
  /-- ROUTINE_END, R176. -/
  | routineEnd (c : CoreId)
  /-- MICRO_WAIT_TIMEOUT, R175. -/
  | microWaitTimeout (c : CoreId)
  /-- ROUTINE_LENGTH_LIMIT, R175. -/
  | routineLengthLimit (c : CoreId)
  /-- LOAD_COMPLETE, R77. -/
  | loadComplete (c : CoreId) (t : ThId)
  /-- DEFERRED_LOAD_COMPLETE, R88. -/
  | deferredLoadComplete (c : CoreId) (t : ThId)
  /-- LINE_FILL_COMPLETE, R74. -/
  | lineFillComplete (c : CoreId) (line : BitVec 16)
  /-- STORE_DRAIN, R81. -/
  | storeDrain (c : CoreId)
  /-- LOCK_GRANT, R116. -/
  | lockGrant (line : BitVec 18)
  /-- BELLOWS_START, R129. -/
  | bellowsStart (c : CoreId)
  /-- SPILL_COMPLETE, R125. -/
  | spillComplete (c : CoreId)
  /-- FILL_COMPLETE, R126. -/
  | fillComplete (c : CoreId)
  /-- SWAPCTX_COMPLETE, R140. -/
  | swapctxComplete (c : CoreId)
  /-- EVENT_BIT_WAKE, R149. -/
  | eventBitWake (c : CoreId) (t : ThId)
  /-- EVENT_ENTRY, R151. -/
  | eventEntry (c : CoreId) (t : ThId)
  /-- LOCKUP_QUIESCENT, R165. -/
  | lockupQuiescent (c : CoreId)
  /-- LOCKUP_REPORT, R164. -/
  | lockupReport (c : CoreId)
  /-- FROZEN_STATE_ARRIVAL, R165. -/
  | frozenStateArrival (c : CoreId)
  /-- STOP_TAKES_EFFECT, R67. -/
  | stopTakesEffect (c : CoreId) (t : ThId)
  /-- ANGLE_EDGE, R35. -/
  | angleEdge (i : AngleIn) (level : Bool)
  /-- CAM_EDGE, R48. -/
  | camEdge (level : Bool)
  /-- STANDSTILL_TIMEOUT, R38. -/
  | standstillTimeout (i : AngleIn)
  /-- TICK_HOLDOVER, R51. -/
  | tickHoldover
  /-- COMPARATOR_HIT, R55. -/
  | comparatorHit (n : BitVec 6)
  /-- CHECKPOINT_TIMER, R254. -/
  | checkpointTimer
  /-- STANDBY_TOOTH, R61. -/
  | standbyTooth (w : BitVec 2) (level : Bool)
  /-- STBY_WAKE_TEETH_REACHED, R62. -/
  | stbyWakeTeethReached
  /-- STANDBY_TRIG_EDGE, R391. -/
  | standbyTrigEdge (p : BitVec 2) (level : Bool)
  /-- CHANNEL_SAMPLE, R190. -/
  | channelSample (ch : BitVec 6)
  /-- ADC_CONVERSION_DONE, R191. -/
  | adcConversionDone (code : BitVec 16)
  /-- SPI_TRANSACTION, R192. -/
  | spiTransaction (m : BitVec 2)
  /-- SPI_TRANSACTION_DONE, R192. -/
  | spiTransactionDone (m : BitVec 2) (rx : BitVec 48)
  /-- CAN_FRAME, R193. -/
  | canFrame (i : BitVec 1) (f : CanFrame) (valid : Bool)
  /-- DISCRETE_CHANGE, R194. -/
  | discreteChange (gpio : BitVec 8)
  /-- EMBER_ENTRY_WRITE, R200. -/
  | emberEntryWrite
  /-- TRIG_EDGE, R202. -/
  | trigEdge (p : BitVec 2) (level : Bool)
  /-- TRIGGER_PULSE, R207. -/
  | triggerPulse
  /-- TRIGGER_RECORD, R213. -/
  | triggerRecord
  /-- COPY_BURST, R217. -/
  | copyBurst
  /-- COPY_COMPLETE, R218. -/
  | copyComplete (slot : BitVec 6)
  /-- APPEND_COMPLETE, R234. -/
  | appendComplete (slot : BitVec 6)
  /-- HOLD_SENSE_CONVERSION, R276. -/
  | holdSenseConversion (code : BitVec 16)
  /-- DAMPER_MEASUREMENT, R278. -/
  | damperMeasurement
  /-- COMMIT_DURABLE, R265. -/
  | commitDurable (k : WClass)
  /-- CORD_TIMER, R241. -/
  | cordTimer
  /-- SEAL_START, R249. -/
  | sealStart
  /-- SEAL_RELEASE, R249. -/
  | sealRelease
  /-- TREE_BUILD_DONE, R252. -/
  | treeBuildDone
  /-- BLOCK_RETIRE, R273. -/
  | blockRetire (b : BitVec 12)
  /-- BLOCK_COPY_DONE, R273. -/
  | blockCopyDone (b : BitVec 12)
  /-- VAULT_SCRUB, R272. -/
  | vaultScrub (line : BitVec 17) (errs : BitVec 10)
  /-- POWER_FAIL_WARNING, R281. -/
  | powerFailWarning (cause : PfCause)
  /-- VAULT_SAFE, R281. -/
  | vaultSafe
  /-- STANDBY_ENTRY, R389. -/
  | standbyEntry
  /-- FLIT_CRC_ERROR, R14. -/
  | flitCrcError (l : LinkId)
  /-- LINK_RETRAIN_DONE, R15. -/
  | linkRetrainDone (l : LinkId) (ok : Bool)
  /-- THERMAL_THRESHOLD, R456. -/
  | thermalThreshold (d : Die) (temp : BitVec 8)
  /-- POLL, R296. -/
  | poll
  /-- POLL_COMPLETE, R298. -/
  | pollComplete (r : Option (List Byte))
  /-- DESCRIPTOR_FETCH, R303. -/
  | descriptorFetch (sq : BitVec 4)
  /-- DESCRIPTOR_READ_COMPLETE, R307. -/
  | descriptorReadComplete (sq : BitVec 4) (r : Option (List Byte))
  /-- BQ_FETCH_COMPLETE, R307. -/
  | bqFetchComplete (q : BitVec 2) (r : Option (List Byte))
  /-- EXPORT_START, R308. -/
  | exportStart (q : BitVec 2)
  /-- EXPORT_RECORD, R310. -/
  | exportRecord (q : BitVec 2)
  /-- SHADOW_WRITE, R295. -/
  | shadowWrite
  /-- COALESCE_TIMER, R304. -/
  | coalesceTimer (q : VecRing)
  /-- EXPORT_MARK_WRITE, R311. -/
  | exportMarkWrite
  /-- LINK_L1_ENTRY, R320. -/
  | linkL1Entry
  /-- BUS_MASTER_ENABLE, R286. -/
  | busMasterEnable (on : Bool)
  /-- POWER_STATE_CHANGE, R321. -/
  | powerStateChange (d3hot : Bool) (pmeEn : Bool)
  /-- LINK_HOT_RESET, R381. -/
  | linkHotReset
  /-- MSIX_TABLE_WRITE, R304. -/
  | msixTableWrite (e : BitVec 4) (dw : BitVec 2) (v : BitVec 32)
  /-- RING_ENABLE, R314. -/
  | ringEnable (r : RingId) (v : BitVec 32)
  /-- SQ_DISABLE, R315. -/
  | sqDisable (n : BitVec 4)
  /-- CQ_DISABLE, R316. -/
  | cqDisable (n : BitVec 4)
  /-- EQ_DISABLE, R317. -/
  | eqDisable (n : BitVec 2)
  /-- BAD_OPCODE, R325. -/
  | badOpcode (sq : BitVec 4)
  /-- IDENTIFY, R330. -/
  | identify (sq : BitVec 4)
  /-- STATS_READ, R331. -/
  | statsRead (sq : BitVec 4)
  /-- PUBKEY_READ, R332. -/
  | pubkeyRead (sq : BitVec 4)
  /-- SET_FCLK, R341. -/
  | setFclk (sq : BitVec 4) (vcore : BitVec 16)
  /-- FCLK_RELOCK_DONE, R26. -/
  | fclkRelockDone
  /-- CONFIG_WRITE, R342. -/
  | configWrite (sq : BitVec 4) (buf : Option (List Byte))
  /-- IMAGE_LOAD, R336. -/
  | imageLoad (sq : BitVec 4) (buf : Option (List Byte))
  /-- BUNDLE_LOAD, R337. -/
  | bundleLoad (sq : BitVec 4) (buf : Option (List Byte))
  /-- THREAD_START, R338. -/
  | threadStart (sq : BitVec 4)
  /-- THREAD_STOP, R339. -/
  | threadStop (sq : BitVec 4)
  /-- CORE_RESET, R340. -/
  | coreReset (sq : BitVec 4)
  /-- BUNDLE_REINSTALL_DONE, R189. -/
  | bundleReinstallDone (c : CoreId)
  /-- THREAD_QUERY, R328. -/
  | threadQuery (sq : BitVec 4)
  /-- EMBER_CONFIG, R343. -/
  | emberConfig (sq : BitVec 4) (buf : Option (List Byte))
  /-- EMBER_CONTROL, R343. -/
  | emberControl (sq : BitVec 4)
  /-- LOG_READ, R344. -/
  | logRead (sq : BitVec 4)
  /-- CORD_READ, R345. -/
  | cordRead (sq : BitVec 4)
  /-- ODO_READ, R346. -/
  | odoRead (sq : BitVec 4)
  /-- SERVICE, R349. -/
  | service (sq : BitVec 4) (buf : Option (List Byte))
  /-- RANDOM, R350. -/
  | random (sq : BitVec 4)
  /-- BIST_RUN, R394. -/
  | bistRun (sq : BitVec 4) (vcore : BitVec 16) (temp : BitVec 8)
  /-- CHALLENGE_GET, R371. -/
  | challengeGet (sq : BitVec 4)
  /-- CHALLENGE_ANSWER, R373. -/
  | challengeAnswer (sq : BitVec 4) (buf : Option (List Byte))
  /-- CHALLENGE_JUDGE, R373. -/
  | challengeJudge
  /-- NONCE_EXPIRY, R371. -/
  | nonceExpiry
  /-- LIFECYCLE, R366. -/
  | lifecycle (sq : BitVec 4) (buf : Option (List Byte))
  /-- LIFECYCLE_FUSE_BURN, R366. -/
  | lifecycleFuseBurn
  /-- FUSE_READ, R357. -/
  | fuseRead (g : BitVec 4) (w : BitVec 5)
  /-- FUSE_WRITE, R359. -/
  | fuseWrite (g : BitVec 4) (w : BitVec 5) (o : FuseShot)
  /-- FUSE_GENERATE, R357. -/
  | fuseGenerate (g : BitVec 4) (o : FuseShot)
  /-- FUSE_LOCK, R357. -/
  | fuseLock (g : BitVec 4) (readLock : Bool) (o : FuseShot)
  /-- FUSE_COMMAND_END, R358. -/
  | fuseCommandEnd
  /-- FUSE_FRAME, R362. -/
  | fuseFrame (l : Lane) (errs : List (BitVec 32))
  /-- TRNG_HEALTH_FAIL, R375. -/
  | trngHealthFail (cell : BitVec 5) (samples : BitVec 1024)
  /-- TRNG_STARTUP_DONE, R374. -/
  | trngStartupDone
  /-- KEYPAIR_CREATED, R370. -/
  | keypairCreated
  /-- COLD_RESET, R381. -/
  | coldReset
  /-- MAIN_RAILS_RESTORED, R381. -/
  | mainRailsRestored
  /-- PERST_N_FALL, R381. -/
  | perstNFall
  /-- PERST_N_RISE, R377. -/
  | perstNRise
  /-- HOST_RESET_BEGIN, R267. -/
  | hostResetBegin
  /-- PLL_LOCK, R377. -/
  | pllLock
  /-- RESET_RELEASE, R377. -/
  | resetRelease
  /-- OTP_START_READ_DONE, R360. -/
  | otpStartReadDone (o : FuseShot)
  /-- SWEEP_DONE, R377. -/
  | sweepDone
  /-- VAULT_RECOVERY, R268. -/
  | vaultRecovery (newestBad : Bool)
  /-- PILOT_START_LOAD, R378. -/
  | pilotStartLoad
  /-- BOOT_ROM, R386. -/
  | bootRom
  /-- RST_CTL_WRITE, R464. -/
  | rstCtlWrite (v : BitVec 32)
  /-- STBY_REQ, R390. -/
  | stbyReq (v : BitVec 32)
  /-- WAKE_CLEAR, R464. -/
  | wakeClear (v : BitVec 32)
  /-- POLL_EN_SET, R467. -/
  | pollEnSet (v : BitVec 32)
  /-- REGISTER_WRITE, R462. -/
  | registerWrite (w : RegWrite)
  /-- ARM_WRITE, R474. -/
  | armWrite (c : CoreId) (t : ThId) (i : BitVec 3) (v : Cell)
  /-- COMPARATOR_CTRL_WRITE, R476. -/
  | comparatorCtrlWrite (n : BitVec 6) (v : Cell)
  /-- COMPARATOR_TARGET_WRITE, R54. -/
  | comparatorTargetWrite (n : BitVec 6) (v : Dbl)
  /-- COMPARATOR_INCR_WRITE, R476. -/
  | comparatorIncrWrite (n : BitVec 6) (v : Dbl)
  /-- RING_CELL_WRITE, R477. -/
  | ringCellWrite (r : BitVec 4) (off : BitVec 7) (v : Cell)
  /-- RELEASE, R220. -/
  | release (r : BitVec 4) (v : Cell)
  /-- CAPTURE_OBJECT_WRITE, R479. -/
  | captureObjectWrite (o : CapObj) (v : Cell)
  /-- ICACHE_INVAL, R473. -/
  | icacheInval (c : CoreId) (v : Cell)
  /-- MSEQ_FAULT_CLEAR, R473. -/
  | mseqFaultClear (c : CoreId) (v : Cell)
  /-- WATCHPOINT_WRITE, R418. -/
  | watchpointWrite (c : CoreId) (i : BitVec 3) (k : BitVec 2) (v : Cell)
  /-- TRACE_CTL_WRITE, R482. -/
  | traceCtlWrite (v : Cell)
  /-- TRACE_FULL_CLEAR, R482. -/
  | traceFullClear (v : Cell)
  /-- EMBQ_READ, R214. -/
  | embqRead (c : CoreId) (t : ThId)
  /-- PH_STATUS_READ, R475. -/
  | phStatusRead (c : CoreId) (t : ThId)
  /-- TAP_INSTRUCTION, R403. -/
  | tapInstruction (ir : BitVec 8)
  /-- DBG_CHAL, R406. -/
  | dbgChal
  /-- DBG_ANS, R406. -/
  | dbgAns (bits : Nat) (bytes : List Byte)
  /-- DBG_NOP, R409. -/
  | dbgNop (r : DbgReq)
  /-- DBG_RD, R411. -/
  | dbgRd (r : DbgReq)
  /-- DBG_RDX, R411. -/
  | dbgRdx (r : DbgReq)
  /-- DBG_WR, R410. -/
  | dbgWr (r : DbgReq)
  /-- DBG_HALT, R413. -/
  | dbgHalt (r : DbgReq)
  /-- THREAD_HALT, R413. -/
  | threadHalt (c : CoreId) (t : ThId)
  /-- DBG_RESUME, R414. -/
  | dbgResume (r : DbgReq)
  /-- DBG_STEP, R415. -/
  | dbgStep (r : DbgReq)
  /-- DBG_ATTACH, R416. -/
  | dbgAttach (r : DbgReq)
  /-- DBG_INVAL, R410. -/
  | dbgInval (r : DbgReq)
  /-- HOLDOVER_END, R51. -/
  | holdoverEnd
  /-- CRYSTAL_FAILURE, R51. -/
  | crystalFailure
  /-- VSTBY_LOSS, R282. -/
  | vstbyLoss
  /-- VDDIO_DROP, R438. -/
  | vddioDrop (k : IoBank)
  /-- VDDIO_RETURN, R438. -/
  | vddioReturn (k : IoBank) (levels : BitVec 10)
  /-- BUILD_PROGRESS_SAVE, R252. -/
  | buildProgressSave
  /-- BIST_ITEM_DONE, R394. -/
  | bistItemDone (r : BistResult)
  /-- VERIFICATION_END, R335. -/
  | verificationEnd
  /-- BOUNDARY_UPDATE, R405. -/
  | boundaryUpdate (bits : BitVec 73)
deriving DecidableEq, Repr

end Sys2Proof
end

