-- ==== Sys2Proof/WellFormed.lean ====
section
/-! DEFINITION. Well-formed commands: the ranges that the spec gives to operands whose Lean type is wider. Meanings are
total; an ill-formed command is one that no sender of the spec can send. -/

namespace Sys2Proof

/-- The unassigned OP codes 0x3A–0x3F, 0x4E–0x4F, 0x57, 0x64–0x67, 0x6C–0x6F, 0x77–0xBF (R120). -/
def isUnassigned (k : Nat) : Bool :=
  [(0x3A, 0x3F), (0x4E, 0x4F), (0x57, 0x57), (0x64, 0x67), (0x6C, 0x6F), (0x77, 0xBF)].any
    (fun r => decide (r.1 ≤ k) && decide (k ≤ r.2))

/-- The number of data bytes of a CAN frame (ISO 11898-1, R193): a remote frame carries none, a classical frame at most
eight, an FD frame as its DLC codes. -/
def CanFrame.dataLen (f : CanFrame) : Nat :=
  if f.rtr then 0
  else if f.dlc.toNat ≤ 8 then f.dlc.toNat
  else if !f.fdf then 8
  else [12, 16, 20, 24, 32, 48, 64].getD (f.dlc.toNat - 9) 64

/-- A CAN frame with an identifier of its format's width and as many bytes as its DLC says. -/
def CanFrame.wf (f : CanFrame) : Bool :=
  (f.ide || decide (f.id.toNat < 2048)) && !(f.fdf && f.rtr) && (f.fdf || !(f.brs || f.esi)) &&
  decide (f.data.length = f.dataLen)

/-- A capture object that exists: 48 channels, 24 SPI slots, 16 thresholds, 8 CAN filters (R479, Table 18.15). -/
def CapObj.wf : CapObj → Bool
  | .channel n _ => decide (n.toNat < 48)
  | .spi n k => decide (n.toNat < 24) && decide (k.toNat < 7)
  | .can _ k => decide (k.toNat < 7)
  | .trig _ => true
  | .th _ k => decide (k.toNat < 3)
  | .cf _ k => decide (k.toNat < 5)
  | .gpio k => decide (k.toNat < 3)

/-- A setup-register write lands on an aligned dword, or on an aligned pair of dwords (R462). -/
def RegWrite.wf : RegWrite → Bool
  | .bar off _ _ => decide (off.toNat % 4 = 0)
  | .bar64 off _ => decide (off.toNat % 8 = 0)
  | .cell _ _ _ => true
  | .cell2 _ a _ => decide (a.toNat % 2 = 0)

/-- The answer of a host read of `n` bytes, if it came. -/
def answerOf (ok : Nat → Bool) : Option (List Byte) → Bool
  | some b => ok b.length
  | none => true

/-- A well-formed command. -/
def Instr.wf : Instr → Bool
  | .unassignedOp _ _ k => isUnassigned k.toNat
  | .channelSample ch => decide (ch.toNat < 48)
  | .canFrame _ f _ => f.wf
  | .captureObjectWrite o _ => o.wf
  | .registerWrite w => w.wf
  | .pollComplete r => answerOf (fun n => n = 256) r
  | .descriptorReadComplete _ r => answerOf (fun n => decide (n % 32 = 0) && decide (0 < n) && decide (n ≤ 512)) r
  | .bqFetchComplete _ r => answerOf (fun n => decide (n % 16 = 0) && decide (0 < n)) r
  | _ => true

end Sys2Proof
end

