-- ==== Sys2Proof/Decode.lean ====
section
/-! DEFINITION. The words of the syllables (R90, Tables 4.1, 4.6 to 4.14): an encoder and a decoder of the 12-bit
syllable. The rows of spec/opcode_table.json give no bits, so no word of the table spells a command. -/

namespace Sys2Proof

/-- The rows of the table give no bits: no word spells a command. -/
def decodeTableWord (_nbits _w : Nat) : Option Instr := none

/-- The OP code of a zero-operand syllable (Tables 4.6 to 4.14), with its core and thread. -/
def opCode : Instr → Option (CoreId × ThId × BitVec 8)
  | .nop c t => some (c, t, 0x00)
  | .dup c t => some (c, t, 0x01)
  | .drop c t => some (c, t, 0x02)
  | .swap c t => some (c, t, 0x03)
  | .over c t => some (c, t, 0x04)
  | .rot c t => some (c, t, 0x05)
  | .nip c t => some (c, t, 0x06)
  | .tuck c t => some (c, t, 0x07)
  | .twoDup c t => some (c, t, 0x08)
  | .twoDrop c t => some (c, t, 0x09)
  | .twoSwap c t => some (c, t, 0x0A)
  | .twoOver c t => some (c, t, 0x0B)
  | .tor c t => some (c, t, 0x0C)
  | .fromr c t => some (c, t, 0x0D)
  | .rfetch c t => some (c, t, 0x0E)
  | .depth c t => some (c, t, 0x0F)
  | .add c t => some (c, t, 0x10)
  | .sub c t => some (c, t, 0x11)
  | .adc c t => some (c, t, 0x12)
  | .sbc c t => some (c, t, 0x13)
  | .neg c t => some (c, t, 0x14)
  | .abs c t => some (c, t, 0x15)
  | .inc c t => some (c, t, 0x16)
  | .dec c t => some (c, t, 0x17)
  | .cmp c t => some (c, t, 0x18)
  | .tst c t => some (c, t, 0x19)
  | .min c t => some (c, t, 0x1A)
  | .max c t => some (c, t, 0x1B)
  | .satadd c t => some (c, t, 0x1C)
  | .satsub c t => some (c, t, 0x1D)
  | .add2 c t => some (c, t, 0x1E)
  | .sub2 c t => some (c, t, 0x1F)
  | .and c t => some (c, t, 0x20)
  | .or c t => some (c, t, 0x21)
  | .xor c t => some (c, t, 0x22)
  | .not c t => some (c, t, 0x23)
  | .shl c t => some (c, t, 0x24)
  | .shr c t => some (c, t, 0x25)
  | .sar c t => some (c, t, 0x26)
  | .rol c t => some (c, t, 0x27)
  | .shl1 c t => some (c, t, 0x28)
  | .shr1 c t => some (c, t, 0x29)
  | .sar1 c t => some (c, t, 0x2A)
  | .clz c t => some (c, t, 0x2B)
  | .popc c t => some (c, t, 0x2C)
  | .sext12 c t => some (c, t, 0x2D)
  | .zext12 c t => some (c, t, 0x2E)
  | .ext2 c t => some (c, t, 0x2F)
  | .mul c t => some (c, t, 0x30)
  | .mulu c t => some (c, t, 0x31)
  | .mac c t => some (c, t, 0x32)
  | .mfl c t => some (c, t, 0x33)
  | .mfh c t => some (c, t, 0x34)
  | .div c t => some (c, t, 0x35)
  | .divu c t => some (c, t, 0x36)
  | .mod c t => some (c, t, 0x37)
  | .sqrt c t => some (c, t, 0x38)
  | .tli c t => some (c, t, 0x39)
  | .ld c t => some (c, t, 0x40)
  | .st c t => some (c, t, 0x41)
  | .ldt c t => some (c, t, 0x42)
  | .ldtu c t => some (c, t, 0x43)
  | .stt c t => some (c, t, 0x44)
  | .ld2 c t => some (c, t, 0x45)
  | .st2 c t => some (c, t, 0x46)
  | .ldd c t => some (c, t, 0x47)
  | .pushll c t => some (c, t, 0x48)
  | .ldp c t => some (c, t, 0x49)
  | .stp c t => some (c, t, 0x4A)
  | .fence c t => some (c, t, 0x4B)
  | .lck c t => some (c, t, 0x4C)
  | .ulk c t => some (c, t, 0x4D)
  | .setbx c t => some (c, t, 0x50)
  | .clrbx c t => some (c, t, 0x51)
  | .tstbx c t => some (c, t, 0x52)
  | .tglbx c t => some (c, t, 0x53)
  | .pushb c t => some (c, t, 0x54)
  | .putb c t => some (c, t, 0x55)
  | .tste c t => some (c, t, 0x56)
  | .ret c t => some (c, t, 0x58)
  | .callx c t => some (c, t, 0x59)
  | .jmpx c t => some (c, t, 0x5A)
  | .rete c t => some (c, t, 0x5B)
  | .wait c t => some (c, t, 0x5C)
  | .waitn c t => some (c, t, 0x5D)
  | .trap c t => some (c, t, 0x5E)
  | .brk c t => some (c, t, 0x5F)
  | .mfs c t => some (c, t, 0x60)
  | .mts c t => some (c, t, 0x61)
  | .mfs2 c t => some (c, t, 0x62)
  | .swapctx c t => some (c, t, 0x63)
  | .phc c t => some (c, t, 0x68)
  | .phk c t => some (c, t, 0x69)
  | .pht c t => some (c, t, 0x6A)
  | .ph3 c t => some (c, t, 0x6B)
  | .lopen c t => some (c, t, 0x70)
  | .lapp c t => some (c, t, 0x71)
  | .lemb c t => some (c, t, 0x72)
  | .lcommit c t => some (c, t, 0x73)
  | .ldrop c t => some (c, t, 0x74)
  | .lstat c t => some (c, t, 0x75)
  | .etrig c t => some (c, t, 0x76)
  | .openCode c t k => some (c, t, 0xC0 + k.setWidth 8)
  | .unassignedOp c t k => some (c, t, k)
  | _ => none

/-- The syllable's word (Table 4.1); none for a command that is no syllable. -/
def encodeSyl (i : Instr) : Option Syl :=
  match i with
  | .lit _ _ v => some (0b00#2 ++ v)
  | .call _ _ d => some (0b010#3 ++ d)
  | .jmp _ _ d => some (0b011#3 ++ d)
  | .bcc _ _ cc d => some ((0b10#2 ++ cc) ++ d)
  | .pfx _ _ p => some (0b1110#4 ++ p)
  | .setb _ _ a => some ((0b110#3 ++ 0b00#2) ++ a)
  | .clrb _ _ a => some ((0b110#3 ++ 0b01#2) ++ a)
  | .tstb _ _ a => some ((0b110#3 ++ 0b10#2) ++ a)
  | .tglb _ _ a => some ((0b110#3 ++ 0b11#2) ++ a)
  | j => (opCode j).map (fun x => 0b1111#4 ++ x.2.2)

/-- The core and thread that issue a syllable; none for a command that is no syllable. -/
def sylIssuer : Instr → Option (CoreId × ThId)
  | .lit c t _ | .call c t _ | .jmp c t _ | .bcc c t _ _ | .pfx c t _ | .setb c t _ | .clrb c t _ | .tstb c t _
  | .tglb c t _ => some (c, t)
  | j => (opCode j).map (fun x => (x.1, x.2.1))

/-- The zero-operand syllable with OP code `k` (R120, Tables 4.6 to 4.14). -/
def decodeOp (c : CoreId) (t : ThId) (k : BitVec 8) : Instr :=
  if 0xC0 ≤ k.toNat then .openCode c t (k.setWidth 6)
  else
    match k.toNat with
    | 0x00 => .nop c t
    | 0x01 => .dup c t
    | 0x02 => .drop c t
    | 0x03 => .swap c t
    | 0x04 => .over c t
    | 0x05 => .rot c t
    | 0x06 => .nip c t
    | 0x07 => .tuck c t
    | 0x08 => .twoDup c t
    | 0x09 => .twoDrop c t
    | 0x0A => .twoSwap c t
    | 0x0B => .twoOver c t
    | 0x0C => .tor c t
    | 0x0D => .fromr c t
    | 0x0E => .rfetch c t
    | 0x0F => .depth c t
    | 0x10 => .add c t
    | 0x11 => .sub c t
    | 0x12 => .adc c t
    | 0x13 => .sbc c t
    | 0x14 => .neg c t
    | 0x15 => .abs c t
    | 0x16 => .inc c t
    | 0x17 => .dec c t
    | 0x18 => .cmp c t
    | 0x19 => .tst c t
    | 0x1A => .min c t
    | 0x1B => .max c t
    | 0x1C => .satadd c t
    | 0x1D => .satsub c t
    | 0x1E => .add2 c t
    | 0x1F => .sub2 c t
    | 0x20 => .and c t
    | 0x21 => .or c t
    | 0x22 => .xor c t
    | 0x23 => .not c t
    | 0x24 => .shl c t
    | 0x25 => .shr c t
    | 0x26 => .sar c t
    | 0x27 => .rol c t
    | 0x28 => .shl1 c t
    | 0x29 => .shr1 c t
    | 0x2A => .sar1 c t
    | 0x2B => .clz c t
    | 0x2C => .popc c t
    | 0x2D => .sext12 c t
    | 0x2E => .zext12 c t
    | 0x2F => .ext2 c t
    | 0x30 => .mul c t
    | 0x31 => .mulu c t
    | 0x32 => .mac c t
    | 0x33 => .mfl c t
    | 0x34 => .mfh c t
    | 0x35 => .div c t
    | 0x36 => .divu c t
    | 0x37 => .mod c t
    | 0x38 => .sqrt c t
    | 0x39 => .tli c t
    | 0x40 => .ld c t
    | 0x41 => .st c t
    | 0x42 => .ldt c t
    | 0x43 => .ldtu c t
    | 0x44 => .stt c t
    | 0x45 => .ld2 c t
    | 0x46 => .st2 c t
    | 0x47 => .ldd c t
    | 0x48 => .pushll c t
    | 0x49 => .ldp c t
    | 0x4A => .stp c t
    | 0x4B => .fence c t
    | 0x4C => .lck c t
    | 0x4D => .ulk c t
    | 0x50 => .setbx c t
    | 0x51 => .clrbx c t
    | 0x52 => .tstbx c t
    | 0x53 => .tglbx c t
    | 0x54 => .pushb c t
    | 0x55 => .putb c t
    | 0x56 => .tste c t
    | 0x58 => .ret c t
    | 0x59 => .callx c t
    | 0x5A => .jmpx c t
    | 0x5B => .rete c t
    | 0x5C => .wait c t
    | 0x5D => .waitn c t
    | 0x5E => .trap c t
    | 0x5F => .brk c t
    | 0x60 => .mfs c t
    | 0x61 => .mts c t
    | 0x62 => .mfs2 c t
    | 0x63 => .swapctx c t
    | 0x68 => .phc c t
    | 0x69 => .phk c t
    | 0x6A => .pht c t
    | 0x6B => .ph3 c t
    | 0x70 => .lopen c t
    | 0x71 => .lapp c t
    | 0x72 => .lemb c t
    | 0x73 => .lcommit c t
    | 0x74 => .ldrop c t
    | 0x75 => .lstat c t
    | 0x76 => .etrig c t
    | _ => .unassignedOp c t k

/-- The syllable that a 12-bit word spells (R90, Table 4.1), issued by thread `t` of core `c`. Every word spells one. -/
def decodeSyl (c : CoreId) (t : ThId) (w : Syl) : Instr :=
  if w.toNat < 0x400 then .lit c t (w.setWidth 10)
  else if w.toNat < 0x600 then .call c t (w.setWidth 9)
  else if w.toNat < 0x800 then .jmp c t (w.setWidth 9)
  else if w.toNat < 0xC00 then .bcc c t (w.extractLsb' 6 4) (w.setWidth 6)
  else if w.toNat < 0xE00 then
    match (w.extractLsb' 7 2).toNat with
    | 0 => .setb c t (w.setWidth 7)
    | 1 => .clrb c t (w.setWidth 7)
    | 2 => .tstb c t (w.setWidth 7)
    | _ => .tglb c t (w.setWidth 7)
  else if w.toNat < 0xF00 then .pfx c t (w.setWidth 8)
  else decodeOp c t (w.setWidth 8)

end Sys2Proof
end

