-- ==== Sys2Proof/Config.lean ====
section
/-! DEFINITION. The values that one silicon revision fixes, and the free values: constants with no body, so that no
proof can see what they are. A free value that is drawn afresh is applied to the counter `State.free` (log entry 2). -/

namespace Sys2Proof.Config

/-- ROM_ID of this silicon revision (R185). Software assumes no value of it. -/
opaque romId : BitVec 32
/-- REV, the silicon revision code of SETUP_ID (R464). Software assumes no value of it. -/
opaque rev : Byte
/-- The contents of the boot ROM, 0xF0000 to 0xF0FFF (R21): fixed in silicon, not given by the spec. -/
opaque bootRom : PAddr → Syl
/-- The words of the vendor ROM, 0x000 to 0x9FF of a control store (R167): fixed in silicon, no part of the interface
(R169). -/
opaque vendorRom : BitVec 12 → BitVec 96
/-- What a cell field of `w` bits shows of a number `n` that does not fit it (R480, R481). -/
opaque wideField : Nat → Nat → Nat
/-- FCLK cycles that pass on a core before a syllable reads SR_CYCLE, at draw `n` (R111). -/
opaque freeCycles : Nat → Dbl
/-- FCLK cycles between two trace records, at draw `n` (R420). -/
opaque freeGap : Nat → BitVec 13
/-- Cell `k` that a voided spill leaves in memory, at draw `n` (R125). -/
opaque freeSpill : Nat → Nat → Cell
/-- What a memory unit holds after a transparent test that found a fault in it, at draw `n` (R396). -/
opaque freeCell : Nat → Cell
/-- Byte `k` of the 400 noise bits that the TRNG conditions into one output at draw `n` (R374). -/
opaque noise : Nat → Nat → Byte
/-- Byte `k` of the randomizer C of the signature with leaf number `q` of the tree with identifier `i` (R250). -/
opaque lmsC : List Byte → Nat → Nat → Byte
/-- The entries beyond the first that the stream buffer of a capture channel holds (R195). -/
opaque streamDepth : Nat → Nat
/-- The level at draw `n` of a pin that no command tells of: the RXD inputs, the MISO inputs, a released open-drain pin, a
waveform (R404). -/
opaque pinLevel : Nat → Nat → Bool
/-- Byte `k` of the IV under which the secret signing state is sealed at draw `n` (R259). -/
opaque sealIv : Nat → Nat → Byte
/-- The check bits that data bit `i` of an OTP word contributes to (R354), where they make a code that corrects one error
and detects two. -/
opaque otpCol : Nat → BitVec 7
/-- Round `k` of the transform that scrambles the secret word at array address `a` (R356), on half a word. -/
opaque scramble : Nat → Nat → BitVec 16 → BitVec 16

end Sys2Proof.Config
end

