-- ==== Sys2Proof/Machine/Bits.lean ====
section
/-! DEFINITION. Bit fields, byte order and saturating counters, once for every family (R24, R484). -/

namespace Sys2Proof.Machine

/-- Bits [hi:lo] as a number. -/
def fieldN {w : Nat} (x : BitVec w) (lo n : Nat) : Nat := (x.toNat / 2 ^ lo) % 2 ^ n
/-- Bit `i` as a Boolean. -/
def bitB {w : Nat} (x : BitVec w) (i : Nat) : Bool := x.getLsbD i
/-- `x` with bit `i` put to `b`. -/
def setBit {w : Nat} (x : BitVec w) (i : Nat) (b : Bool) : BitVec w :=
  if b then x ||| (BitVec.ofNat w (2 ^ i)) else x &&& ~~~(BitVec.ofNat w (2 ^ i))
/-- `x` with bits [lo+n-1:lo] put to `v`. -/
def setField {w : Nat} (x : BitVec w) (lo n v : Nat) : BitVec w :=
  (x &&& ~~~(BitVec.ofNat w ((2 ^ n - 1) * 2 ^ lo))) ||| BitVec.ofNat w ((v % 2 ^ n) * 2 ^ lo)
/-- A Boolean as a one-bit number. -/
def b2n (b : Bool) : Nat := if b then 1 else 0
/-- The low half of a double cell. -/
def loCell (d : Dbl) : Cell := BitVec.ofNat 24 d.toNat
/-- The high half of a double cell. -/
def hiCell (d : Dbl) : Cell := BitVec.ofNat 24 (d.toNat / 2 ^ 24)
/-- A double cell of its low and high halves (R106). -/
def mkDbl (lo hi : Cell) : Dbl := hi ++ lo
/-- A saturating counter one further. -/
def satInc {w : Nat} (x : BitVec w) : BitVec w := if x = BitVec.allOnes w then x else x + 1
/-- A saturating counter `n` further. -/
def satAdd {w : Nat} (x : BitVec w) (n : Nat) : BitVec w :=
  if x.toNat + n < 2 ^ w then BitVec.ofNat w (x.toNat + n) else BitVec.allOnes w
/-- The `n` low bytes of a number, least significant first. -/
def leBytes : Nat → Nat → List Byte
  | 0, _ => []
  | n + 1, v => BitVec.ofNat 8 v :: leBytes n (v / 256)
/-- The number that bytes spell, least significant first. -/
def leNat : List Byte → Nat
  | [] => 0
  | b :: r => b.toNat + 256 * leNat r
/-- The `n` low bytes of a number, most significant first. -/
def beBytes (n v : Nat) : List Byte := (leBytes n v).reverse
/-- The number that bytes spell, most significant first. -/
def beNat (l : List Byte) : Nat := leNat l.reverse
/-- `n` bytes of a list from offset `i`, padded with 0 past its end. -/
def bytesAt (l : List Byte) (i n : Nat) : List Byte :=
  let r := (l.drop i).take n
  r ++ List.replicate (n - r.length) 0
/-- The little-endian number of `n` bytes at offset `i`. -/
def leAt (l : List Byte) (i n : Nat) : Nat := leNat (bytesAt l i n)
/-- Cells packed three bytes each (R24). -/
def packCells (l : List Cell) : List Byte := (l.map (fun c => leBytes 3 c.toNat)).flatten
/-- `n` cells unpacked from bytes (R24). -/
def unpackCells : Nat → List Byte → List Cell
  | 0, _ => []
  | n + 1, l => BitVec.ofNat 24 (leNat (l.take 3)) :: unpackCells n (l.drop 3)
/-- Syllables unpacked from bytes, two to a 24-bit group, the first in bits [11:0] (R24). -/
def unpackSyls : Nat → List Byte → List Syl
  | 0, _ => []
  | n + 1, l =>
    let g := leNat (l.take 3)
    BitVec.ofNat 12 g :: BitVec.ofNat 12 (g / 4096) :: unpackSyls n (l.drop 3)
/-- The least index below `n` at which `p` holds. -/
def firstIdx (p : Nat → Bool) : Nat → Option Nat
  | 0 => none
  | n + 1 =>
    match firstIdx p n with
    | some i => some i
    | none => if p n then some n else none

end Sys2Proof.Machine
end

