-- ==== Sys2Proof/Machine/Mem.lean ====
section
/-! DEFINITION. Sparse memories of `w`-bit units in one canonical form: addresses strictly rising and no unit equal to
0, which is what a swept memory reads as where nothing has been written (R382, log entry 1). -/

namespace Sys2Proof

/-- A memory: (address, unit) pairs in canonical form. -/
abbrev Mem (w : Nat) := List (Nat × BitVec w)

namespace Machine

/-- The unit at address `a`; an unlisted address reads 0. -/
def memRead {w : Nat} : Mem w → Nat → BitVec w
  | [], _ => 0
  | (k, v) :: r, a => if k = a then v else memRead r a

/-- The list with address `a` put to `v`, kept sorted, a 0 left out. -/
def memWrite {w : Nat} : Mem w → Nat → BitVec w → Mem w
  | [], a, v => if v = 0 then [] else [(a, v)]
  | (k, x) :: r, a, v =>
    if a < k then (if v = 0 then (k, x) :: r else (a, v) :: (k, x) :: r)
    else if a = k then (if v = 0 then r else (a, v) :: r)
    else (k, x) :: memWrite r a v

/-- Units written one after the other from address `a`. -/
def memWriteList {w : Nat} (m : Mem w) (a : Nat) : List (BitVec w) → Mem w
  | [] => m
  | v :: vs => memWriteList (memWrite m a v) (a + 1) vs

/-- `n` units read one after the other from address `a`. -/
def memReadList {w : Nat} (m : Mem w) (a : Nat) : Nat → List (BitVec w)
  | 0 => []
  | n + 1 => memRead m a :: memReadList m (a + 1) n

/-- Every listed address is at or above `lo`, they rise strictly, and no listed unit is 0. -/
def memWfFrom {w : Nat} : Nat → Mem w → Bool
  | _, [] => true
  | lo, (k, v) :: r => decide (lo ≤ k) && decide (v ≠ 0) && memWfFrom (k + 1) r

/-- The canonical form. -/
def Memory.wf {w : Nat} (m : Mem w) : Bool := memWfFrom 0 m

end Machine
end Sys2Proof
end

