-- ==== Sys2Proof/Machine/CoreState.lean ====
section
/-! DEFINITION. The state of a Glibin core and of its eight threads (chapters 03 to 07, 15, 18). Every default is the
value after a CORE reset (R137, R144, R180, R382, R473). -/

namespace Sys2Proof.Machine

/-- The thread states of Table 3.1 (R66). -/
inductive TState where
  | stopped | ready | waiting | blocked | halted | frozen
deriving DecidableEq, Repr, Inhabited

/-- The fault classes, vectors 1 to 8 of Table 6.3 (R147). -/
inductive FClass where
  | illegal | priv | misalign | buserr | dstack | rstack | lockseq | watch
deriving DecidableEq, Repr, Inhabited

/-- What a load brings: a cell, a double cell, a tine with or without its sign, LDP's cell with the address after it. -/
inductive LoadKind where
  | cell | dbl | tineS | tineU | post
deriving DecidableEq, Repr, Inhabited

/-- What a BLOCKED thread waits for, besides a line (R66). `hold`: the syllable at the PC has not issued, because a
resource it needs is not free (R68, R83, R88, R111, R119, R128). -/
inductive Why where
  | none
  | hold
  /-- An MTS to SR_DSBASE or SR_DSLIMIT, not yet issued, that waits for the thread's window transfer: it takes effect
  before the next transfer is tested (R131). -/
  | area
  /-- A load at `a`, issued at `pc`, sent to memory once the store-buffer entries up to number `upto` have drained (R82). -/
  | load (k : LoadKind) (a : Cell) (pc : BitVec 20) (upto : Nat)
  /-- An LDD that waits for the store-buffer entries up to number `upto` before it goes to memory (R82). -/
  | deferred (upto : Nat)
  /-- A FENCE over the store-buffer entries up to number `upto` (R85). -/
  | fence (upto : Nat)
  /-- A STRICT PUSHLL over outstanding deferred loads (R88). -/
  | pushll
  /-- The grant of the lock line (R113). -/
  | grant (line : BitVec 18)
  /-- A WAIT, or a WAITN when `many`, whose bits are all 0: the thread is WAITING (R148). -/
  | bits (many : Bool)
  /-- SWAPCTX to the block at `a`, issued at `pc` (R140). -/
  | swap (a : Cell) (pc : BitVec 20)
deriving DecidableEq, Repr, Inhabited

/-- The syllable at the PC is held: it has not issued and asks again when a resource of the core is freed. -/
def Why.held : Why → Bool
  | .hold | .area => true
  | _ => false

/-- An arm (R145). -/
structure Arm where
  bit : BitVec 16 := 0
  level : BitVec 3 := 0
  en : Bool := false
deriving DecidableEq, Repr, Inhabited

/-- The kind of an entry (R155, R473): none yet, event, TRAP, fault, ESCALATED. -/
inductive EKind where
  | none | event | trap | fault | escalated
deriving DecidableEq, Repr, Inhabited

/-- A thread's fault record (R155). -/
structure FaultRec where
  kind : EKind := .none
  vec : BitVec 5 := 0
  cls : BitVec 4 := 0
  arm : BitVec 3 := 0
  saddr : BitVec 20 := 0
  oaddr : Cell := 0
deriving DecidableEq, Repr, Inhabited

/-- A line of sixteen syllables and its number, program address bits [19:4] (R74). -/
structure LineBuf where
  line : BitVec 16
  data : Tab Syl 16
deriving DecidableEq, Repr, Inhabited

/-- A deferred load outstanding (R88): its address, its cell if it has been read already, and the store-buffer entries
that it waits for (R82). -/
structure DLoad where
  a : Cell
  v : Option Cell := none
  upto : Nat := 0
deriving DecidableEq, Repr, Inhabited

/-- The direction of a window transfer (R125, R126). -/
inductive XKind where
  | spill | fill
deriving DecidableEq, Repr, Inhabited

/-- A thread's window transfer in flight (R125 to R127). -/
structure Xfer where
  kind : XKind
  grp : Nat
  voided : Bool := false
deriving DecidableEq, Repr, Inhabited

/-- A thread (R66 and the rules named in INVENTORY.md under State). `skipWp`: the address of a group that HALT
watchpoints hold, with those watchpoints, which its next execution does not match (R417). -/
structure Thread where
  st : TState := .stopped
  why : Why := .none
  want : Option (BitVec 16) := none
  pc : BitVec 20 := 0
  status : Cell := 0x000840
  prod : Dbl := 0
  last : Dbl := 0
  pend : List (Nat × Dbl) := []
  ll : Cell := 0
  dl : List DLoad := []
  dsbase : Cell := 0
  dslimit : Cell := 0
  ctxa : Cell := 0
  sylcnt : Dbl := 0
  w : Nat := 0
  base : Nat := 0
  spc : Nat := 0
  dirty : BitVec 4 := 0xF
  win : Tab Cell 32 := Tab.fill 32 0
  rs : Tab Cell 16 := Tab.fill 16 0
  rsd : Nat := 0
  rsp : Nat := 0
  bits : BitVec 128 := 0
  pacc : BitVec 16 := 0
  pk : Nat := 0
  grp : BitVec 20 := 0
  lockN : Option Nat := none
  arms : Tab Arm 8 := Tab.fill 8 {}
  fr : FaultRec := {}
  buf : Option LineBuf := none
  xfer : Option Xfer := none
  fresh : Bool := true
  stopReq : Bool := false
  haltReq : Bool := false
  step : Option Bool := none
  brkHit : Bool := false
  skipWp : Option (BitVec 20 × Byte) := none
  wasSt : TState := .stopped
deriving DecidableEq, Repr, Inhabited

/-- The size of a store: a tine (its half), a cell, a double cell (R82). -/
inductive SSize where
  | tine (h : Bool) | cell | dbl
deriving DecidableEq, Repr, Inhabited

/-- A store-buffer entry (R81), numbered in the order in which the core's entries entered. `dbg` marks one that a debugger
with the WATCH right made (R418). -/
structure SEntry where
  id : Nat
  th : BitVec 3
  a : Cell
  size : SSize
  v : Dbl
  dbg : Bool := false
deriving DecidableEq, Repr, Inhabited

/-- A line of the I-cache with the way it stands in (R73). -/
structure ILine where
  way : Nat
  line : BitVec 16
  data : Tab Syl 16
deriving DecidableEq, Repr, Inhabited

/-- An operation of the Bellows (R129): the transfer in flight of a thread, or its SWAPCTX. -/
inductive BellOp where
  | xfer (t : BitVec 3)
  | swap (t : BitVec 3)
deriving DecidableEq, Repr, Inhabited

/-- A request for a memory slot that waits its turn (R80): a line fill, the Bellows, the syllable that a thread is held
at. -/
inductive SlotReq where
  | fill (line : BitVec 16)
  | bell
  | thread (t : BitVec 3)
deriving DecidableEq, Repr, Inhabited

/-- A watchpoint (R417): its first cell as written (R473) and its other cells. -/
structure Watchpt where
  ctl : Cell := 0
  addr : Cell := 0
  amask : Cell := 0
  count : Cell := 0
deriving DecidableEq, Repr, Inhabited

/-- The routine that a core's sequencer runs (R168, R180): its thread, the address of its syllable, its open code. -/
structure Routine where
  t : BitVec 3
  pc : BitVec 20
  code : BitVec 6
deriving DecidableEq, Repr, Inhabited

/-- The loadable part of a control store (R167, R178, R180). -/
structure CtlStore where
  patch : Mem 96 := []
  openw : Mem 96 := []
  points : Tab (BitVec 32) 32 := Tab.fill 32 0
  disp : Tab (BitVec 32) 64 := Tab.fill 64 0
  patchIn : Bool := false
  openIn : Bool := false
deriving DecidableEq, Repr, Inhabited

/-- What a locked-up core keeps for its machine note (R161, R162, R165), and how far its report has come (R164). -/
structure Lockup where
  t : BitVec 3
  cause : BitVec 2
  what : BitVec 5
  dropped : List Byte := []
  quiet : Bool := false
  reported : Bool := false
  sent : Bool := false
deriving DecidableEq, Repr, Inhabited

/-- A Glibin core. `fills` are the line fills that hold a memory slot, `slotq` the requests for one that wait, oldest
first (R80). -/
structure Core where
  th : Tab Thread 8 := Tab.fill 8 {}
  icache : List ILine := []
  icLock : BitVec 2 := 0
  fills : List (BitVec 16) := []
  slotq : List SlotReq := []
  lmem : Mem 24 := []
  bits : BitVec 4096 := 0
  sb : List SEntry := []
  sbNext : Nat := 0
  bq : List BellOp := []
  bell : Option BellOp := none
  seq : Option Routine := none
  cs : CtlStore := {}
  reinst : Bool := false
  rfail : Bool := false
  mseq : Cell := 0
  wp : Tab Watchpt 8 := Tab.fill 8 {}
  embq : List Dbl := []
  lastTh : BitVec 3 := 7
  cyc : Dbl := 0
  lockup : Option Lockup := none
  attached : Bool := false
deriving DecidableEq, Repr, Inhabited

end Sys2Proof.Machine
end

