-- ==== Sys2Proof/Machine/FireState.lean ====
section
/-! DEFINITION. The state that the cores of the Firebox share: memories, event bits, comparators, the phase mirror, the
Ember rings and their copies, lock lines, links, the trace buffer (chapters 01, 02, 04, 08, 15, 18). Every default is
the value after a HOST, WARM or COLD reset. -/

namespace Sys2Proof.Machine

/-- A phase comparator (R54, R476). `first` marks the first evaluation after EN was set (R56); `carried` is the LEVEL
of the hit that set the hit bit (R145). -/
structure Compar where
  en : Bool := false
  src : BitVec 2 := 0
  periodic : Bool := false
  level : BitVec 3 := 0
  late : Bool := false
  skip : Byte := 0
  overrun : Byte := 0
  target : Dbl := 0
  incr : Dbl := 0
  first : Bool := false
  carried : BitVec 3 := 0
deriving DecidableEq, Repr, Inhabited

/-- The phase mirror and the live odometer as the Firebox last received them (R52, R226, R475). The JUMP fields of the
status are the Pilot's sticky fields. -/
structure Mirror where
  course : Dbl := 0
  crank : Dbl := 0
  tick : Dbl := 0
  status : BitVec 13 := 0
  odo : Dbl := 0
deriving DecidableEq, Repr, Inhabited

/-- The states of a ring's half, coded as the STATE cell codes them (R208, R209, R477). -/
inductive HState where
  | free | armed | post | held
deriving DecidableEq, Repr, Inhabited

/-- How far the copy of a window has come (R216 to R219): none, or in flight into a body segment of a log slot. -/
inductive WCopy where
  | none | inflight (slot seg : Nat)
deriving DecidableEq, Repr, Inhabited

/-- An entry of the missed-trigger list (R211), with the number of the record it waits for. -/
structure Missed where
  src : Nat
  tick : Dbl
  wait : Option Nat := none
deriving DecidableEq, Repr, Inhabited

/-- The missed triggers that the first completed copy of a disabled ring's windows takes, once the ring is enabled again
(R218, R222). `gen` marks the windows of one disabling. -/
structure OldMiss where
  gen : Nat
  missed : BitVec 16
  list : List Missed
deriving DecidableEq, Repr, Inhabited

/-- A frozen window (R207, R212): its half, the first cell of its area and the area's cells, FP as an offset in the
area, the pre depth D, post cells written, the trigger's stamps, and the number of the record it waits for (R213).
`dead` once its ring has been disabled (R222), and `old` once that ring has been enabled again. -/
structure Win where
  half : Bool
  lo : Nat
  size : Nat
  fp : Nat
  d : Nat
  postw : Nat := 0
  src : Nat := 0x1F
  tick : Dbl := 0
  course : Dbl := 0
  crank : Dbl := 0
  wait : Option Nat := none
  mTick : Dbl := 0
  mCourse : Dbl := 0
  mCrank : Dbl := 0
  shortPre : Bool := false
  trunc : Bool := false
  complete : Bool := false
  dead : Bool := false
  old : Option OldMiss := none
  copy : WCopy := .none
deriving DecidableEq, Repr, Inhabited

/-- An Ember ring (R198, R208 to R212, R477). `wp` is the write offset in the active area and `depth` the cells written
into it since it was armed; `gen` counts the enablings over windows still in copy. -/
structure EmRing where
  en : Bool := false
  paired : Bool := false
  crec : Bool := false
  core : BitVec 4 := 0
  base : BitVec 22 := 0
  len : BitVec 22 := 0
  pre : BitVec 22 := 0
  post : BitVec 22 := 0
  trigsel : BitVec 29 := 0
  chmap : Tab Cell 16 := Tab.fill 16 0
  h0 : HState := .free
  h1 : HState := .free
  wp : Nat := 0
  depth : Nat := 0
  wins : List Win := []
  missed : BitVec 16 := 0
  mlist : List Missed := []
  waitMiss : List Nat := []
  cfgerr : BitVec 4 := 0
  gen : Nat := 0
deriving DecidableEq, Repr, Inhabited

/-- A copy of a window under way (R217), in a list whose head has the engine's next turn: its log slot, the ring, the
segment number in the log's body, and the window cells sent so far. The window stays in its ring's list, even when the ring is disabled (R222). -/
structure Copy where
  slot : Nat
  ring : Nat
  seg : Nat
  sent : Nat := 0
deriving DecidableEq, Repr, Inhabited

/-- A hold of a lock line (R113): the line, its core and thread, and, once the sequence has ended, the number of the
last store-buffer entry that has to drain. -/
structure Hold where
  line : BitVec 18
  core : BitVec 4
  th : BitVec 3
  rel : Option Nat := none
deriving DecidableEq, Repr, Inhabited

/-- A die-to-die link (R14, R15). -/
structure Link where
  errors : BitVec 24 := 0
  retrains : BitVec 24 := 0
  replays : Nat := 0
  training : Bool := false
  fails : Nat := 0
  down : Bool := false
deriving DecidableEq, Repr, Inhabited

/-- The trace buffer (R420, R421, R482). -/
structure Trace where
  ctl : Cell := 0
  full : Bool := false
  wptr : BitVec 12 := 0
  drop : BitVec 24 := 0
  recs : Mem 64 := []
  since : Nat := 0
deriving DecidableEq, Repr, Inhabited

/-- The counters of a core that the Firebox common block holds (R473, R484). -/
structure CoreCnt where
  lockups : BitVec 24 := 0
  eqOvf : BitVec 24 := 0
  etrigIgn : BitVec 24 := 0
  logBadh : BitVec 24 := 0
deriving DecidableEq, Repr, Inhabited

/-- The shared part of the Firebox. -/
structure Fire where
  prog : Mem 12 := []
  shared : Mem 24 := []
  ember : Mem 24 := []
  ev : BitVec 1024 := 0
  cmp : Tab Compar 64 := Tab.fill 64 {}
  mir : Mirror := {}
  rings : Tab EmRing 16 := Tab.fill 16 {}
  copies : List Copy := []
  holds : List Hold := []
  wants : List Hold := []
  lastHold : List (BitVec 18 × BitVec 4) := []
  fclk : Nat := 30
  relock : Option Nat := none
  hearth : Link := {}
  plink : Link := {}
  trace : Trace := {}
  cnt : Tab CoreCnt 16 := Tab.fill 16 {}
deriving DecidableEq, Repr, Inhabited

end Sys2Proof.Machine
end

