-- ==== Sys2Proof/Machine/PilotState.lean ====
section
/-! DEFINITION. The state of the Pilot: the timebase (chapter 02), the capture channels and trigger sources
(chapter 08), the Damper's ledger (chapter 10), standby and wake (chapter 14), the TAP (chapter 15). Every default is
the value after a COLD reset. -/

namespace Sys2Proof.Machine

/-- One angle input (R35, R38): its level, the PLCLK cycle of its last accepted transition and tooth edge, T_prev, and
the start of a pulse that PULSE_WIDTH mode is measuring (R42). -/
structure AngIn where
  level : Bool := false
  lastTr : Option Nat := none
  lastTooth : Option Nat := none
  tprev : Option Nat := none
  stopped : Bool := true
  pulse : Option Nat := none
  rejects : BitVec 24 := 0
deriving DecidableEq, Repr, Inhabited

/-- The CRANK synchronisation states of Table 2.3, coded as PH_STATUS codes them (R475). -/
inductive CrkState where
  | nosync | candidate | sync360 | sync720
deriving DecidableEq, Repr, Inhabited

/-- The defaults of the phase configuration block (R478). -/
def phaseDefault : Tab Cell 16 :=
  #v[0x000850, 0x000850, 0x000850, 0x000850, 0x000850, 0x000850, 0x000168, 0x000168, 0x000168, 0x000168,
     0x282010, 0x13C100, 0, 0x0009C4, 0, 0]

/-- The master timebase (R32 to R63). `cfg` is the block as last written, `eff` what is in force (R37).
`pendCourse`: the COURSE fields wait for their tooth edge; `pendSel`: that edge selects COURSE_PRI again (R342). Inputs 0 to 3
are WHL0 to WHL3, 4 is CRANK, 5 is CAM. -/
structure Phase where
  clk : Nat := 0
  ang : Tab AngIn 6 := Tab.fill 6 {}
  cfg : Tab Cell 16 := phaseDefault
  eff : Tab Cell 16 := phaseDefault
  pendCourse : Bool := false
  pendSel : Bool := false
  course : Dbl := 0
  crank : Dbl := 0
  tick : Dbl := 0
  src : BitVec 2 := 0
  failover : Bool := false
  dir : Bool := false
  jumpCourse : Bool := false
  jumpCrank : Bool := false
  holdover : Bool := false
  tickLost : Bool := false
  plausP : Nat := 0
  plausB : Nat := 0
  failN : Nat := 0
  plausCnt : BitVec 24 := 0
  camFault : BitVec 24 := 0
  reverse : BitVec 32 := 0
  crk : CrkState := .nosync
  crkCnt : Nat := 0
  crkQ : Nat := 0
  sbS : Nat := 0
  sbN : Nat := 0
  ts : Nat := 3052
  sbAcc : Nat := 0
  xtal : Bool := true
  odo : Dbl := 0
  rem : Nat := 0
  pending : BitVec 32 := 0
  odoValid : Bool := false
  ckOdo : Dbl := 0
  ckTick : Dbl := 0
  ckAdv : Bool := false
  odoRefused : BitVec 24 := 0
deriving DecidableEq, Repr, Inhabited

/-- Standby counting and the wake request (R61, R62, R391, R464), held in the VSTBY domain. `req`: a wake request has
been raised since the last start (R378). -/
structure Wake where
  count : Nat := 0
  distReq : Bool := false
  lastTooth : Option Nat := none
  req : Bool := false
  wake : Bool := false
  cause : BitVec 3 := 0
  tick : Dbl := 0
  stbyWake : Byte := 0
  standbyRun : Bool := false
  ready : Bool := false
deriving DecidableEq, Repr, Inhabited

/-- An entry on its way from the Pilot to the ring engine (R195 to R197): its channel, its G and Q bits, and its
SAMPLE fields, one for a single-cell entry. -/
structure StreamEntry where
  ch : Nat
  g : Bool
  q : Bool
  cells : List (BitVec 16)
deriving DecidableEq, Repr, Inhabited

/-- A trigger pulse of one trigger group on the sideband (R206): its number, the PLCLK cycle and source it comes from,
the ring, and the phases of that sample. -/
structure Pulse where
  id : Nat
  at_ : Nat
  ring : Nat
  src : Nat
  tick : Dbl
  course : Dbl
  crank : Dbl
deriving DecidableEq, Repr, Inhabited

/-- The capture side of the Pilot (R190 to R206, R479). `objs` holds the objects in force by cell address and `stg`
the writes that wait for their object's first cell. `adcq` holds the inputs that wait for the converter, 0 for HOLD_SENSE
and n + 1 for channel n, and `spiDue` the slots that wait for their master, each with the PLCLK cycle of its instant;
`spiTx` are the bytes that each master's last transaction sends and `sclkIdle` the levels at which SCLK idles.
`trigPin` are the levels of the TRIG pins, `trigAt` the samples that first saw them, `trigLev` the filtered levels.
`discLast` are the levels that each discrete channel saw last, `discPend` the channels with a change not written yet, and
`discAt` the cycles of their last entries. -/
structure Capture where
  objs : Mem 24 := [(0x0F3142, 0x20), (0x0F314A, 0x20), (0x0F3150, 0x50), (0x0F3151, 0x50), (0x0F3152, 0x50), (0x0F3153, 0x50)]
  stg : Mem 25 := []
  lost : Tab (BitVec 24) 48 := Tab.fill 48 0
  gap : BitVec 48 := 0
  canErr : Tab (BitVec 24) 2 := Tab.fill 2 0
  adcq : List (Nat × Nat) := []
  spiDue : Tab (List (Nat × Nat)) 4 := Tab.fill 4 []
  spiRun : Tab (Option Nat) 4 := Tab.fill 4 none
  spiTx : Tab (List Byte) 4 := Tab.fill 4 []
  stream : List StreamEntry := []
  trigLev : BitVec 4 := 0
  trigPin : BitVec 4 := 0
  trigAt : Tab Nat 4 := Tab.fill 4 0
  thOut : BitVec 16 := 0
  thCnt : Tab Nat 16 := Tab.fill 16 0
  gpioIn : Byte := 0
  discLast : Tab (BitVec 12) 14 := Tab.fill 14 0
  discPend : BitVec 14 := 0
  discAt : Tab (Option Nat) 14 := Tab.fill 14 none
  pulses : List Pulse := []
  recs : List Pulse := []
  pulseNext : Nat := 0
  sclkIdle : BitVec 4 := 0
deriving DecidableEq, Repr, Inhabited

/-- The hold-up parameters of Table 10.3 (R274). -/
structure HoldUp where
  c : Nat := 0
  vmin : Nat := 0
  vfail : Nat := 0
  scale : Nat := 0
  eff : Nat := 0
  odoRes : Nat := 0
deriving DecidableEq, Repr, Inhabited

/-- The Damper (R274 to R280, R480): the parameters adopted, the last five HOLD_SENSE codes, newest first, the ledger,
and what the last measurement found. `rsv` is the running sum, `rsvM` that sum at the last measurement. `grid` is the PLCLK
cycle from which HOLD_SENSE is sampled (R191). -/
structure Damper where
  grid : Nat := 0
  hu : HoldUp := {}
  huValid : Bool := false
  codes : List (BitVec 16) := []
  cBist : Option Nat := none
  armed : Bool := false
  pfWarn : Bool := false
  avail : Nat := 0
  rsv : Nat := 0
  rsvM : Nat := 0
  reserve : Nat := 0
  cUsed : Nat := 0
  v : Nat := 0
deriving DecidableEq, Repr, Inhabited

/-- The TAP instructions of Table 15.3 (R403). -/
inductive TapIr where
  | extest | idcode | sample | clamp | highz | dbgChal | dbgAns | dbgAccess | bypass
deriving DecidableEq, Repr, Inhabited

/-- The OP of a debug request (Table 15.6). -/
inductive DbgOp where
  | nop | rd | rdx | wr | halt | resume | step | attach | inval
deriving DecidableEq, Repr, Inhabited

/-- The TAP and the debug transport (R402 to R411). `bnd` is what the last Update-DR of the boundary register brought,
`chalQ` the Update-DRs of DBG_CHAL and the answers of DBG_ANS that wait for a link, oldest first. The debug request
submitted last is held with its STATUS, and with the data of a completed read. -/
structure Tap where
  ir : TapIr := .idcode
  denied : Bool := false
  bnd : BitVec 73 := 0
  chalQ : List (Option (List Byte)) := []
  dbgOp : DbgOp := .nop
  dbgReq : DbgReq := {}
  dbgStat : BitVec 4 := 0
  dbgData : Option Cell := none
  rights : BitVec 5 := 0
  chalStatus : Byte := 0
deriving DecidableEq, Repr, Inhabited

/-- The header values that a log's opener brings (R225, R226) with the flags that hold at open (Table 9.2). -/
structure Hdr where
  cls : Byte := 0
  ptype : Byte := 0
  course : Dbl := 0
  crank : Dbl := 0
  tick : Dbl := 0
  odo : Dbl := 0
  flags : BitVec 16 := 0
deriving DecidableEq, Repr, Inhabited

/-- What the pilot link brings to the Pilot from the vault (R256, R342): a configuration block, an odometer value, a
scale. -/
inductive PilMsg where
  | config (cells : List Cell)
  | odo (v : Nat)
  | scale (v : Nat)
deriving DecidableEq, Repr, Inhabited

/-- The Pilot. `msgs` wait for the pilot link (R15), `logQ` are the logs of its own, header and payload, that wait for a
Pilot slot (R232). -/
structure Pilot where
  ph : Phase := {}
  wk : Wake := {}
  cap : Capture := {}
  dmp : Damper := {}
  tap : Tap := {}
  noteLost : BitVec 24 := 0
  lockups : BitVec 16 := 0
  lockupPin : Bool := true
  wakePin : Bool := true
  msgs : List PilMsg := []
  logQ : List (Hdr × List Byte) := []
deriving DecidableEq, Repr, Inhabited

end Sys2Proof.Machine
end

