-- ==== Sys2Proof/Machine/HearthState.lean ====
section
/-! DEFINITION. The state of the Hearthstone: log slots and staging, the vault with its journal, cords and seals, the
OTP array with its lanes, the key registers, the TRNG and the challenge object (chapters 09, 10, 13). The vault is held
as what its partitions mean, and as raw lines where the spec gives their layout (log entry 20). -/

namespace Sys2Proof.Machine

/-- The states of a log slot, coded as LSTAT codes them (R238). -/
inductive LState where
  | invalid | open_ | committing | admitted | durable | dropped
deriving DecidableEq, Repr, Inhabited

/-- What an Ember copy attaches to its segment (R218, R229). -/
structure CopyInfo where
  ring : Nat
  half : Bool
  crec : Bool
  shortPre : Bool := false
  trunc : Bool := false
  missed : Nat := 0
  list : List (Nat × Dbl) := []
deriving DecidableEq, Repr, Inhabited

/-- A body segment of a log (R228): an append of `n` cells from `a`, or an Ember copy. `cells` are final once `fin`; until then
`most` is the number of bytes that it can place (R237). -/
structure Seg where
  copy : Option CopyInfo := none
  a : Cell := 0
  n : Nat := 0
  upto : Nat := 0
  resv : Nat := 0
  most : Nat := 0
  cells : List Cell := []
  fin : Bool := false
deriving DecidableEq, Repr, Inhabited

/-- A thread log slot (R232 to R239). `freed` orders the slots by when they were freed, `storm` holds the overflows
while the log is open (R215). -/
structure LogSlot where
  state : LState := .invalid
  gen : Byte := 0
  core : BitVec 4 := 0
  hdr : Hdr := {}
  segs : List Seg := []
  resv : Nat := 0
  last : BitVec 4 := 0
  denied : Bool := false
  sealed : Bool := false
  seq : Dbl := 0
  freed : Nat := 0
  storm : Option (BitVec 32 × Dbl × Dbl) := none
deriving DecidableEq, Repr, Inhabited

/-- The partitions of Table 1.8, coded 0 to 6 in its order (R266). -/
inductive Partn where
  | firmware | config | odometer | sealp | journal | prot | rolling
deriving DecidableEq, Repr, Inhabited

/-- Export marks of an EQ (R319). `none`: none reached yet. -/
structure Marks where
  p : Option Nat := none
  r : Option Nat := none
  c : Option Nat := none
deriving DecidableEq, Repr, Inhabited

/-- What a vault commit writes (R261, R265 and the rule of each). -/
inductive CKind where
  /-- The log of thread slot `s` (R236). -/
  | slot (s : Nat)
  /-- A device-class log with its payload; `pilot` when the Pilot originates it (R227). -/
  | hw (h : Hdr) (payload : List Byte) (pilot : Bool)
  /-- The phase configuration record (R342). -/
  | phaseCfg (cells : List Cell)
  | cordTime (ms : Nat)
  | tokenId (id : Nat)
  /-- The record that moves the release boundary: the SEQ values freed, and the token identifier (R270, R349). -/
  | release (seqs : List Dbl) (token : Nat)
  /-- The export marks of EQ `n` (R311). -/
  | marks (n : Nat) (m : Marks)
  /-- The SVN floor of kind 0 image, 1 patch, 2 open (R187, R336). -/
  | svnFloor (kind : Nat) (svn : Nat)
  /-- The debug tries (R373). -/
  | tries (epoch left : Nat)
  /-- The image lines of a slot, false A, true B (R385). -/
  | image (b : Bool) (bytes : List Byte)
  | slotRec (b : Bool) (id svn len : Nat)
  | bundle (openKind : Bool) (bytes : List Byte)
  /-- The cord index and the seal record of a cord (R260). -/
  | index (cord : Nat)
  | sealRec (cord : Nat)
  /-- The reservation of a leaf for a cord (R249). -/
  | reserve (leaf : Nat)
  /-- The state write with which the next bottom tree becomes the current one (R251). -/
  | treeSwitch
  /-- The record that the next tree is built and its public key signed (R252). -/
  | treeReady
  /-- Tree-build progress (R252, R370). -/
  | progress (leaves : Nat)
  /-- The record of a complete key pair (R370). -/
  | keyPair
  /-- The rewrite of a line that needed correction (R272). -/
  | rewrite (line : Nat)
deriving DecidableEq, Repr, Inhabited

/-- A vault commit: its number, what it writes, its class, its lines without journal records and its cost (R277), the
Flue command it belongs to, and the SEQ it was given at admission when it is a log; the lines it goes to, fixed at its
admission (R258), whether its INTENT is written, and how many of its lines are (R262, R265). -/
structure Commit where
  id : Nat
  kind : CKind
  cls : WClass
  lines : Nat
  cost : Nat
  tag : Option Nat := none
  seq : Option Nat := none
  at_ : List Nat := []
  begun : Bool := false
  pos : Nat := 0
deriving DecidableEq, Repr

/-- A log in the vault (R258, R265): its bytes, its log hash, where it stands, and its cord once it is in one. `start`
counts the lines placed in its partition before it since the erase, `at_` are the lines it occupies, `exps` the EQs that have
exported it (R311). -/
structure VLog where
  seq : Nat
  cls : Byte
  flags : BitVec 16
  part : Partn
  start : Nat
  lines : Nat
  at_ : List Nat := []
  bytes : List Byte
  lh : List Byte
  durable : Bool := false
  slot : Option (Nat × Byte) := none
  cord : Option Nat := none
  sealed : Bool := false
  exps : List Nat := []
deriving DecidableEq, Repr, Inhabited

/-- A leaf of a cord: an entry of the cord index (R245). -/
structure Leaf where
  seq : Nat
  cls : Byte
  flags : Byte
  lh : List Byte
deriving DecidableEq, Repr, Inhabited

/-- The reasons for closing a cord, coded as the descriptor codes them (R241, R246). -/
inductive CReason where
  | full | prot | timer | recover
deriving DecidableEq, Repr, Inhabited

/-- A closed cord in the seal queue with its cord-index slot (R242, R246, R260). -/
structure Cord where
  no : Nat
  reason : CReason
  leaves : List Leaf
  tick : Dbl
  course : Dbl
  odo : Dbl
  slot : Nat := 0
  indexed : Bool := false
  released : Bool := false
deriving DecidableEq, Repr, Inhabited

/-- A seal record (R260): the cord, the seal's bytes, the index, the partition and the lines it is placed in and whether
it is durable. -/
structure VSeal where
  cord : Nat
  count : Nat
  sealBytes : List Byte
  leaves : List Leaf
  part : Partn
  start : Nat := 0
  lines : Nat := 0
  at_ : List Nat := []
  durable : Bool := false
deriving DecidableEq, Repr, Inhabited

/-- A journal record's type (R266). -/
inductive JType where
  | intent | commit | leaf | heads | torn | shutdown
deriving DecidableEq, Repr, Inhabited

/-- The head of a circular log area (R258): the lines placed in it since the erase, and the offset of the next line. -/
structure Head where
  off : Nat := 0
  pos : Nat := 0
deriving DecidableEq, Repr, Inhabited

/-- What the HEADS record keeps (R266): the heads of the circular partitions and the next SEQ, with the bytes that the next
log's PREV takes (R231). -/
structure Heads where
  odo : Head := {}
  prot : Head := {}
  roll : Head := {}
  nextSeq : Nat := 0
  prev : List Byte := []
deriving DecidableEq, Repr, Inhabited

/-- A journal record (Table 10.2) and the line of the ring it stands in. `cid` names its commit; `heads` are the fields of
a HEADS record with the line of the release boundary. -/
structure JRec where
  ty : JType
  jseq : Nat := 0
  cid : Nat := 0
  denied : Bool := false
  seq : Option Nat := none
  cls : Byte := 0
  part : Partn := .firmware
  start : Nat := 0
  len : Nat := 0
  leafIx : Nat := 0
  lh : List Byte := []
  inCord : Option Nat := none
  heads : Option (Heads × Nat) := none
  line : Nat := 0
deriving DecidableEq, Repr, Inhabited

/-- A keyed record of the CONFIG or the SEAL record store (Table 10.1): its line, its key, its order, what it says. -/
structure VRec where
  line : Nat
  key : Nat
  ord : Nat
  kind : CKind
deriving DecidableEq, Repr

/-- A firmware slot (R385): the image bytes and the slot record. -/
structure FwSlot where
  bytes : List Byte := []
  id : Nat := 0
  svn : Nat := 0
  len : Nat := 0
  wcount : Nat := 0
  valid : Bool := false
deriving DecidableEq, Repr, Inhabited

/-- The vault (chapter 10, R385). An empty vault is an erased one (log entry 16). `hd` are the heads as the admissions have
left them, `jhd` as a replay of the journal finds them, `jhd0` that without the newest record (R268). `cur` is the commit
that holds the write stream and `lineClk` the cycles since its last line (R261, R262), `sysAt` the PLCLK cycles of the
latest SYSTEM lines (R264). `goneL` and `goneS` are what the latest INTENT has made invalid (R268, R271). `raw` are
the lines of the array that hold bytes of a stated layout, as they stand in it (R259), `ueLines` those with an
uncorrectable error (R272), `secrets` the sealed fields of the SEAL record store: IV, ciphertext and tag (R259). -/
structure Vault where
  hd : Heads := {}
  jhd : Heads := {}
  jhd0 : Heads := {}
  cur : Option Nat := none
  lineClk : Nat := 0
  sysAt : List Nat := []
  raw : Mem 512 := []
  ueLines : List Nat := []
  recs : List VRec := []
  secrets : Option (List Byte × List Byte × List Byte) := none
  logs : List VLog := []
  seals : List VSeal := []
  journal : List JRec := []
  jseq : Nat := 0
  jSince : Nat := 0
  jPos : Nat := 0
  relBound : Nat := 0
  relPos : Nat := 0
  goneL : List VLog := []
  goneS : List VSeal := []
  phaseRec : Option (List Cell) := none
  cordMs : Nat := 1000
  svnImg : Nat := 0
  svnPatch : Nat := 0
  svnOpen : Nat := 0
  tokenMax : Option Nat := none
  triesRec : Option (Nat × Nat) := none
  marks : Tab Marks 4 := Tab.fill 4 {}
  slotA : FwSlot := {}
  slotB : FwSlot := {}
  patchB : List Byte := []
  openB : List Byte := []
  wait : List Commit := []
  adm : List Commit := []
  nextId : Nat := 0
  spares : Nat := 64
  bad : List Nat := []
  retiring : List Nat := []
  wear : Mem 40 := []
  spareCyc : Nat := 0
  torn : BitVec 24 := 0
  ue : BitVec 24 := 0
  unclean : Bool := false
  fault : Bool := false
deriving DecidableEq, Repr

/-- How far the sealing of the cord at the head of the queue has come (R249). -/
inductive SealPhase where
  | idle | reserving (leaf : Nat) | reserved (leaf : Nat)
deriving DecidableEq, Repr, Inhabited

/-- The Seal engine, cords and signing state (chapter 09, R370). `recov` are the leaves that RECOVER cords still have to
take up; `timer` is the PLCLK cycle in which the cord timer started (R241); cords numbered below `recBound`
were queued at the last recovery and are sealed first (R243). -/
structure SealSt where
  openCord : List Leaf := []
  due : Option CReason := none
  timer : Option Nat := none
  waiting : List Leaf := []
  recov : List Leaf := []
  recBound : Nat := 0
  queue : List Cord := []
  nextCord : Nat := 0
  run : SealPhase := .idle
  keyDone : Bool := false
  keyRun : Bool := false
  w8 : Bool := false
  topSeed : List Byte := []
  topI : List Byte := []
  ck : List Byte := []
  seed : List Byte := []
  i : List Byte := []
  seedN : List Byte := []
  iN : List Byte := []
  tree : Nat := 0
  nextLeaf : Nat := 0
  nextReady : Bool := false
  building : Bool := false
  built : Nat := 0
  stopped : Bool := false
  curPub : List Byte := []
  nextPub : List Byte := []
  curTopSig : List Byte := []
  nextTopSig : List Byte := []
  pub : List Byte := []
deriving DecidableEq, Repr, Inhabited

/-- The OTP array at normal and at strict margin, raw words of 39 bits by array address (R354, R357 to R360), and the
FUSE_CMD registers (R466). `busy` is the command that runs: the result, cause and FUSE_DATA that it will end with;
`genWait` a GENERATE that waits for the TRNG (R375). -/
structure Otp where
  norm : Mem 39 := []
  strict : Mem 39 := []
  cmdRegion : BitVec 4 := 0
  cmdWord : BitVec 5 := 0
  data : BitVec 32 := 0
  busy : Option (Nat × Nat × Nat) := none
  genWait : Option FuseShot := none
  result : BitVec 3 := 0
  cause : BitVec 3 := 0
  valid : Bool := false
  marginal : Nat := 0
  lowest : Nat := 0
  done : Bool := false
deriving DecidableEq, Repr, Inhabited

/-- A fuse lane user (R361, R362): the last good frame seen and the payload held with its GEN. -/
structure LaneUser where
  lastGood : Option (Byte × List (BitVec 32)) := none
  held : Option (Byte × List (BitVec 32)) := none
deriving DecidableEq, Repr, Inhabited

/-- The fuse lanes: GEN and the payload as the OTP controller sends them, what each user holds, and the words that do not
change in run: core-disable mask and Firebox trims, Pilot trims (R362). A trim that is `none`, or in an empty list, is at
mid-scale (R361). -/
structure Lanes where
  genF : Byte := 0
  genP : Byte := 0
  sentF : List (BitVec 32) := []
  sentP : List (BitVec 32) := []
  f : LaneUser := {}
  p : LaneUser := {}
  coreMask : Option (BitVec 16) := none
  fTrims : List (Option (BitVec 32)) := []
  pTrims : List (Option (BitVec 32)) := []
deriving DecidableEq, Repr, Inhabited

/-- The TRNG (R374, R375): its output FIFO of 256-bit entries, oldest first. `since` is the PLCLK cycle of its last startup
test. -/
structure Trng where
  fifo : List (List Byte) := []
  started : Bool := false
  latched : Bool := false
  fails : Nat := 0
  since : Nat := 0
deriving DecidableEq, Repr, Inhabited

/-- The key registers (R369): valid or cleared, and the four keys. -/
structure Keys where
  valid : Bool := false
  vault : List Byte := []
  sealKey : List Byte := []
  patchKey : List Byte := []
  openKey : List Byte := []
deriving DecidableEq, Repr, Inhabited

/-- How far a judgement of the debug challenge has come (R373): the answer bytes, the nonce that it answers, its transport,
its Flue tag, and whether the try is durable and the verdict is logged. -/
structure Judging where
  bytes : List Byte
  nonce : List Byte
  tap : Bool
  tag : Option Nat
  tryDone : Bool := false
  verdict : Option Byte := none
deriving DecidableEq, Repr, Inhabited

/-- The challenge object (R371 to R373). `at_` is the TICK at which the nonce was drawn. -/
structure Chal where
  nonce : Option (List Byte) := none
  at_ : Dbl := 0
  judging : Option Judging := none
  waitGet : List (Option Nat) := []
  unlocked : Bool := false
  rightsGiven : BitVec 8 := 0
deriving DecidableEq, Repr, Inhabited

/-- A life-cycle transition under way (R366): the states from and to, the number of the thermometer bit, the Flue tag,
whether its log is written and durable, and the fuse bits still to be set, by array address, once step 4 has begun. -/
structure LifeRun where
  src : Nat
  dst : Nat
  tag : Nat
  logged : Bool
  logSeq : Option Nat := none
  waitSeal : Bool := false
  ready : Bool := false
  shots : Option (List (Nat × Nat)) := none
deriving DecidableEq, Repr, Inhabited

/-- The Hearthstone. -/
structure Hearth where
  slots : Tab LogSlot 64 := Tab.fill 64 {}
  freeCount : Nat := 0
  vault : Vault := {}
  se : SealSt := {}
  otp : Otp := {}
  lanes : Lanes := {}
  trng : Trng := {}
  keys : Keys := {}
  chal : Chal := {}
  life : Option LifeRun := none
deriving DecidableEq, Repr

end Sys2Proof.Machine
end

