-- ==== Sys2Proof/Machine/FlueState.lean ====
section
/-! DEFINITION. The state of the Flue: rings, pages, polling, MSI-X, commands fetched and running, export queues, and
the host-memory writes and messages it has issued (chapters 11, 12, 18). Every default is the value after a HOST, WARM
or COLD reset. -/

namespace Sys2Proof.Machine

/-- What the Flue has sent to the host (R288, R304, R321): a posted write, an MSI-X message by its vector, a PME
message. -/
inductive HostOut where
  | write (addr : BitVec 64) (data : List Byte)
  | msix (vec : Nat)
  | pme
deriving DecidableEq, Repr, Inhabited

/-- A fetched descriptor (R323). `ord` numbers the fetched commands of its SQ. -/
structure Desc where
  bytes : List Byte
  ord : Nat
deriving DecidableEq, Repr, Inhabited

/-- A submission ring (R289 to R291, R303, R468). `rd` is the burst being read: its first index, its count, and
whether it is the retry (R307), which waits for traffic to be allowed while `rdHeld` (R286). `begun` are the numbers of the commands begun and not completed. -/
structure SqRing where
  base : BitVec 64 := 0
  en : Bool := false
  size : BitVec 4 := 4
  cq : BitVec 4 := 0
  stopped : Bool := false
  stopping : Bool := false
  cfgerr : BitVec 4 := 0
  head : BitVec 16 := 0
  tail : BitVec 16 := 0
  err : Bool := false
  rd : Option (BitVec 16 × Nat × Bool) := none
  rdHeld : Bool := false
  fetched : List Desc := []
  begun : List Nat := []
  nextOrd : Nat := 0
deriving DecidableEq, Repr, Inhabited

/-- A completion ring (R302 to R304, R468). `since` are the entries that no message has announced, `first` the TICK of the
first of them. -/
structure CqRing where
  base : BitVec 64 := 0
  en : Bool := false
  size : BitVec 4 := 4
  vec : BitVec 4 := 0
  coalCnt : BitVec 8 := 0
  coalTime : BitVec 10 := 0
  cfgerr : BitVec 4 := 0
  head : BitVec 16 := 0
  tail : BitVec 16 := 0
  err : Bool := false
  since : Nat := 0
  first : Dbl := 0
deriving DecidableEq, Repr, Inhabited

/-- An export item (R309): a log by SEQ, a protected log with the seal record of its cord, a seal record alone. -/
inductive Item where
  | log (seq : Nat)
  | pair (seq cord : Nat)
  | sealRec (cord : Nat)
deriving DecidableEq, Repr, Inhabited

/-- A log or a seal record as an export reads it (R310, Table 11.8); `plain` unless it is, or seals, a protected log. -/
structure ExpPart where
  isSeal : Bool
  plain : Bool
  val : Nat
  cls : Byte := 0
  flags : BitVec 16 := 0
  bytes : List Byte
deriving DecidableEq, Repr, Inhabited

/-- The item that an EQ is exporting (R308 to R310): what it reads, the first BQ entry and the number it takes, the writes of
its data still to come once the entries are fetched (`rd`), and whether their read is the retry (R307), which waits for
traffic to be allowed while `held` (R286). -/
structure ExpRun where
  item : Item
  prot : Bool
  parts : List ExpPart
  need : Nat
  first : BitVec 16
  data : List (BitVec 64 × List Byte) := []
  rd : Bool := false
  retry : Bool := false
  held : Bool := false
deriving DecidableEq, Repr, Inhabited

/-- An exported record that the host has not yet acknowledged (R311). -/
structure ExpRec where
  idx : BitVec 16
  prot : Bool
  isSeal : Bool
  val : Nat
deriving DecidableEq, Repr, Inhabited

/-- An export ring with its buffer ring (R305 to R312, R319, R468). `acked` are the items acknowledged or gone, for the
marks. -/
structure EqRing where
  base : BitVec 64 := 0
  en : Bool := false
  size : BitVec 4 := 4
  vec : BitVec 4 := 0
  coalCnt : BitVec 8 := 0
  coalTime : BitVec 10 := 0
  cfgerr : BitVec 4 := 0
  sel : BitVec 4 := 0
  stopped : Bool := false
  stopping : Bool := false
  bqBase : BitVec 64 := 0
  bqSize : BitVec 4 := 4
  bufLog : BitVec 5 := 9
  head : BitVec 16 := 0
  tail : BitVec 16 := 0
  bqHead : BitVec 16 := 0
  bqTail : BitVec 16 := 0
  err : Bool := false
  bqErr : Bool := false
  since : Nat := 0
  first : Dbl := 0
  protQ : List Item := []
  rollQ : List Item := []
  run : Option ExpRun := none
  recs : List ExpRec := []
  lost : BitVec 16 := 0
  rollLost : BitVec 32 := 0
  acked : List (Bool × Bool × Nat) := []
  sealsDone : List Nat := []
  marks : Marks := {}
deriving DecidableEq, Repr, Inhabited

/-- The polling schedule (R296 to R299, R467). -/
structure Poll where
  en : Bool := false
  act : Byte := 2
  idle : BitVec 16 := 1024
  empty : BitVec 16 := 1000
  idleMode : Bool := false
  count : Nat := 0
  fails : Nat := 0
  target : Dbl := 0
  reading : Bool := false
  prev : Option (List Byte) := none
  halt : Bool := false
deriving DecidableEq, Repr, Inhabited

/-- An MSI-X table entry (R304). -/
structure MsixEntry where
  lo : BitVec 32 := 0
  hi : BitVec 32 := 0
  data : BitVec 32 := 0
  ctl : BitVec 32 := 1
deriving DecidableEq, Repr, Inhabited

/-- What a running command still has to do besides its vault writes. -/
inductive RunKind where
  | plain
  /-- THREAD_STOP of a core with the threads named (R339); `asked`: the stops have been requested. -/
  | threadStop (core mask : Nat) (asked : Bool)
  /-- THREAD_START that waits for its turn on the core (R327) or for work its thread left in flight (R137). -/
  | threadStart (core thread mode pc : Nat)
  /-- THREAD_QUERY that waits for its turn on the core (R327). -/
  | threadQuery (core : Nat)
  /-- CORE_RESET, until its reinstall ends (R340). `began`: it has swept the core (R166, R383). -/
  | coreReset (core : Nat) (began : Bool)
  /-- A command whose traffic waits for the retrain of its link (R15): its descriptor and input. -/
  | onLink (d : Desc) (buf : List Byte)
  | setFclk (prev n : Nat)
  | emberOff (ring : Nat)
  /-- IMAGE_LOAD or BUNDLE_LOAD until its verification ends (R335, R337). -/
  | image (target : Nat) (bytes : List Byte)
  | bundle (bytes : List Byte)
  /-- IMAGE_LOAD RUN whose writes wait for the lock lines that cores hold (R113). -/
  | imageWait (bytes : List Byte)
  /-- IMAGE_LOAD RUN that waits for the record of its SVN: the image's IMAGE_ID and thread entries (R336). -/
  | imageRun (id : BitVec 32) (threads : List (List Byte))
  /-- SERVICE with its action (R349). -/
  | service (action : Nat)
  /-- PROTECTED_RELEASE after its marks are recorded: reason, token identifier, PARAM (R349). -/
  | relStage (reason token param : Nat)
  | bist (mask : Nat) (dptr : BitVec 64) (dlen : Nat)
  | challenge
  | chalGet (dptr : BitVec 64)
  /-- RANDOM with `done` of its bytes written (R350, R374). -/
  | random (dptr : BitVec 64) (dlen done : Nat)
  | lifecycle
deriving DecidableEq, Repr, Inhabited

/-- A command begun and not completed (R327): its tag, ring, CID, number in its ring, opcode, the vault writes still to
submit, and the status and result it completes with. -/
structure Run where
  tag : Nat
  sq : Nat
  cid : BitVec 16
  ord : Nat
  op : Byte
  kind : RunKind := .plain
  todo : List CKind := []
  out : Nat := 0
  status : Byte := 0
  result : List Byte := []
deriving DecidableEq, Repr, Inhabited

/-- The Flue. `out` is what it has sent to the host, `held` what waits for Bus Master Enable and D0 (R286, R321).
`lowStage` are lower dwords of 64-bit fields, by offset, that wait for their upper ones (R462). -/
structure Flue where
  lowStage : List (Nat × BitVec 32) := []
  dbAddr : BitVec 64 := 0
  shAddr : BitVec 64 := 0
  evtVec : BitVec 4 := 0
  poll : Poll := {}
  sqs : Tab SqRing 16 := Tab.fill 16 {}
  cqs : Tab CqRing 16 := Tab.fill 16 {}
  eqs : Tab EqRing 4 := Tab.fill 4 {}
  rrSq : Nat := 15
  rrEq : Nat := 3
  sgen : BitVec 32 := 0
  gecho : BitVec 32 := 0
  evcnt : BitVec 32 := 0
  pdenied : BitVec 16 := 0
  shadowDirty : Bool := false
  msixWait : List Nat := []
  msix : Tab MsixEntry 16 := Tab.fill 16 {}
  pend : BitVec 16 := 0
  bme : Bool := false
  d3hot : Bool := false
  pmeEn : Bool := false
  l1 : Bool := false
  linkReady : Bool := false
  lastDstate : BitVec 22 := 0
  runs : List Run := []
  nextTag : Nat := 0
  stats : Tab Dbl 5 := Tab.fill 5 0
  markTick : Option Dbl := none
  held : List HostOut := []
  out : List HostOut := []
deriving DecidableEq, Repr, Inhabited

end Sys2Proof.Machine
end

