-- ==== Sys2Proof/Machine/State.lean ====
section
/-! DEFINITION. The state of the MX316, the state after reset, and the ways in which a step can stop. -/

namespace Sys2Proof.Machine

/-- The phases of the device's life (R377, R281, R389): unpowered VSTBY, a start under way, running, the power-fail
sequence, VAULT_SAFE, standby. -/
inductive Life where
  | off | starting | running | pfail | vaultSafe | standby
deriving DecidableEq, Repr, Inhabited

/-- The kinds of a start (R377, R381). -/
inductive SKind where
  | cold | warm | host
deriving DecidableEq, Repr, Inhabited

/-- The start steps of Table 14.1 that are done (R377), and what was decided on the way. -/
structure Start where
  kind : SKind := .cold
  s1 : Bool := false
  s2 : Bool := false
  s3 : Bool := false
  s4 : Bool := false
  s5 : Bool := false
  s6 : Bool := false
  s7 : Bool := false
  s8 : Bool := false
  s9 : Bool := false
  s11 : Bool := false
deriving DecidableEq, Repr, Inhabited

/-- Supplies, resets and temperatures (R376 to R392, R456, R464). `hostWait` is a HOST reset that waits for admitted
commits (R267) or for VAULT_SAFE (R281), `warmWait` a WARM start that waits for VAULT_SAFE; `plan` the step of a planned entry (R390). -/
structure Power where
  vstby : Bool := true
  rails : Bool := true
  everRails : Bool := true
  vddioA : Bool := true
  vddioB : Bool := true
  perst : Bool := false
  life : Life := .starting
  start : Start := {}
  hostWait : Bool := false
  warmWait : Bool := false
  plan : Option Nat := none
  bootSrc : Byte := 0xFF
  statA : Byte := 0xFF
  statB : Byte := 0xFF
  ignored : Byte := 0
  temp : Tab Byte 3 := Tab.fill 3 25
  warn : BitVec 3 := 0
  throt : BitVec 3 := 0
  throttle : BitVec 24 := 0
deriving DecidableEq, Repr, Inhabited

/-- The running image (R330, R334, R336) and the bundles of the last start (R189). -/
structure Image where
  valid : Bool := false
  id : BitVec 32 := 0
  source : Byte := 0xFF
  threads : List (List Byte) := []
  runLoad : Bool := false
  instPatch : List Byte := []
  instOpen : List Byte := []
deriving DecidableEq, Repr, Inhabited

/-- The sums of a least-squares fit (R399). -/
structure Fit where
  n : Nat := 0
  sx : Nat := 0
  sy : Nat := 0
  sxx : Nat := 0
  sxy : Nat := 0
deriving DecidableEq, Repr, Inhabited

/-- BIST_RUN under way (R394 to R401): the items still to run, the first of them running since PLCLK cycle `start`; the
two fits of item 21; the cores it tests; the first 16 bytes of the report; the masks of the items that failed or were not
run; the records so far, by item. -/
structure Bist where
  items : List Nat := []
  start : Nat := 0
  fitA : Fit := {}
  fitB : Fit := {}
  cores : BitVec 16 := 0
  head : List Byte := []
  failed : BitVec 32 := 0
  notRun : BitVec 32 := 0
  recs : List (Nat × List Byte) := []
deriving DecidableEq, Repr, Inhabited

/-- The MX316 as a block: the queue of the commands that wait, the counter at which free values are drawn (log entry
2), and everything the spec gives the device. -/
structure State where
  pending : List Instr := []
  free : Nat := 0
  pw : Power := {}
  cores : Tab Core 16 := Tab.fill 16 {}
  fb : Fire := {}
  pil : Pilot := {}
  hs : Hearth := {}
  fl : Flue := {}
  img : Image := {}
  bist : Bist := {}
deriving DecidableEq, Repr

/-- The ways in which a command can fault: none. Every trap, fault and lockup that the spec describes is a next state,
and no address the model accesses is one the spec says does not exist. Nobody raises it; safe. -/
inductive Fault where
deriving DecidableEq, Repr

/-- The ways in which a command can be refused. -/
inductive Refusal where
  /-- The command's meaning is not written yet; raised by its arm of `exec` alone; safe. -/
  | notModelled (mnemonic : String)
deriving DecidableEq, Repr

/-- The MX316 right after a COLD reset has been raised, with its supplies in range: the start is at S1 (R377, R381).
Supplies, pins and the erased vault are log entries 14 and 16. -/
def State.reset : State := {}

end Sys2Proof.Machine
end

