-- ==== Sys2Proof/Machine/Ops.lean ====
section
/-! DEFINITION. The named operations over the state that every family shares: cores and threads, event bits, free
values, the live device status and device events. -/

namespace Sys2Proof.Machine

/-- A result: every command of the model answers a next state. -/
abbrev Answer := Host.Outcome State Fault Refusal

/-- Core `c`. -/
def State.core (s : State) (c : CoreId) : Core := s.cores.get c.toNat
/-- The state with core `c` changed by `f`. -/
def State.modCore (s : State) (c : CoreId) (f : Core → Core) : State :=
  { s with cores := s.cores.modify c.toNat f }
/-- Thread `t` of core `c`. -/
def State.th (s : State) (c : CoreId) (t : ThId) : Thread := (s.core c).th.get t.toNat
/-- A core with thread `t` changed by `f`. -/
def Core.modTh (k : Core) (t : ThId) (f : Thread → Thread) : Core := { k with th := k.th.modify t.toNat f }
/-- A core with every thread changed by `f`. -/
def Core.mapTh (k : Core) (f : Thread → Thread) : Core := { k with th := k.th.map f }
/-- The state with thread `t` of core `c` changed by `f`. -/
def State.modTh (s : State) (c : CoreId) (t : ThId) (f : Thread → Thread) : State :=
  s.modCore c (fun k => k.modTh t f)
/-- The state with the shared part of the Firebox changed. -/
def State.modFb (s : State) (f : Fire → Fire) : State := { s with fb := f s.fb }
/-- The state with the Pilot's timebase changed. -/
def State.modPh (s : State) (f : Phase → Phase) : State := { s with pil := { s.pil with ph := f s.pil.ph } }
/-- The state with the Pilot's wake logic changed. -/
def State.modWk (s : State) (f : Wake → Wake) : State := { s with pil := { s.pil with wk := f s.pil.wk } }
/-- The state with the capture side of the Pilot changed. -/
def State.modCap (s : State) (f : Capture → Capture) : State := { s with pil := { s.pil with cap := f s.pil.cap } }
/-- The state with the Damper changed. -/
def State.modDmp (s : State) (f : Damper → Damper) : State := { s with pil := { s.pil with dmp := f s.pil.dmp } }
/-- The state with the Hearthstone changed. -/
def State.modHs (s : State) (f : Hearth → Hearth) : State := { s with hs := f s.hs }
/-- The state with the vault changed. -/
def State.modVault (s : State) (f : Vault → Vault) : State := s.modHs (fun h => { h with vault := f h.vault })
/-- The state with the Seal engine changed. -/
def State.modSeal (s : State) (f : SealSt → SealSt) : State := s.modHs (fun h => { h with se := f h.se })
/-- The state with log slot `i` changed. -/
def State.modSlot (s : State) (i : Nat) (f : LogSlot → LogSlot) : State :=
  s.modHs (fun h => { h with slots := h.slots.modify i f })
/-- The state with the Flue changed. -/
def State.modFl (s : State) (f : Flue → Flue) : State := { s with fl := f s.fl }
/-- The state with ring `r` changed. -/
def State.modRing (s : State) (r : Nat) (f : EmRing → EmRing) : State :=
  s.modFb (fun b => { b with rings := b.rings.modify r f })
/-- The state with the supplies and resets changed. -/
def State.modPw (s : State) (f : Power → Power) : State := { s with pw := f s.pw }
/-- The state with the TAP changed. -/
def State.modTap (s : State) (f : Tap → Tap) : State := { s with pil := { s.pil with tap := f s.pil.tap } }
/-- One draw of the free-value counter (log entry 2). -/
def State.draw (s : State) : State := { s with free := s.free + 1 }

/-- The event bit at bit address `a`, 0x1000 to 0x13FF, as every core's copy shows it (R22, R79). -/
def State.evBit (s : State) (a : Nat) : Bool := s.fb.ev.getLsbD (a - 0x1000)
/-- The event bits that R22 assigns. -/
def evAssigned (a : Nat) : Bool :=
  (decide (0x1000 ≤ a) && decide (a ≤ 0x1047)) || (decide (0x1080 ≤ a) && decide (a ≤ 0x10D3)) ||
  (decide (0x1100 ≤ a) && decide (a ≤ 0x1181))
/-- The hardware sets or clears event bit `a`; an unassigned one is never set (R22). -/
def State.putEv (s : State) (a : Nat) (b : Bool) : State :=
  s.modFb (fun f => { f with ev := setBit f.ev (a - 0x1000) (b && evAssigned a) })
/-- The hardware sets event bit `a`. -/
def State.setEv (s : State) (a : Nat) : State := s.putEv a true

/-- The class of a protected log (R227). -/
def closesCord (cls : Nat) : Bool := (decide (0x40 ≤ cls) && decide (cls ≤ 0x7F)) || (decide (0x82 ≤ cls) && decide (cls ≤ 0x86))

/-- Staging units that a thread log holds (R232): its reservations, at least 64 KiB for a protected log. -/
def LogSlot.units (l : LogSlot) : Nat :=
  match l.state with
  | .open_ | .committing | .admitted =>
    let need := (l.resv + 2047) / 2048
    if closesCord l.hdr.cls.toNat then max need 32 else need
  | _ => 0
/-- The cores that are locked up, bit n for core n. -/
def State.lockedCores (s : State) : BitVec 16 :=
  BitVec.ofFnLE (fun i : Fin 16 => (s.cores.get i.val).lockup.isSome)

/-- The DSTATE bits, live (R294, Table 11.5). -/
def State.dstate (s : State) : BitVec 22 :=
  BitVec.ofNat 22 (s.lockedCores.toNat + 2 ^ 16 * b2n s.hs.vault.unclean + 2 ^ 17 * b2n s.hs.vault.fault +
    2 ^ 18 * b2n s.fb.hearth.down + 2 ^ 19 * b2n s.fb.plink.down + 2 ^ 20 * b2n s.hs.se.stopped +
    2 ^ 21 * b2n s.fl.poll.halt)

/-- The Flue goes to the active polling interval (R298). -/
def goActive (f : Flue) (tick : Dbl) : Flue :=
  { f with poll := { f.poll with idleMode := false, count := 0,
                                 target := tick + (BitVec.ofNat 48 f.poll.act.toNat) } }

/-- A device event (R313): EVCNT, a shadow write, the event vector after it, the active polling interval (R298), and a
PME message in D3hot while PME_En is set (R321). -/
def State.deviceEvent (s : State) : State :=
  s.modFl (fun f =>
    let g := goActive f s.fb.mir.tick
    { g with evcnt := f.evcnt + 1, shadowDirty := true, msixWait := f.msixWait ++ [f.evtVec.toNat],
             out := if f.d3hot && f.pmeEn then f.out ++ [.pme] else f.out })

/-- A change of a DSTATE bit is a device event (R313). -/
def State.syncDstate (s : State) : State :=
  if s.dstate = s.fl.lastDstate then s
  else (s.modFl (fun f => { f with lastDstate := s.dstate })).deviceEvent

/-- The cores run: the boot ROM or the image may issue (R377, R281, R384). -/
def State.coresRun (s : State) : Bool :=
  match s.pw.life with
  | .running => s.fb.relock.isNone
  | .starting => s.pw.start.s4 && s.pw.start.s5 && s.fb.relock.isNone
  | _ => false

/-- FCLK runs: it is gated in a relock and from a power-fail warning on (R281, R424). -/
def State.fclkOn (s : State) : Bool :=
  (s.pw.life = .running || s.pw.life = .starting) && s.fb.relock.isNone

/-- An image runs: its IMAGE_ID, its source and its thread entries (R330, R336). -/
def Image.running (m : Image) (id : BitVec 32) (source : Nat) (threads : List (List Byte)) : Image :=
  { m with valid := true, id := id, source := BitVec.ofNat 8 source, threads := threads, runLoad := false }

/-- Core `c` is enabled: the core-disable mask of lane F is adopted and leaves it in (R361, R363). -/
def State.coreEnabled (s : State) (c : CoreId) : Bool :=
  match s.hs.lanes.coreMask with
  | some m => !m.getLsbD c.toNat
  | none => false

/-- The lowest enabled core, on which the boot thread runs (R384). -/
def State.bootCore (s : State) : Option Nat := firstIdx (fun i => s.coreEnabled (BitVec.ofNat 4 i)) 16

/-- The boot ROM's work is over, or ends with no image: the device runs (R384, R386, Table 14.7). -/
def State.bootEnds (s : State) : State :=
  { (s.modPw (fun p => { p with life := .running, start := { p.start with s9 := true } })) with
    pil := { s.pil with wakePin := true } }

/-- PLCLK runs (R377, R389): from the end of S1 until standby. -/
def State.plclk (s : State) : Bool :=
  match s.pw.life with
  | .running | .pfail | .vaultSafe | .starting => s.pw.start.s1
  | .standby | .off => false

/-- The Firebox is powered and out of reset. -/
def State.fireOn (s : State) : Bool :=
  match s.pw.life with
  | .running => true
  | .starting => s.pw.start.s2
  | _ => false

/-- The pilot link carries traffic now (R14, R15). -/
def State.plinkUp (s : State) : Bool := !s.fb.plink.down && !s.fb.plink.training
/-- The hearth link carries traffic now. -/
def State.hearthUp (s : State) : Bool := !s.fb.hearth.down && !s.fb.hearth.training

end Sys2Proof.Machine
end

