-- ==== Sys2Proof/Machine/DevMap.lean ====
section
/-! DEFINITION. The cell space (Table 1.6), its access checks (R106), the device cell map and the kinds of access that
each device cell takes (R470, R471, Tables 18.7 to 18.18). -/

namespace Sys2Proof.Machine

/-- The classes of the cell space (Tables 1.6 and 3.5). -/
inductive Region where
  | local_ | shared | ember | devF | devP | devH | bad
deriving DecidableEq, Repr

/-- The region of cell address `a`; an address with bits [23:22] set is bad (R106). -/
def region (a : Nat) : Region :=
  if a < 0x4000 then .local_
  else if a < 0x0F0000 then .bad
  else if a < 0x0F3000 then .devF
  else if a < 0x0F4000 then .devP
  else if a < 0x0F5000 then .devH
  else if a < 0x100000 then .devF
  else if a < 0x200000 then .shared
  else if a < 0x400000 then .ember
  else .bad

/-- `a` is a device cell address. -/
def isDev (a : Nat) : Bool := decide (0x0F0000 ≤ a) && decide (a < 0x100000)

/-- What a device cell accepts (R470): one-cell accesses; the low or high half of a D pair; a pair that only LD2
reads; nothing, for it is not named. -/
inductive DevKind where
  | one | pair | pairHi | ld2 | none
deriving DecidableEq, Repr

/-- A D pair that starts at `b`. -/
def pairAt (b a : Nat) : Option DevKind :=
  if a = b then some .pair else if a = b + 1 then some .pairHi else none

/-- A run of one-cell addresses. -/
def onesIn (lo n a : Nat) : Option DevKind := if lo ≤ a ∧ a < lo + n then some .one else none

/-- The kind of offset `o` in the core region (Table 18.9). -/
def coreKind (o : Nat) : DevKind :=
  if o < 0x80 then (if o % 16 < 8 then .one else .none)
  else if o < 0xC0 then .one
  else if o < 0xE0 then (if o % 4 < 3 then .one else .none)
  else if o = 0xE0 ∨ o = 0xE1 ∨ o = 0xE8 then .one
  else if o = 0xE2 ∨ o = 0xE4 ∨ o = 0xE6 then .ld2
  else if 0x100 ≤ o ∧ o < 0x124 then .one
  else .none

/-- The kind of offset `o` in a ring's cells (Table 18.12). -/
def ringKind (o : Nat) : DevKind :=
  if o < 7 then .one
  else if 8 ≤ o ∧ o < 0x1C then .one
  else if 0x1C ≤ o ∧ o < 0x22 then (if o % 2 = 0 then .pair else .pairHi)
  else if o = 0x22 ∨ o = 0x23 then .one
  else if 0x40 ≤ o ∧ o < 0x60 then
    (if o % 4 = 0 then .one else if o % 4 = 2 then .pair else if o % 4 = 3 then .pairHi else .none)
  else if o = 0x60 then .one
  else .none

/-- The kind of offset `o` in the Pilot cells, from 0x0F3000 (Tables 18.14 to 18.16). -/
def pilotKind (o : Nat) : DevKind :=
  if o < 0x70 then .one
  else if 0x80 ≤ o ∧ o < 0x150 then (if o % 8 < 7 then .one else .none)
  else if 0x150 ≤ o ∧ o < 0x154 then .one
  else if 0x160 ≤ o ∧ o < 0x1A0 then (if o % 4 < 3 then .one else .none)
  else if 0x1A0 ≤ o ∧ o < 0x1E0 then (if o % 8 < 5 then .one else .none)
  else if 0x1E0 ≤ o ∧ o < 0x1E3 then .one
  else if 0x200 ≤ o ∧ o < 0x207 then .one
  else if 0x300 ≤ o ∧ o < 0x308 then .one
  else if o = 0x308 ∨ o = 0x344 then .pair
  else if o = 0x309 ∨ o = 0x345 then .pairHi
  else if 0x310 ≤ o ∧ o < 0x344 then .one
  else .none

/-- The kind of device cell `a` (Tables 18.9 to 18.18). -/
def devKind (a : Nat) : DevKind :=
  if a < 0x0F1000 then coreKind (a - 0x0F0000)
  else if a < 0x0F1006 then (if a % 2 = 0 then .pair else .pairHi)
  else if a < 0x0F1008 then .one
  else if a < 0x0F100A then (if a % 2 = 0 then .pair else .pairHi)
  else if 0x0F1100 ≤ a ∧ a < 0x0F1300 then
    (if a % 8 = 0 then .one else if a % 8 = 2 ∨ a % 8 = 4 then .pair else if a % 8 = 3 ∨ a % 8 = 5 then .pairHi else .none)
  else if 0x0F2000 ≤ a ∧ a < 0x0F2800 then ringKind (a % 0x80)
  else if 0x0F3000 ≤ a ∧ a < 0x0F4000 then pilotKind (a - 0x0F3000)
  else if 0x0F4000 ≤ a ∧ a < 0x0F4006 then (if a % 2 = 0 then .pair else .pairHi)
  else if a = 0x0F4006 then .one
  else if 0x0F4008 ≤ a ∧ a < 0x0F400C then .one
  else if a = 0x0F400C then .pair
  else if a = 0x0F400D then .pairHi
  else if a = 0x0F4010 ∨ a = 0x0F4011 then .one
  else if 0x0F5000 ≤ a ∧ a < 0x0F5003 then .one
  else if 0x0F5010 ≤ a ∧ a < 0x0F5014 then .one
  else .none

/-- The kinds of data access (R105, R106). -/
inductive Acc where
  | cell | tine | dbl
deriving DecidableEq, Repr

/-- A device cell refuses an access (R470): unnamed, of the wrong kind, or across a link that is down. -/
def devBad (s : State) (a : Nat) (k : Acc) (store : Bool) : Bool :=
  (match devKind a, k with
    | .one, .cell => false
    | .pair, .cell | .pairHi, .cell => store
    | .pair, .dbl => false
    | .ld2, .dbl => store
    | _, _ => true) ||
  (match region a with
    | .devP => s.fb.plink.down
    | .devH => s.fb.hearth.down
    | _ => false)

/-- The X1 checks of a data access of a thread at M level or U level (R105, R106, R158): the fault, if one applies,
highest first. `a` is the cell address as formed. -/
def accFault (s : State) (mlvl : Bool) (a : Nat) (k : Acc) (store : Bool) : Option FClass :=
  if isDev a && !mlvl then some .priv
  else if k = .dbl && a % 2 = 1 then some .misalign
  else
    match region a with
    | .bad => some .buserr
    | .ember => if store then some .buserr else none
    | .devF | .devP | .devH => if devBad s a k store then some .buserr else none
    | .local_ | .shared => none

/-- The cell address that a tine address names (R106). -/
def tineCell (ta : Cell) : Nat := ta.toNat / 2

/-- The X1 checks of a tine access: bit 23 must be 0, then as for a cell address (R106). -/
def tineFault (s : State) (mlvl : Bool) (ta : Cell) (store : Bool) : Option FClass :=
  if ta.getLsbD 23 then some .buserr else accFault s mlvl (tineCell ta) .tine store

end Sys2Proof.Machine
end

