-- ==== Sys2Proof/Machine/MemOps.lean ====
section
/-! DEFINITION. Cell memories, the store buffer and its overlap rules, lock lines and memory slots (R80 to R85,
R113 to R116). -/

namespace Sys2Proof.Machine

/-- The cell at `a` in the memories of core `c`; a device cell or an unmapped address reads 0 here. -/
def State.cellMem (s : State) (c : CoreId) (a : Nat) : Cell :=
  match region a with
  | .local_ => memRead (s.core c).lmem a
  | .shared => memRead s.fb.shared a
  | .ember => memRead s.fb.ember a
  | _ => 0

/-- A write of the cell at `a` in local memory of core `c` or in shared memory. -/
def State.putCellMem (s : State) (c : CoreId) (a : Nat) (v : Cell) : State :=
  match region a with
  | .local_ => s.modCore c (fun k => { k with lmem := memWrite k.lmem a v })
  | .shared => s.modFb (fun f => { f with shared := memWrite f.shared a v })
  | _ => s

/-- Cells written upward from `a`. -/
def State.putCellsMem (s : State) (c : CoreId) (a : Nat) : List Cell → State
  | [] => s
  | v :: r => (s.putCellMem c a v).putCellsMem c (a + 1) r

/-- Cells read upward from `a`. -/
def State.cellsMem (s : State) (c : CoreId) (a : Nat) : Nat → List Cell
  | 0 => []
  | n + 1 => s.cellMem c a :: s.cellsMem c (a + 1) n

/-- The first bit of an access in the cell space, and the bits it covers (R82). -/
def spanOf (a : Nat) : SSize → Nat × Nat
  | .tine h => (24 * a + 12 * b2n h, 12)
  | .cell => (24 * a, 24)
  | .dbl => (24 * a, 48)

/-- Two spans share a bit. -/
def spansMeet (x y : Nat × Nat) : Bool := decide (x.1 < y.1 + y.2) && decide (y.1 < x.1 + x.2)

/-- The store-buffer entries that overlap `n` cells from `a`. -/
def overCells (sb : List SEntry) (a n : Nat) : List SEntry :=
  sb.filter (fun e => spansMeet (spanOf e.a.toNat e.size) (24 * a, 24 * n))

/-- What the store buffer says to a load (R82): no overlap; the youngest overlapping entry matches exactly; wait until
the entries below a number have drained. -/
inductive SbLook where
  | miss
  | hit (v : Dbl)
  | wait (upto : Nat)
deriving DecidableEq, Repr

/-- The store-buffer lookup of a load (R82). -/
def sbLook (sb : List SEntry) (a : Nat) (z : SSize) : SbLook :=
  match (sb.filter (fun e => spansMeet (spanOf e.a.toNat e.size) (spanOf a z))).getLast? with
  | none => .miss
  | some e => if e.a.toNat = a && e.size = z then .hit e.v else .wait (e.id + 1)

/-- Every entry with a number below `upto` has drained. -/
def drained (sb : List SEntry) (upto : Nat) : Bool := sb.all (fun e => decide (upto ≤ e.id))

/-- A store enters the buffer (R81). -/
def Core.pushStore (k : Core) (t : ThId) (a : Cell) (z : SSize) (v : Dbl) (dbg : Bool := false) : Core :=
  { k with sb := k.sb ++ [{ id := k.sbNext, th := t, a := a, size := z, v := v, dbg := dbg }], sbNext := k.sbNext + 1 }

/-- The lock line of shared cell address `a` (R113). -/
def lockLine (a : Nat) : BitVec 18 := BitVec.ofNat 18 (a / 16)
/-- Another core than `c` holds the line of shared address `a` (R113). -/
def State.lineHeldByOther (s : State) (c : CoreId) (a : Nat) : Bool :=
  region a = .shared && s.fb.holds.any (fun h => h.line = lockLine a && h.core ≠ c)

/-- Some cell of `n` from `a` lies in a line that another core has locked (R113, R132). -/
def State.linesHeld (s : State) (c : CoreId) (a n : Nat) : Bool := (List.range n).any (fun i => s.lineHeldByOther c (a + i))

/-- A load of a thread holds a memory slot: one sent to a class other than the local-memory class (R80). -/
def Thread.loadSlot (t : Thread) : Nat :=
  match t.why with
  | .load _ a _ _ => if region a.toNat = .local_ then 0 else 1
  | _ => 0
/-- The memory slots that a thread's deferred loads hold (R80). -/
def Thread.deferredSlots (t : Thread) : Nat :=
  (t.dl.filter (fun d => d.v.isNone && region d.a.toNat != .local_)).length
/-- The memory slots of a core that loads, deferred loads and the Bellows hold (R80). -/
def Core.slotsBusy (k : Core) : Nat :=
  (k.th.toList.map (fun t => t.loadSlot + t.deferredSlots)).sum + b2n k.bell.isSome
/-- The memory slots that are free (R80). -/
def Core.slotsFree (k : Core) : Nat := 8 - (k.slotsBusy + k.fills.length)
/-- A free slot is there for request `r`: there are more free slots than requests that wait before it (R68, R80). -/
def Core.maySlot (k : Core) (r : SlotReq) : Bool := decide (k.slotq.findIdx (· = r) < k.slotsFree)
/-- Request `r` waits for a slot, behind those that wait already (R80). -/
def Core.askSlot (k : Core) (r : SlotReq) : Core := if k.slotq.contains r then k else { k with slotq := k.slotq ++ [r] }
/-- Request `r` no longer waits: it has its slot, or nothing asks for it any more. -/
def Core.unask (k : Core) (r : SlotReq) : Core := { k with slotq := k.slotq.filter (· ≠ r) }

/-- The line fills that take one of `n` free slots, each request before them keeping a slot of its own, and the requests
that go on waiting (R80). -/
def grantFills : List SlotReq → Nat → List (BitVec 16) × List SlotReq
  | [], _ => ([], [])
  | q, 0 => ([], q)
  | .fill l :: q, n + 1 => let p := grantFills q n; (l :: p.1, p.2)
  | r :: q, n + 1 => let p := grantFills q n; (p.1, r :: p.2)

/-- The line fills whose turn has come take their slots. -/
def Core.fillTurns (k : Core) : Core :=
  let p := grantFills k.slotq k.slotsFree
  { k with fills := k.fills ++ p.1, slotq := p.2 }

/-- A fill of line `l` is asked for, once for all the threads that miss on it (R74, R80). -/
def Core.askFill (k : Core) (l : BitVec 16) : Core := if k.fills.contains l then k else (k.askSlot (.fill l)).fillTurns

/-- A thread whose wait and whose line have both come is READY again (R66, R74). -/
def Thread.settle (t : Thread) : Thread :=
  if t.st = .blocked ∧ t.why = .none ∧ t.want = none then { t with st := .ready } else t

/-- A resource of the core has been freed: the line fills whose turn has come take their slots, and the threads whose
next syllable was held try again (R66, R68, R80). -/
def Core.retry (k : Core) : Core :=
  k.fillTurns.mapTh (fun t => if t.why.held then ({ t with why := .none }).settle else t)

/-- The latch and the deferred loads that are left once those at the head that have been read have completed (R88). -/
def latchRead (ll : Cell) : List DLoad → Cell × List DLoad
  | [] => (ll, [])
  | d :: r =>
    match d.v with
    | some x => latchRead x r
    | none => (ll, d :: r)

/-- A thread's LDD of a local cell whose overlapping entries have drained is read (R80, R82, R88). -/
def Thread.deferredReady (t : Thread) (lmem : Mem 24) : Thread :=
  match t.dl.getLast? with
  | some d =>
    if region d.a.toNat = .local_ then
      let p := latchRead t.ll (t.dl.dropLast ++ [{ d with v := some (memRead lmem d.a.toNat) }])
      { t with ll := p.1, dl := p.2 }
    else t
  | none => t

/-- The FENCEs of a core whose stores have drained and whose deferred loads are complete end (R85), and the LDDs that
waited for a store go to memory (R82). -/
def Core.fences (k : Core) : Core :=
  k.mapTh (fun t =>
    match t.why with
    | .deferred upto => if drained k.sb upto then ({ (t.deferredReady k.lmem) with why := .none }).settle else t
    | .fence upto => if drained k.sb upto && t.dl.isEmpty then ({ t with why := .none }).settle else t
    | _ => t)

/-- The lock lines whose releasing sequences have drained their stores are released (R113, R115). -/
def State.releaseLines (s : State) (c : CoreId) : State :=
  let sb := (s.core c).sb
  let done (h : Hold) : Bool :=
    h.core = c && (match h.rel with | some n => sb.all (fun e => e.th ≠ h.th || decide (n ≤ e.id)) | none => false)
  s.modFb (fun f => { f with holds := f.holds.filter (fun h => !done h) })

/-- An open locked sequence of a thread ends: its line is released when its stores so far have drained (R113, R115). -/
def State.endLock (s : State) (c : CoreId) (t : ThId) : State :=
  if (s.th c t).lockN.isNone then s
  else
    let n := (s.core c).sbNext
    let s1 := s.modTh c t (fun u => { u with lockN := none })
    let s2 := s1.modFb (fun f =>
      { f with holds := f.holds.map (fun h => if h.core = c && h.th = t && h.rel.isNone then { h with rel := some n } else h),
               wants := f.wants.filter (fun h => !(h.core = c && h.th = t)) })
    s2.releaseLines c

end Sys2Proof.Machine
end

