-- ==== Sys2Proof/Machine/Fetch.lean ====
section
/-! DEFINITION. Instruction fetch: program memory, the I-cache, line buffers and line fills (R73 to R75). -/

namespace Sys2Proof.Machine

/-- A program address is program memory or boot ROM (Table 1.5). -/
def progMapped (a : Nat) : Bool := decide (a < 0xC0000) || (decide (0xF0000 ≤ a) && decide (a < 0xF1000))
/-- The syllable at program address `a`. -/
def State.sylAt (s : State) (a : Nat) : Syl :=
  if a < 0xC0000 then memRead s.fb.prog a else Config.bootRom (BitVec.ofNat 20 a)
/-- The number of the line that holds a program address. -/
def lineOf (pc : PAddr) : BitVec 16 := BitVec.ofNat 16 (pc.toNat / 16)
/-- The sixteen syllables of a line. -/
def State.lineData (s : State) (line : BitVec 16) : Tab Syl 16 :=
  Vector.ofFn (fun i => s.sylAt (16 * line.toNat + i.val))

/-- The syllable that thread `t` fetches at its PC, if its line buffer holds the line (R68, R74). -/
def Thread.fetched (t : Thread) : Option Syl :=
  match t.buf with
  | some b => if b.line = lineOf t.pc then some (b.data.get (t.pc.toNat % 16)) else none
  | none => none

/-- A hit makes its line the most recently used (R73). -/
def Core.usedLine (k : Core) (l : ILine) : Core := { k with icache := l :: k.icache.filter (fun x => x.line ≠ l.line) }

/-- The line of a thread's PC is looked up (R74): kept if buffered; into the buffer on a hit; a fill requested and the
thread BLOCKED on a miss; nothing for an unmapped address. -/
def State.fetchLine (s : State) (c : CoreId) (t : ThId) : State :=
  let u := s.th c t
  let line := lineOf u.pc
  if (u.buf.map (·.line)) = some line then s
  else if !progMapped u.pc.toNat then s
  else
    match (s.core c).icache.find? (fun l => l.line = line) with
    | some l => s.modCore c (fun k => (k.modTh t (fun v => { v with buf := some { line := line, data := l.data } })).usedLine l)
    | none =>
      s.modCore c (fun k =>
        (k.modTh t (fun v => { v with want := some line, st := if v.st = .ready then .blocked else v.st })).askFill line)

/-- The line of address `pc` is looked up for a thread that waits on bits: its line buffer keeps its line (R74, R149). -/
def State.lookAhead (s : State) (c : CoreId) (t : ThId) (pc : PAddr) : State :=
  let line := lineOf pc
  if ((s.th c t).buf.map (·.line)) = some line then s
  else if !progMapped pc.toNat then s
  else
    match (s.core c).icache.find? (fun l => l.line = line) with
    | some l => s.modCore c (fun k => k.usedLine l)
    | none => s.modCore c (fun k => k.askFill line)

/-- The lines of an I-cache set (R73). -/
def setLines (ic : List ILine) (line : BitVec 16) : List ILine := ic.filter (fun l => l.line.toNat % 128 = line.toNat % 128)

/-- The way that a fill goes into (R73): the lowest way without a valid line, else the way of the least recently used
line among the unlocked ways. -/
def victimWay (ic : List ILine) (lock : Nat) (line : BitVec 16) : Nat :=
  let m := setLines ic line
  match firstIdx (fun w => !m.any (fun l => l.way = w)) 4 with
  | some w => w
  | none =>
    match (m.filter (fun l => decide (lock ≤ l.way))).getLast? with
    | some l => l.way
    | none => 3

/-- The I-cache with a filled line (R73). -/
def icFill (ic : List ILine) (lock : Nat) (line : BitVec 16) (d : Tab Syl 16) : List ILine :=
  let w := victimWay ic lock line
  { way := w, line := line, data := d } ::
    ic.filter (fun l => !(l.line.toNat % 128 = line.toNat % 128 && (l.way = w || l.line = line)))

/-- A line fill completes (R74): into the I-cache and into the line buffer of every thread that waits for the line. -/
def State.fillLine (s : State) (c : CoreId) (line : BitVec 16) : State :=
  let d := s.lineData line
  s.modCore c (fun k =>
    let k1 := k.mapTh (fun t =>
      if t.want = some line then ({ t with want := none, buf := some { line := line, data := d } }).settle else t)
    ({ (k1.unask (.fill line)) with icache := icFill k.icache k.icLock.toNat line d, fills := k.fills.filter (· ≠ line) }).retry)

/-- The I-cache and every line buffer of a core are invalidated (R75, R473). -/
def Core.inval (k : Core) : Core := { (k.mapTh (fun t => { t with buf := none })) with icache := [] }

/-- Every thread of a core whose next syllable is due has its line looked up again. -/
def State.refetch (s : State) (c : CoreId) : State :=
  (List.range 8).foldl (fun (r : State) i =>
    let t : ThId := BitVec.ofNat 3 i
    let u := r.th c t
    if (u.st = .ready ∨ u.st = .blocked) ∧ u.want = none then r.fetchLine c t else r) s

end Sys2Proof.Machine
end

