-- ==== Sys2Proof/Machine/Stack.lean ====
section
/-! DEFINITION. The data stack window, the return stack and the Bellows' requests (chapter 05). -/

namespace Sys2Proof.Machine

/-- The register that holds window cell `j`, counted from the deepest (R122). -/
def Thread.phys (t : Thread) (j : Nat) : Nat := (8 * t.base + j) % 32
/-- The cell `k` below the top of the window. -/
def Thread.top (t : Thread) (k : Nat) : Cell := t.win.get (t.phys (t.w - 1 - k))
/-- The depth that DEPTH returns (R122). -/
def Thread.depth (t : Thread) : Nat := t.w + t.spc

/-- A spill in flight of group `g` is voided (R125). -/
def voidSpill (x : Option Xfer) (p : Nat → Bool) : Option Xfer :=
  match x with
  | some y => some (if y.kind = .spill && p y.grp then { y with voided := true } else y)
  | none => none

/-- Window cell `j` is written by a syllable: its group is dirty (R123), and a spill in flight of it is voided. -/
def Thread.putCell (t : Thread) (j : Nat) (v : Cell) : Thread :=
  let p := t.phys j
  { t with win := t.win.set p v, dirty := setBit t.dirty (p / 8) true,
           xfer := voidSpill t.xfer (fun g => g = p / 8) }

/-- Cells written upward from window cell `j`. -/
def Thread.putCells (t : Thread) (j : Nat) : List Cell → Thread
  | [] => t
  | v :: r => (t.putCell j v).putCells (j + 1) r

/-- A syllable's effect on the data stack: `n` cells popped, `xs` pushed, the last on top. Only the positions pushed
are written. A window left below 8 cells voids a spill in flight (R125). -/
def Thread.popPush (t : Thread) (n : Nat) (xs : List Cell) : Thread :=
  let u := t.putCells (t.w - n) xs
  let w' := t.w - n + xs.length
  { u with w := w', xfer := voidSpill u.xfer (fun _ => w' < 8) }

/-- Every product issued so far counts as visible (R111). -/
def Thread.flushProducts (u : Thread) : Thread := { u with prod := u.last, pend := [] }

/-- SR_DSBASE and SR_DSLIMIT as they are held: bits [2:0] are 0 (R121, R131). -/
def areaCell (x : Cell) : Cell := x &&& 0xFFFFF8

/-- The spill area is valid (R131). -/
def Thread.areaValid (t : Thread) : Bool :=
  decide (t.dsbase.toNat ≤ t.dslimit.toNat) &&
  (decide (t.dslimit.toNat ≤ 0x4000) ||
   (decide (0x100000 ≤ t.dsbase.toNat) && decide (t.dslimit.toNat ≤ 0x200000)))

/-- The spill area has room for a group (R125). -/
def Thread.room (t : Thread) : Bool :=
  t.areaValid && decide (t.dsbase.toNat + t.spc + 8 ≤ t.dslimit.toNat)

/-- The transfer that the window now calls for (R125, R126). -/
def Thread.wantXfer (t : Thread) : Option Xfer :=
  if t.xfer.isSome then none
  else if 24 < t.w && t.room then some { kind := .spill, grp := t.base }
  else if t.w < 8 && 8 ≤ t.spc then some { kind := .fill, grp := (t.base + 3) % 4 }
  else none

/-- The Bellows tests thread `t` and queues the transfer it calls for (R125 to R127, R129). -/
def Core.testXfer (k : Core) (t : ThId) : Core :=
  match (k.th.get t.toNat).wantXfer with
  | none => k
  | some x => { (k.modTh t (fun u => { u with xfer := some x })) with bq := k.bq ++ [.xfer t] }

/-- The verdict of the window checks on a syllable that needs `need` operands and pushes `net` cells more than it
pops (R128, R133). -/
inductive WinCheck where
  | ok | held | dstack
deriving DecidableEq, Repr

/-- The window checks of R128 and R133, in their order: too few cells anywhere, operands still in the spill area, a
push into the group being filled, a push above 32. -/
def Thread.winCheck (t : Thread) (need net : Nat) : WinCheck :=
  if t.depth < need then .dstack
  else if t.w < need then .held
  else
    match t.xfer with
    | some x =>
      if x.kind = .fill then (if 24 < t.w + net && 0 < net then .held else .ok)
      else if 32 < t.w + net then .held else .ok
    | none => if 32 < t.w + net then (if t.room then .held else .dstack) else .ok

/-- RSMODE is trap mode (R134). -/
def Thread.trapMode (t : Thread) : Bool := t.status.getLsbD 11

/-- The return stack raises RSTACK for a syllable that pops `p` and pushes `q` entries (R135). -/
def Thread.rsBad (t : Thread) (p q : Nat) : Bool :=
  t.trapMode && (decide (t.rsd < p) || decide (16 < t.rsd - p + q))

/-- One push onto the return stack (R134, R136). -/
def Thread.rpush (t : Thread) (v : Cell) : Thread :=
  let i := (t.rsp + 1) % 16
  { t with rs := t.rs.set i v, rsp := i, rsd := if t.rsd < 16 then t.rsd + 1 else t.rsd }

/-- The top entry of the return stack. -/
def Thread.rtop (t : Thread) : Cell := t.rs.get t.rsp

/-- One pop off the return stack (R134, R136). -/
def Thread.rpop (t : Thread) : Thread := { t with rsp := (t.rsp + 15) % 16, rsd := t.rsd - 1 }

end Sys2Proof.Machine
end

