-- ==== Sys2Proof/Machine/Entry.lean ====
section
/-! DEFINITION. Taking an entry, raising a fault, escalation and lockup (R152 to R162), the return with RETE, the trace
records that they write (R420), and dropping a log, which a lockup does (R162, R236). -/

namespace Sys2Proof.Machine

/-- One record into the trace buffer (R420, R421): STOP mode stops when the buffer is full. -/
def Trace.put (t : Trace) (r : BitVec 64) : Trace :=
  if t.full then t
  else
    { t with recs := memWrite t.recs t.wptr.toNat r, wptr := t.wptr + 1,
             full := t.ctl.getLsbD 1 && t.wptr = 4095#12, since := t.since + 1 }

/-- A SYNC record (R420). -/
def syncRec (ctl : Cell) (tick : Dbl) : BitVec 64 :=
  BitVec.ofNat 64 (6 * 2 ^ 60 + fieldN ctl 2 4 * 2 ^ 56 + tick.toNat)

/-- A trace record of kind `kd` (1 BRANCH to 5 HALT) of thread `t` of core `c` with its two address fields, if the
trace selects it (R420). A SYNC record follows every 1,024 records. The FCLK gap is a free value (log entry 6). -/
def State.traceRec (s : State) (c : CoreId) (t : ThId) (kd : Nat) (p q : PAddr) : State :=
  let tr := s.fb.trace
  if tr.ctl.getLsbD 0 && fieldN tr.ctl 2 4 = c.toNat && tr.ctl.getLsbD (6 + t.toNat) && tr.ctl.getLsbD (13 + kd) && !tr.full then
    let r := BitVec.ofNat 64 (kd * 2 ^ 60 + c.toNat * 2 ^ 56 + t.toNat * 2 ^ 53 + (Config.freeGap s.free).toNat * 2 ^ 40 +
      p.toNat * 2 ^ 20 + q.toNat)
    let tr1 := tr.put r
    let tr2 := if 1024 ≤ tr1.since then { (tr1.put (syncRec tr.ctl s.fb.mir.tick)) with since := 0 } else tr1
    (s.modFb (fun f => { f with trace := tr2 })).draw
  else s

/-- The window has a copy in flight. -/
def Win.copying (w : Win) : Bool := match w.copy with | .inflight _ _ => true | _ => false

/-- The windows of a ring that was disabled go once no copy of theirs is in flight, and with the last of them the
missed triggers of a ring still disabled (R222). -/
def EmRing.cleanup (r : EmRing) : EmRing :=
  let ws := r.wins.filter (fun w => !w.dead || w.copying)
  if !r.en && ws.isEmpty then { r with wins := [], missed := 0, mlist := [], waitMiss := [] } else { r with wins := ws }

/-- The copies into log slot `i` stop; their windows keep their state (R219). -/
def State.stopCopies (s : State) (i : Nat) : State :=
  s.modFb (fun f =>
    { f with copies := f.copies.filter (fun k => k.slot ≠ i),
             rings := f.rings.map (fun r =>
               EmRing.cleanup { r with wins := r.wins.map (fun w => match w.copy with | .inflight j _ => if j = i then { w with copy := .none } else w | .none => w) }) })

/-- A log slot becomes free: its DONE bit and SLOT_FREE are set, and STAGE_FREE if it held staging units (R239). -/
def State.freeSlot (s : State) (i : Nat) (st : LState) : State :=
  let s1 := s.modHs (fun h =>
    { h with slots := h.slots.modify i (fun l => { l with state := st, segs := [], resv := 0, freed := h.freeCount + 1 }),
             freeCount := h.freeCount + 1 })
  let s2 := (s1.setEv (0x1100 + i)).setEv 0x1180
  if (s.hs.slots.get i).units = 0 then s2 else s2.setEv 0x1181

/-- LDROP's work on log slot `i` (R236): copies stop, staging and slot are freed. -/
def State.dropLog (s : State) (i : Nat) : State := (s.stopCopies i).freeSlot i .dropped

/-- The log slots of core `c` in state OPEN. -/
def State.openSlots (s : State) (c : CoreId) : List Nat :=
  (List.range 64).filter (fun i => let l := s.hs.slots.get i; l.core = c && l.state = .open_)

/-- Every OPEN log of core `c` is dropped (R162, R240). -/
def State.dropOpen (s : State) (c : CoreId) : State := (s.openSlots c).foldl (fun r i => r.dropLog i) s

/-- A saturating counter of core `c` in the Firebox common block (R484). -/
def State.modCnt (s : State) (c : CoreId) (f : CoreCnt → CoreCnt) : State :=
  s.modFb (fun b => { b with cnt := b.cnt.modify c.toNat f })

/-- Core `c` locks up (R161, R162): every thread is FROZEN, its open locked sequences end, OPEN logs are dropped, the
lockup is counted and shown in DSTATE. A fault of the boot thread ends the start with no image (R384). -/
def State.lockUp (s : State) (c : CoreId) (t : ThId) (cause what : Nat) : State :=
  let cls := (s.openSlots c).map (fun i => (s.hs.slots.get i).hdr.cls)
  let s1 := ((List.range 8).foldl (fun (r : State) i => r.endLock c (BitVec.ofNat 3 i)) s).dropOpen c
  let s2 := s1.modCore c (fun k =>
    { ((List.range 8).foldl (fun (q : Core) i => q.unask (.thread (BitVec.ofNat 3 i)))
        (k.mapTh (fun u => { u with wasSt := u.st, st := .frozen }))) with
      lockup := some { t := t, cause := BitVec.ofNat 2 cause, what := BitVec.ofNat 5 what, dropped := cls } })
  let s3 := (s2.modCnt c (fun n => { n with lockups := satInc n.lockups })).syncDstate
  if s.pw.life = .starting && s.bootCore = some c.toNat then s3.bootEnds else s3

/-- The fields of SR_STATUS (Table 18.8). -/
def lvlOf (st : Cell) : Bool := st.getLsbD 6
/-- MASK. -/
def maskOf (st : Cell) : Nat := fieldN st 7 3
/-- ESC. -/
def escOf (st : Cell) : Bool := st.getLsbD 10
/-- TMODE is STRICT. -/
def strictOf (st : Cell) : Bool := st.getLsbD 12
/-- DECODE is STRICT. -/
def decodeStrict (st : Cell) : Bool := st.getLsbD 13

/-- The vector number of a fault class (Table 6.3). -/
def FClass.num : FClass → Nat
  | .illegal => 1 | .priv => 2 | .misalign => 3 | .buserr => 4 | .dstack => 5 | .rstack => 6 | .lockseq => 7 | .watch => 8

/-- What an entry records and sets (R152, R155). -/
structure EntryInfo where
  kind : EKind
  vec : Nat
  cls : Nat := 0
  arm : Nat := 0
  pushPc : PAddr
  saddr : PAddr
  oaddr : Cell := 0
  mask : Option Nat := none
  esc : Bool := false

/-- A thread after an entry's six slots (R152 to R155): PC and SR_STATUS pushed, M level, the new MASK and ESC, the
fault record, the vector's address. -/
def Thread.enter (u : Thread) (e : EntryInfo) : Thread :=
  let v := (u.rpush (e.pushPc.setWidth 24)).rpush u.status
  let st1 := setBit u.status 6 true
  let st2 := match e.mask with | some m => setField st1 7 3 m | none => st1
  { v with status := if e.esc then setBit st2 10 true else st2,
           fr := { kind := e.kind, vec := BitVec.ofNat 5 e.vec, cls := BitVec.ofNat 4 e.cls,
                   arm := BitVec.ofNat 3 e.arm, saddr := e.saddr, oaddr := e.oaddr },
           pc := BitVec.ofNat 20 (4 * e.vec), pacc := 0, pk := 0, st := .ready, why := .none, want := none,
           haltReq := u.haltReq || u.step.isSome, step := none }

/-- Taking an entry: the one way into a handler (R152 to R155). Its slots are issues of the thread (R68, R153). In trap mode with RSD at 15 or 16 it is an entry fault
and the core locks up (R154). -/
def State.enter (s : State) (c : CoreId) (t : ThId) (e : EntryInfo) : State :=
  let u := s.th c t
  if u.trapMode && decide (15 ≤ u.rsd) then s.lockUp c t 0 e.vec
  else
    ((s.modCore c (fun k => { (((k.unask (.thread t)).fillTurns).modTh t (fun v => v.enter e)) with lastTh := t })).fetchLine c t).traceRec c t 2
      (BitVec.ofNat 20 e.vec) e.pushPc

/-- Raising a fault (R157 to R160): an open locked sequence closes; with ESC = 1 the core locks up; with MASK 7 it is
entered as ESCALATED; else through the vector of its class. A thread that a lockup has frozen or a CORE reset has stopped
takes no entry (R161, R383). -/
def State.raise (s : State) (c : CoreId) (t : ThId) (f : FClass) (saddr : PAddr) (oaddr : Cell) : State :=
  let s1 := s.endLock c t
  let st := (s.th c t).status
  if (s.th c t).st = .frozen || (s.th c t).st = .stopped then s
  else if escOf st then s1.lockUp c t 1 f.num
  else if maskOf st = 7 then
    s1.enter c t { kind := .escalated, vec := 0, cls := f.num, pushPc := saddr, saddr := saddr, oaddr := oaddr,
                   mask := some 7, esc := true }
  else
    s1.enter c t { kind := .fault, vec := f.num, cls := f.num, pushPc := saddr, saddr := saddr, oaddr := oaddr,
                   mask := some 7 }

/-- A thread after RETE (R156): SR_STATUS and then PC popped. The reserved bits 23:14 of SR_STATUS stay 0, whatever the
entry holds (R8, Table 18.8). -/
def Thread.rete (u : Thread) : Thread :=
  let v := u.rpop
  { v.rpop with status := u.rtop &&& 0x003FFF, pc := BitVec.ofNat 20 v.rtop.toNat }

end Sys2Proof.Machine
end

