-- ==== Sys2Proof/Machine/Flags.lean ====
section
/-! DEFINITION. The flags of SR_STATUS and every flag computation of sections 4.5 to 4.7 (R94, R95, R99 to R104).
Flag positions are those of Table 18.8: Z 0, N 1, C 2, V 3, B 4, E 5. -/

namespace Sys2Proof.Machine

/-- What an arithmetic syllable gives: the cells pushed, the last on top, and the new SR_STATUS. -/
abbrev AluOut := List Cell × Cell

/-- Z and N of a result (R94). -/
def flagsZN {w : Nat} (st : Cell) (r : BitVec w) : Cell := setBit (setBit st 0 (r == 0)) 1 r.msb
/-- Z, N, C and V of a result. -/
def flagsZNCV {w : Nat} (st : Cell) (r : BitVec w) (c v : Bool) : Cell := setBit (setBit (flagsZN st r) 2 c) 3 v
/-- Z, N and V of a result. -/
def flagsZNV {w : Nat} (st : Cell) (r : BitVec w) (v : Bool) : Cell := setBit (flagsZN st r) 3 v
/-- Z, N and C of a result. -/
def flagsZNC {w : Nat} (st : Cell) (r : BitVec w) (c : Bool) : Cell := setBit (flagsZN st r) 2 c
/-- The B flag. -/
def flagB (st : Cell) (b : Bool) : Cell := setBit st 4 b
/-- The C flag's present value. -/
def carryOf (st : Cell) : Bool := st.getLsbD 2

/-- The sum with a carry in: the result, the carry out of the top bit, signed overflow (R94). -/
def addc {w : Nat} (x y : BitVec w) (cin : Bool) : BitVec w × Bool × Bool :=
  let n := x.toNat + y.toNat + b2n cin
  let r := BitVec.ofNat w n
  (r, decide (2 ^ w ≤ n), decide (x.msb = y.msb) && decide (r.msb ≠ x.msb))
/-- The difference with a borrow in: the result, C = 1 when no borrow occurs, signed overflow (R94). -/
def subb {w : Nat} (x y : BitVec w) (bin : Bool) : BitVec w × Bool × Bool :=
  let r := x - y - BitVec.ofNat w (b2n bin)
  (r, decide (y.toNat + b2n bin ≤ x.toNat), decide (x.msb ≠ y.msb) && decide (r.msb ≠ x.msb))

/-- A sum or difference with Z N C V. -/
def outZNCV (st : Cell) (p : Cell × Bool × Bool) : AluOut := ([p.1], flagsZNCV st p.1 p.2.1 p.2.2)
/-- A 48-bit sum or difference with Z N C V. -/
def outZNCV2 (st : Cell) (p : Dbl × Bool × Bool) : AluOut :=
  ([loCell p.1, hiCell p.1], flagsZNCV st p.1 p.2.1 p.2.2)
/-- A result with Z N. -/
def outZN (st : Cell) (r : Cell) : AluOut := ([r], flagsZN st r)

/-- The most negative and the greatest cell (R100). -/
def cellMin : Cell := 0x800000
/-- The greatest signed cell. -/
def cellMax : Cell := 0x7FFFFF

/-- A saturated sum or difference of the exact value `v`: V exactly when it clamps (R100). -/
def outSat (st : Cell) (v : Int) : AluOut :=
  if v < -8388608 then ([cellMin], flagsZNV st cellMin true)
  else if 8388607 < v then ([cellMax], flagsZNV st cellMax true)
  else ([BitVec.ofInt 24 v], flagsZNV st (BitVec.ofInt 24 v) false)

/-- ABS (R100). -/
def outAbs (st x : Cell) : AluOut :=
  let r := if x.msb then -x else x
  ([r], flagsZNV st r (decide (x = cellMin)))

/-- SHL, SHR and SAR by a count already taken as u[4:0] (R101). -/
def shlC (x : Cell) (n : Nat) (c : Bool) : Cell × Bool :=
  if n = 0 then (x, c) else if n ≤ 24 then (x <<< n, x.getLsbD (24 - n)) else (0, false)
/-- SHR (R101). -/
def shrC (x : Cell) (n : Nat) (c : Bool) : Cell × Bool :=
  if n = 0 then (x, c) else if n ≤ 24 then (x >>> n, x.getLsbD (n - 1)) else (0, false)
/-- SAR (R101). -/
def sarC (x : Cell) (n : Nat) (c : Bool) : Cell × Bool :=
  if n = 0 then (x, c) else if n ≤ 24 then (x.sshiftRight n, x.getLsbD (n - 1))
  else (if x.msb then 0xFFFFFF else 0, x.msb)
/-- ROL by the count modulo 24: C is bit 0 of the result when the rotation is nonzero (R101). -/
def rolC (x : Cell) (n : Nat) (c : Bool) : Cell × Bool :=
  let m := n % 24
  if m = 0 then (x, c) else let r := x.rotateLeft m; (r, r.getLsbD 0)
/-- A shift with Z N C. -/
def outShift (f : Cell → Nat → Bool → Cell × Bool) (st x u : Cell) : AluOut :=
  let p := f x (u.toNat % 32) (carryOf st)
  ([p.1], flagsZNC st p.1 p.2)

/-- The bits set in the low `n` bits. -/
def popCount (x : Cell) : Nat → Nat
  | 0 => 0
  | n + 1 => b2n (x.getLsbD n) + popCount x n
/-- The zeros above the highest set bit among the low `n` bits. -/
def leadZeros (x : Cell) : Nat → Nat
  | 0 => 0
  | n + 1 => if x.getLsbD n then 0 else 1 + leadZeros x n
/-- A result with Z alone. -/
def outZ (st : Cell) (r : Cell) : AluOut := ([r], setBit st 0 (r == 0))

/-- DIV, signed and truncated toward 0 (R104). -/
def divS (x y : Cell) : Cell × Bool :=
  if y = 0 then (0, true) else (BitVec.ofInt 24 (x.toInt.tdiv y.toInt), decide (x = cellMin) && decide (y = 0xFFFFFF))
/-- DIVU (R104). -/
def divU (x y : Cell) : Cell × Bool := if y = 0 then (0, true) else (x / y, false)
/-- MOD, the sign of the dividend (R102, R104). -/
def modS (x y : Cell) : Cell × Bool := if y = 0 then (x, true) else (BitVec.ofInt 24 (x.toInt.tmod y.toInt), false)
/-- A quotient or remainder: Z N V, C := 0. -/
def outDiv (st : Cell) (p : Cell × Bool) : AluOut := ([p.1], flagsZNCV st p.1 false p.2)

/-- The floor of a square root, one bit at a time from bit `n - 1`. -/
def sqrtFrom (v : Nat) : Nat → Nat → Nat
  | 0, r => r
  | n + 1, r => let q := r + 2 ^ n; sqrtFrom v n (if q * q ≤ v then q else r)
/-- SQRT of an unsigned double cell (R102): Z of the result; N, C, V := 0. -/
def outSqrt (st : Cell) (d : Dbl) : AluOut :=
  let r : Cell := BitVec.ofNat 24 (sqrtFrom d.toNat 24 0)
  ([r], setBit (setBit (setBit (setBit st 0 (r == 0)) 1 false) 2 false) 3 false)

/-- The condition codes of Table 4.4 (R95). -/
def condHolds (st : Cell) (c : BitVec 4) : Bool :=
  let z := st.getLsbD 0
  let n := st.getLsbD 1
  let cc := st.getLsbD 2
  let v := st.getLsbD 3
  let b := st.getLsbD 4
  match c.toNat with
  | 0 => z | 1 => !z | 2 => cc | 3 => !cc | 4 => n | 5 => !n | 6 => v | 7 => !v
  | 8 => cc && !z | 9 => !cc || z | 10 => n == v | 11 => n != v
  | 12 => !z && (n == v) | 13 => z || (n != v) | 14 => b | _ => !b

/-- MIN of two signed cells. -/
def minS (x y : Cell) : Cell := if y.slt x then y else x
/-- MAX of two signed cells. -/
def maxS (x y : Cell) : Cell := if x.slt y then y else x

end Sys2Proof.Machine
end

