-- ==== Sys2Proof/Machine/Operands.lean ====
section
/-! DEFINITION. The words of the seven syllable classes (R90), the immediates that PFX widens (R92), and the operands
that a syllable takes from the window (R96). -/

namespace Sys2Proof.Machine

/-- LIT with field `v` (Table 4.1). -/
def litW (v : BitVec 10) : Syl := BitVec.ofNat 12 v.toNat
/-- CALL with field `d`. -/
def callW (d : BitVec 9) : Syl := BitVec.ofNat 12 (0x400 + d.toNat)
/-- JMP with field `d`. -/
def jmpW (d : BitVec 9) : Syl := BitVec.ofNat 12 (0x600 + d.toNat)
/-- Bcc with condition `c` and field `d`. -/
def bccW (c : BitVec 4) (d : BitVec 6) : Syl := BitVec.ofNat 12 (0x800 + 64 * c.toNat + d.toNat)
/-- A short bit op `o` of bit address field `a`. -/
def bitW (o : Nat) (a : BitVec 7) : Syl := BitVec.ofNat 12 (0xC00 + 128 * o + a.toNat)
/-- PFX with field `p`. -/
def pfxW (p : BitVec 8) : Syl := BitVec.ofNat 12 (0xE00 + p.toNat)
/-- OP code `k`. -/
def opW (k : Nat) : Syl := BitVec.ofNat 12 (0xF00 + k)

/-- The unassigned OP codes (R120). -/
def unassignedCode (k : Nat) : Bool :=
  (decide (0x3A ≤ k) && decide (k ≤ 0x3F)) || k = 0x4E || k = 0x4F || k = 0x57 || (decide (0x64 ≤ k) && decide (k ≤ 0x67)) ||
  (decide (0x6C ≤ k) && decide (k ≤ 0x6F)) || (decide (0x77 ≤ k) && decide (k ≤ 0xBF))

/-- The raw immediate: the accumulator before a field of width `w` (R92). -/
def rawImm (u : Thread) (w f : Nat) : Nat := u.pacc.toNat * 2 ^ w + f
/-- The immediate of LIT, CALL, JMP and Bcc, sign-extended from its top bit (R92). -/
def signedImm (u : Thread) (w f : Nat) : Int :=
  let raw := rawImm u w f
  let bits := w + 8 * u.pk
  if raw < 2 ^ (bits - 1) then (raw : Int) else (raw : Int) - 2 ^ bits
/-- The target of CALL, JMP and Bcc at program address `a` (R91). -/
def branchTarget (a : PAddr) (d : Int) : PAddr := BitVec.ofInt 20 ((a.toNat : Int) + 1 + d)

/-- The double cell on top of the window, its low cell deeper (R96), `k` cells below the top. -/
def Thread.topD (t : Thread) (k : Nat) : Dbl := mkDbl (t.top (k + 1)) (t.top k)
/-- The cells of a double cell in push order. -/
def dblCells (d : Dbl) : List Cell := [loCell d, hiCell d]

end Sys2Proof.Machine
end

