-- ==== Sys2Proof/Machine/Issue.lean ====
section
/-! DEFINITION. The issue of a syllable: when a thread may issue (R68, R151), what every syllable does besides its own
effect, and the faults in their priority (R157, R158). The syllable that a command names has to be the one that the
thread fetches (log entry 3). -/

namespace Sys2Proof.Machine

/-- Bit `a` as thread `u` of core `c` reads it; an address above 0x13FF is not read (R21, R107). -/
def State.readBit (s : State) (c : CoreId) (u : Thread) (a : Nat) : Bool :=
  if a < 0x80 then u.bits.getLsbD a
  else if a < 0x1000 then (s.core c).bits.getLsbD a
  else s.evBit a

/-- The level of an armed bit: the LEVEL carried by a comparator's hit, else the arm's (R145). -/
def State.armLevel (s : State) (a : Arm) : Nat :=
  let b := a.bit.toNat
  if 0x1000 ≤ b ∧ b < 0x1040 then (s.fb.cmp.get (b - 0x1000)).carried.toNat else a.level.toNat

/-- The level of arm `i` of a thread if it is pending, else 0 (R146). -/
def State.armPend (s : State) (c : CoreId) (u : Thread) (i : Nat) : Nat :=
  let a := u.arms.get i
  if a.en && s.readBit c u a.bit.toNat then s.armLevel a else 0

/-- The pending level P of a thread (R146). -/
def State.pendLevel (s : State) (c : CoreId) (u : Thread) : Nat :=
  (List.range 8).foldl (fun m i => max m (s.armPend c u i)) 0

/-- The arm that gives P: the lowest index among those of that level (R146). -/
def State.pendArm (s : State) (c : CoreId) (u : Thread) : Nat :=
  (firstIdx (fun i => s.armPend c u i = s.pendLevel c u) 8).getD 0

/-- A thread is outside a PFX group and a locked sequence (R93, R115, R151). -/
def Thread.atBoundary (u : Thread) : Bool := u.pk = 0 && u.lockN.isNone

/-- Something comes before the next syllable at this boundary: a stop, a halt or an event entry (R67, R151, R413). -/
def State.boundaryTaken (s : State) (c : CoreId) (u : Thread) : Bool :=
  u.atBoundary &&
  (u.stopReq || u.haltReq || (u.step != some true && decide (maskOf u.status < s.pendLevel c u)))

/-- The core can issue at all: powered and clocked, enabled, not locked up, not in a reinstall, its sequencer free, no
relock (R26, R72, R161, R168, R189, R363). -/
def State.coreFree (s : State) (c : CoreId) : Bool :=
  s.coresRun && s.coreEnabled c && (s.core c).lockup.isNone && !(s.core c).reinst && (s.core c).seq.isNone

/-- No other thread of the core has a locked sequence open (R68). -/
def Core.noOtherLock (k : Core) (t : ThId) : Bool :=
  (List.range 8).all (fun i => i = t.toNat || (k.th.get i).lockN.isNone)

/-- Thread `t` of core `c` may send its next syllable into F1 (R68): READY, or held for a resource it asks for again. -/
def State.mayIssue (s : State) (c : CoreId) (t : ThId) : Bool :=
  let u := s.th c t
  (u.st = .ready || (u.st = .blocked && u.why.held)) && u.want.isNone &&
  s.coreFree c && (s.core c).noOtherLock t && !s.boundaryTaken c u

/-- The count of a product in flight, in the thread's own syllables (R87): those that reach 0 become visible. -/
def stepProducts : List (Nat × Dbl) → Dbl → List (Nat × Dbl) × Dbl
  | [], v => ([], v)
  | (n, d) :: r, v => if n ≤ 1 then stepProducts r d else let p := stepProducts r v; ((n - 1, d) :: p.1, p.2)

/-- What every issued syllable counts (R87, R111, R114): SR_SYLCNT, the products' visibility, the locked sequence. -/
def Thread.count (u : Thread) : Thread :=
  let p := stepProducts u.pend u.prod
  { u with sylcnt := u.sylcnt + 1, pend := p.1, prod := p.2, lockN := u.lockN.map (· + 1), st := .ready, why := .none }

/-- The address that a fault reports: the first syllable of the group (R93). -/
def Thread.groupPc (u : Thread) : PAddr := if u.pk = 0 then u.pc else u.grp

/-- The next syllable's address, and the prefix taken (R92). -/
def Thread.advance (u : Thread) : Thread := { u with pc := u.pc + 1, pacc := 0, pk := 0 }

/-- What a watchpoint compares (R417). -/
inductive WAddr where
  | fetch (a : Nat) | load (a : Nat) | store (a : Nat) | bit (a : Nat)
deriving DecidableEq, Repr

/-- The address compared. -/
def WAddr.addr : WAddr → Nat
  | .fetch a | .load a | .store a | .bit a => a

/-- Watchpoint `w` matches access `x` of thread `t` (R417, R473). -/
def Watchpt.hits (w : Watchpt) (t : ThId) (x : WAddr) : Bool :=
  w.ctl.getLsbD 0 && w.ctl.getLsbD (8 + t.toNat) &&
  (((BitVec.ofNat 24 x.addr) ^^^ w.addr) &&& w.amask) == 0 &&
  (match x, fieldN w.ctl 1 3 with
    | .fetch _, 0 => true
    | .load _, 1 => true
    | .load _, 3 => true
    | .store _, 2 => true
    | .store _, 3 => true
    | .bit _, 4 => true
    | _, _ => false)

/-- Watchpoint `i` held the group that thread `u` executes now, and is not matched by it (R417). -/
def Thread.skips (u : Thread) (i : Nat) : Bool :=
  match u.skipWp with
  | some (g, m) => g = u.groupPc && m.getLsbD i
  | none => false

/-- The watchpoints that match a syllable of thread `t` with the accesses `xs`; those that its RESUME or STEP skips are
left out (R417). -/
def Core.wpHits (k : Core) (t : ThId) (xs : List WAddr) : List Nat :=
  (List.range 8).filter (fun i => !(k.th.get t.toNat).skips i && xs.any (fun x => (k.wp.get i).hits t x))

/-- The ACTION of watchpoint `i`: 0 COUNT, 1 FAULT, 2 HALT, 3 TRACE. -/
def Core.wpAction (k : Core) (i : Nat) : Nat := fieldN (k.wp.get i).ctl 4 2

/-- The first access that watchpoint `i` matched. -/
def Core.wpAddr (k : Core) (t : ThId) (xs : List WAddr) (i : Nat) : WAddr :=
  (xs.find? (fun x => (k.wp.get i).hits t x)).getD (.fetch 0)

/-- Every matching watchpoint counts (R417). -/
def Core.wpCount (k : Core) (is : List Nat) : Core :=
  { k with wp := is.foldl (fun w i => w.modify i (fun x => { x with count := satInc x.count })) k.wp }

/-- What a syllable's meaning brings to its issue: its word, the operands it needs, the net cells it pushes, the
return-stack entries it pops and pushes, whether a locked sequence forbids it, further grounds for ILLEGAL, whether it
waits for a resource and how the thread waits then, whether it needs a memory slot, its X1 fault if any with OADDR, the accesses that watchpoints see, its effect. -/
structure Sylb where
  word : Syl
  need : Nat := 0
  net : Nat := 0
  rpops : Nat := 0
  rpushes : Nat := 0
  noLock : Bool := false
  illegal : Bool := false
  waits : Bool := false
  wait : Why := .hold
  slot : Bool := false
  fault : Option (FClass × Cell) := none
  watch : List WAddr := []
  effect : State → State

/-- The syllable is an OP, which no PFX may precede (R93). -/
def isOp (w : Syl) : Bool := decide (0xF00 ≤ w.toNat)

/-- A syllable is held: its thread is BLOCKED and nothing has issued (R66, R128). -/
def State.holdThread (s : State) (c : CoreId) (t : ThId) (y : Why := .hold) : State :=
  s.modTh c t (fun u => { u with st := .blocked, why := y })

/-- A syllable issues: it counts, its thread is the last that issued, and no longer asks for a slot (R68, R80). -/
def State.issued (s : State) (c : CoreId) (t : ThId) : State :=
  s.modCore c (fun k => { ((k.unask (.thread t)).modTh t Thread.count) with lastTh := t })

/-- A thread behind a syllable: a step that has reached a boundary asks for its halt (R415); the watchpoints that held
its group are matched again once the group is behind it (R417). -/
def Thread.retired (u : Thread) : Thread :=
  { u with skipWp := if u.pk = 0 then none else u.skipWp, haltReq := u.haltReq || (u.step.isSome && u.atBoundary),
           step := if u.atBoundary then none else u.step }

/-- After a syllable's effect: the window asks for its transfer (R125 to R127), a step that reaches a boundary asks for
its halt (R415), and the line of the next syllable is looked up (R74): for a thread that waits on bits the line after its
WAIT (R149), for SWAPCTX none, because the PC is still to be loaded (R140). A core that the syllable has locked up stays
as the lockup left it. -/
def State.retire (s : State) (c : CoreId) (t : ThId) : State :=
  let s1 := s.modCore c (fun k => ((k.testXfer t).modTh t Thread.retired).fillTurns)
  if (s.core c).lockup.isSome then s
  else
    match (s1.th c t).why with
    | .bits _ => s1.lookAhead c t ((s1.th c t).pc + 1)
    | .swap _ _ => s1
    | _ => s1.fetchLine c t

/-- A watchpoint with action HALT holds its syllable (R417): nothing has changed but the counts, and the thread is
HALTED at it, or at the first syllable of its group. -/
def State.watchHalt (s : State) (c : CoreId) (t : ThId) (i : Nat) : State :=
  let u := s.th c t
  let m : Byte := match u.skipWp with | some (g, m) => if g = u.groupPc then m else 0 | none => 0
  (s.modCore c (fun k => ((k.modTh t (fun v =>
    { v with st := .halted, why := .none, pc := u.groupPc, pacc := 0, pk := 0,
             skipWp := some (u.groupPc, setBit m i true), step := none })).unask (.thread t)).fillTurns)).traceRec c t 5 u.groupPc 0

/-- The effect of a syllable that no check has stopped: its prefix and PC step, its own effect, then `retire`. -/
def State.perform (s : State) (c : CoreId) (t : ThId) (y : Sylb) : State :=
  (y.effect ((s.issued c t).modTh c t Thread.advance)).retire c t

/-- The watchpoints' say on a syllable (R417), else its effect. `s0` is the state before the syllable. -/
def State.watched (s0 : State) (c : CoreId) (t : ThId) (y : Sylb) : State :=
  let u := s0.th c t
  let xs := .fetch u.pc.toNat :: y.watch
  let hs := (s0.core c).wpHits t xs
  if hs.isEmpty then s0.perform c t y
  else
    let k := s0.core c
    let s := s0.modCore c (fun k => k.wpCount hs)
    let act (a : Nat) : Option Nat := hs.find? (fun i => k.wpAction i = a)
    match act 2, act 1, act 3 with
    | some i, f, _ =>
      if u.lockN.isSome then
        (s.issued c t).raise c t .watch u.groupPc
          (match k.wpAddr t xs (f.getD i) with | .fetch _ => 0 | x => BitVec.ofNat 24 x.addr)
      else s.watchHalt c t i
    | none, some i, _ =>
      (s.issued c t).raise c t .watch u.groupPc
        (match k.wpAddr t xs i with | .fetch _ => 0 | x => BitVec.ofNat 24 x.addr)
    | none, none, some i =>
      (s.traceRec c t 4 u.pc (BitVec.ofNat 20 (match k.wpAddr t xs i with | .fetch _ => 0 | x => x.addr))).perform c t y
    | none, none, none => s.perform c t y

/-- The checks of a syllable that its thread has fetched, in the priority of Table 6.7, with the holds of R68 and R128
between DE and X1; then `watched`. -/
def State.checked (s : State) (c : CoreId) (t : ThId) (y : Sylb) : State :=
  let u := s.th c t
  let counted := s.issued c t
  if u.lockN.any (fun n => decide (15 ≤ n)) && y.word ≠ opW 0x4D then counted.raise c t .lockseq u.groupPc 0
  else if (isOp y.word && decide (0 < u.pk)) || (u.lockN.isSome && y.noLock) || y.illegal then
    counted.raise c t .illegal u.groupPc 0
  else
    match u.winCheck y.need y.net with
    | .dstack => counted.raise c t .dstack u.groupPc 0
    | .held => s.holdThread c t
    | .ok =>
      if y.waits then s.holdThread c t y.wait
      else if y.slot && !(s.core c).maySlot (.thread t) then
        (s.holdThread c t).modCore c (fun k => k.askSlot (.thread t))
      else if u.rsBad y.rpops y.rpushes then counted.raise c t .rstack u.groupPc 0
      else
        match y.fault with
        | some (f, o) => counted.raise c t f u.groupPc o
        | none => s.watched c t y

/-- The issue of a syllable. A thread that may not issue, or that has fetched another syllable, issues nothing; a PC
in an unmapped range raises BUSERR on fetch (R21, R74, R158), behind a PFX with the address of the group's first syllable
(R93; DEDUCED, log entry 105). -/
def issue (c : CoreId) (t : ThId) (y : Sylb) (s : State) : State :=
  let u := s.th c t
  if !s.mayIssue c t then s
  else if !progMapped u.pc.toNat then s.raise c t .buserr u.groupPc 0
  else if u.fetched ≠ some y.word then s
  else s.checked c t y

/-- A syllable that works on the top `need` cells, pops `pops` of them, pushes cells and writes flags: `f` has the
cells below the top as a function, and SR_STATUS. -/
def stackOp (c : CoreId) (t : ThId) (k need pops pushes : Nat) (f : (Nat → Cell) → Cell → AluOut) (s : State) : Answer :=
  .next (issue c t
    { word := opW k, need := need, net := pushes - pops,
      effect := fun r => r.modTh c t (fun u =>
        let o := f u.top u.status
        { (u.popPush pops o.1) with status := o.2 }) } s)

/-- ( n1 n2 -- … ) with flags. -/
def binOp (c : CoreId) (t : ThId) (k : Nat) (f : Cell → Cell → Cell → AluOut) (s : State) : Answer :=
  stackOp c t k 2 2 1 (fun x st => f st (x 1) (x 0)) s
/-- ( n -- … ) with flags. -/
def unOp (c : CoreId) (t : ThId) (k : Nat) (f : Cell → Cell → AluOut) (s : State) : Answer :=
  stackOp c t k 1 1 1 (fun x st => f st (x 0)) s

end Sys2Proof.Machine
end

