-- ==== Sys2Proof/Machine/Arith.lean ====
section
/-! DEFINITION. Stack operations, arithmetic, logic, shifts, conversions, multiply, divide and square root (sections
4.5 and 4.6): OP codes 0x00 to 0x38. -/

namespace Sys2Proof.Machine

/-- NOP ( -- ), R99. -/
def execNop (c : CoreId) (t : ThId) (s : State) : Answer :=
  stackOp c t 0x00 0 0 0 (fun _ st => ([], st)) s

/-- DUP ( x -- x x ), R99. -/
def execDup (c : CoreId) (t : ThId) (s : State) : Answer :=
  stackOp c t 0x01 1 0 1 (fun x st => ([x 0], st)) s

/-- DROP ( x -- ), R99. -/
def execDrop (c : CoreId) (t : ThId) (s : State) : Answer :=
  stackOp c t 0x02 1 1 0 (fun _ st => ([], st)) s

/-- SWAP ( x1 x2 -- x2 x1 ), R99. -/
def execSwap (c : CoreId) (t : ThId) (s : State) : Answer :=
  stackOp c t 0x03 2 2 2 (fun x st => ([x 0, x 1], st)) s

/-- OVER ( x1 x2 -- x1 x2 x1 ), R99. -/
def execOver (c : CoreId) (t : ThId) (s : State) : Answer :=
  stackOp c t 0x04 2 0 1 (fun x st => ([x 1], st)) s

/-- ROT ( x1 x2 x3 -- x2 x3 x1 ), R99. -/
def execRot (c : CoreId) (t : ThId) (s : State) : Answer :=
  stackOp c t 0x05 3 3 3 (fun x st => ([x 1, x 0, x 2], st)) s

/-- NIP ( x1 x2 -- x2 ), R99. -/
def execNip (c : CoreId) (t : ThId) (s : State) : Answer :=
  stackOp c t 0x06 2 2 1 (fun x st => ([x 0], st)) s

/-- TUCK ( x1 x2 -- x2 x1 x2 ), R99. -/
def execTuck (c : CoreId) (t : ThId) (s : State) : Answer :=
  stackOp c t 0x07 2 2 3 (fun x st => ([x 0, x 1, x 0], st)) s

/-- 2DUP ( x1 x2 -- x1 x2 x1 x2 ), R99. -/
def execTwoDup (c : CoreId) (t : ThId) (s : State) : Answer :=
  stackOp c t 0x08 2 0 2 (fun x st => ([x 1, x 0], st)) s

/-- 2DROP ( x1 x2 -- ), R99. -/
def execTwoDrop (c : CoreId) (t : ThId) (s : State) : Answer :=
  stackOp c t 0x09 2 2 0 (fun _ st => ([], st)) s

/-- 2SWAP ( x1 x2 x3 x4 -- x3 x4 x1 x2 ), R99. -/
def execTwoSwap (c : CoreId) (t : ThId) (s : State) : Answer :=
  stackOp c t 0x0A 4 4 4 (fun x st => ([x 1, x 0, x 3, x 2], st)) s

/-- 2OVER ( x1 x2 x3 x4 -- x1 x2 x3 x4 x1 x2 ), R99. -/
def execTwoOver (c : CoreId) (t : ThId) (s : State) : Answer :=
  stackOp c t 0x0B 4 0 2 (fun x st => ([x 3, x 2], st)) s

/-- DEPTH ( -- u ), the depth before the push, R99, R122. -/
def execDepth (c : CoreId) (t : ThId) (s : State) : Answer :=
  .next (issue c t
    { word := opW 0x0F, net := 1,
      effect := fun r => r.modTh c t (fun u => u.popPush 0 [BitVec.ofNat 24 u.depth]) } s)

/-- ADD ( n1 n2 -- n1+n2 ), R99, R100. -/
def execAdd (c : CoreId) (t : ThId) (s : State) : Answer :=
  binOp c t 0x10 (fun st x y => outZNCV st (addc x y false)) s

/-- SUB ( n1 n2 -- n1-n2 ), R99, R100. -/
def execSub (c : CoreId) (t : ThId) (s : State) : Answer :=
  binOp c t 0x11 (fun st x y => outZNCV st (subb x y false)) s

/-- ADC ( n1 n2 -- n1+n2+C ), R99, R100. -/
def execAdc (c : CoreId) (t : ThId) (s : State) : Answer :=
  binOp c t 0x12 (fun st x y => outZNCV st (addc x y (carryOf st))) s

/-- SBC ( n1 n2 -- n1-n2-(1-C) ), R99, R100. -/
def execSbc (c : CoreId) (t : ThId) (s : State) : Answer :=
  binOp c t 0x13 (fun st x y => outZNCV st (subb x y (!carryOf st))) s

/-- NEG ( n -- 0-n ), R99, R100. -/
def execNeg (c : CoreId) (t : ThId) (s : State) : Answer :=
  unOp c t 0x14 (fun st x => outZNCV st (subb 0 x false)) s

/-- ABS ( n -- |n| ), Z N V, R100. -/
def execAbs (c : CoreId) (t : ThId) (s : State) : Answer :=
  unOp c t 0x15 (fun st x => outAbs st x) s

/-- INC ( n -- n+1 ), R99, R100. -/
def execInc (c : CoreId) (t : ThId) (s : State) : Answer :=
  unOp c t 0x16 (fun st x => outZNCV st (addc x 1 false)) s

/-- DEC ( n -- n-1 ), R99, R100. -/
def execDec (c : CoreId) (t : ThId) (s : State) : Answer :=
  unOp c t 0x17 (fun st x => outZNCV st (subb x 1 false)) s

/-- CMP ( n1 n2 -- ), the flags of n1-n2, R99. -/
def execCmp (c : CoreId) (t : ThId) (s : State) : Answer :=
  stackOp c t 0x18 2 2 0 (fun x st => ([], (outZNCV st (subb (x 1) (x 0) false)).2)) s

/-- TST ( x -- x ), Z N; C, V := 0, R99. -/
def execTst (c : CoreId) (t : ThId) (s : State) : Answer :=
  stackOp c t 0x19 1 0 0 (fun x st => ([], flagsZNCV st (x 0) false false)) s

/-- MIN ( n1 n2 -- n3 ), signed, Z N, R99. -/
def execMin (c : CoreId) (t : ThId) (s : State) : Answer :=
  binOp c t 0x1A (fun st x y => outZN st (minS x y)) s

/-- MAX ( n1 n2 -- n3 ), signed, Z N, R99. -/
def execMax (c : CoreId) (t : ThId) (s : State) : Answer :=
  binOp c t 0x1B (fun st x y => outZN st (maxS x y)) s

/-- SATADD ( n1 n2 -- n3 ), R100. -/
def execSatadd (c : CoreId) (t : ThId) (s : State) : Answer :=
  binOp c t 0x1C (fun st x y => outSat st (x.toInt + y.toInt)) s

/-- SATSUB ( n1 n2 -- n3 ), R100. -/
def execSatsub (c : CoreId) (t : ThId) (s : State) : Answer :=
  binOp c t 0x1D (fun st x y => outSat st (x.toInt - y.toInt)) s

/-- ADD2 ( d1 d2 -- d1+d2 ), 48 bits, R99, R100. -/
def execAdd2 (c : CoreId) (t : ThId) (s : State) : Answer :=
  stackOp c t 0x1E 4 4 2 (fun x st => outZNCV2 st (addc (mkDbl (x 3) (x 2)) (mkDbl (x 1) (x 0)) false)) s

/-- SUB2 ( d1 d2 -- d1-d2 ), 48 bits, R99, R100. -/
def execSub2 (c : CoreId) (t : ThId) (s : State) : Answer :=
  stackOp c t 0x1F 4 4 2 (fun x st => outZNCV2 st (subb (mkDbl (x 3) (x 2)) (mkDbl (x 1) (x 0)) false)) s

/-- AND ( x1 x2 -- x3 ), Z N, R99. -/
def execAnd (c : CoreId) (t : ThId) (s : State) : Answer :=
  binOp c t 0x20 (fun st x y => outZN st (x &&& y)) s

/-- OR ( x1 x2 -- x3 ), Z N, R99. -/
def execOr (c : CoreId) (t : ThId) (s : State) : Answer :=
  binOp c t 0x21 (fun st x y => outZN st (x ||| y)) s

/-- XOR ( x1 x2 -- x3 ), Z N, R99. -/
def execXor (c : CoreId) (t : ThId) (s : State) : Answer :=
  binOp c t 0x22 (fun st x y => outZN st (x ^^^ y)) s

/-- NOT ( x -- ~x ), Z N, R99. -/
def execNot (c : CoreId) (t : ThId) (s : State) : Answer :=
  unOp c t 0x23 (fun st x => outZN st (~~~x)) s

/-- SHL ( x u -- x' ), R101. -/
def execShl (c : CoreId) (t : ThId) (s : State) : Answer :=
  binOp c t 0x24 (fun st x u => outShift shlC st x u) s

/-- SHR ( x u -- x' ), logical, R101. -/
def execShr (c : CoreId) (t : ThId) (s : State) : Answer :=
  binOp c t 0x25 (fun st x u => outShift shrC st x u) s

/-- SAR ( x u -- x' ), arithmetic, R101. -/
def execSar (c : CoreId) (t : ThId) (s : State) : Answer :=
  binOp c t 0x26 (fun st x u => outShift sarC st x u) s

/-- ROL ( x u -- x' ), R101. -/
def execRol (c : CoreId) (t : ThId) (s : State) : Answer :=
  binOp c t 0x27 (fun st x u => outShift rolC st x u) s

/-- SHL1 ( x -- x' ), R99, R101. -/
def execShl1 (c : CoreId) (t : ThId) (s : State) : Answer :=
  unOp c t 0x28 (fun st x => outShift shlC st x 1) s

/-- SHR1 ( x -- x' ), R99, R101. -/
def execShr1 (c : CoreId) (t : ThId) (s : State) : Answer :=
  unOp c t 0x29 (fun st x => outShift shrC st x 1) s

/-- SAR1 ( x -- x' ), R99, R101. -/
def execSar1 (c : CoreId) (t : ThId) (s : State) : Answer :=
  unOp c t 0x2A (fun st x => outShift sarC st x 1) s

/-- CLZ ( x -- u ), Z, R99. -/
def execClz (c : CoreId) (t : ThId) (s : State) : Answer :=
  unOp c t 0x2B (fun st x => outZ st (BitVec.ofNat 24 (leadZeros x 24))) s

/-- POPC ( x -- u ), Z, R99. -/
def execPopc (c : CoreId) (t : ThId) (s : State) : Answer :=
  unOp c t 0x2C (fun st x => outZ st (BitVec.ofNat 24 (popCount x 24))) s

/-- SEXT12 ( x -- n ), Z N, R99. -/
def execSext12 (c : CoreId) (t : ThId) (s : State) : Answer :=
  unOp c t 0x2D (fun st x => outZN st ((x.setWidth 12).signExtend 24)) s

/-- ZEXT12 ( x -- u ), Z, R99. -/
def execZext12 (c : CoreId) (t : ThId) (s : State) : Answer :=
  unOp c t 0x2E (fun st x => outZ st ((x.setWidth 12).setWidth 24)) s

/-- EXT2 ( n -- d ), sign-extended to 48 bits, Z N, R99. -/
def execExt2 (c : CoreId) (t : ThId) (s : State) : Answer :=
  stackOp c t 0x2F 1 1 2 (fun x st => let d : Dbl := (x 0).signExtend 48; (dblCells d, flagsZN st d)) s

/-- A syllable that moves a cell between the data stack and the return stack. -/
def returnOp (c : CoreId) (t : ThId) (k need net rpops rpushes : Nat) (f : Thread → Thread) (s : State) : Answer :=
  .next (issue c t
    { word := opW k, need := need, net := net, rpops := rpops, rpushes := rpushes,
      effect := fun r => r.modTh c t f } s)

/-- TOR ( x -- ) RS:( -- x ), R99, R135, R136. -/
def execTor (c : CoreId) (t : ThId) (s : State) : Answer :=
  returnOp c t 0x0C 1 0 0 1 (fun u => (u.rpush (u.top 0)).popPush 1 []) s

/-- FROMR ( -- x ) RS:( x -- ), R99, R135, R136. -/
def execFromr (c : CoreId) (t : ThId) (s : State) : Answer :=
  returnOp c t 0x0D 0 1 1 0 (fun u => u.rpop.popPush 0 [u.rtop]) s

/-- RFETCH ( -- x ) RS:( x -- x ): the top entry is copied; trap mode counts a pop and a push (R99, R135, log entry 38). -/
def execRfetch (c : CoreId) (t : ThId) (s : State) : Answer :=
  returnOp c t 0x0E 0 1 1 1 (fun u => u.popPush 0 [u.rtop]) s

/-- A product issued now becomes visible three syllables on; the thread's latest value is the product (R87, R103). -/
def Thread.addProduct (u : Thread) (d : Dbl) : Thread := { u with last := d, pend := u.pend ++ [(3, d)] }

/-- MUL, MULU and MAC: two operands popped, a product in flight (R87). -/
def mulOp (c : CoreId) (t : ThId) (k : Nat) (f : Dbl → Cell → Cell → Dbl) (s : State) : Answer :=
  .next (issue c t
    { word := opW k, need := 2,
      effect := fun r => r.modTh c t (fun u => (u.addProduct (f u.last (u.top 1) (u.top 0))).popPush 2 []) } s)

/-- MUL ( n1 n2 -- ), signed, R87, R102. -/
def execMul (c : CoreId) (t : ThId) (s : State) : Answer :=
  mulOp c t 0x30 (fun _ x y => BitVec.ofInt 48 (x.toInt * y.toInt)) s

/-- MULU ( u1 u2 -- ), unsigned, R87, R102. -/
def execMulu (c : CoreId) (t : ThId) (s : State) : Answer :=
  mulOp c t 0x31 (fun _ x y => BitVec.ofNat 48 (x.toNat * y.toNat)) s

/-- MAC ( n1 n2 -- ), onto the value that the latest MUL, MULU, MAC or MTS left, modulo 2^48, R102, R103. -/
def execMac (c : CoreId) (t : ThId) (s : State) : Answer :=
  mulOp c t 0x32 (fun d x y => d + BitVec.ofInt 48 (x.toInt * y.toInt)) s

/-- What MFL and MFH read (R87): with no product in flight the visible one; in LOOSE with one in flight the visible one,
and E; in STRICT the latest, which is waited for. -/
def readProduct (half : Dbl → Cell) (u : Thread) : Thread :=
  if u.pend.isEmpty then u.popPush 0 [half u.prod]
  else if strictOf u.status then u.popPush 0 [half u.last]
  else { (u.popPush 0 [half u.prod]) with status := setBit u.status 5 true }

/-- MFL ( -- x ), SR_MLO, R87, R102. -/
def execMfl (c : CoreId) (t : ThId) (s : State) : Answer :=
  .next (issue c t { word := opW 0x33, net := 1, effect := fun r => r.modTh c t (readProduct loCell) } s)

/-- MFH ( -- x ), SR_MHI, R87, R102. -/
def execMfh (c : CoreId) (t : ThId) (s : State) : Answer :=
  .next (issue c t { word := opW 0x34, net := 1, effect := fun r => r.modTh c t (readProduct hiCell) } s)

/-- DIV, DIVU and MOD: a locked sequence forbids them (R114). -/
def divOp (c : CoreId) (t : ThId) (k : Nat) (f : Cell → Cell → Cell × Bool) (s : State) : Answer :=
  .next (issue c t
    { word := opW k, need := 2, noLock := true,
      effect := fun r => r.modTh c t (fun u =>
        let o := outDiv u.status (f (u.top 1) (u.top 0))
        { (u.popPush 2 o.1) with status := o.2 }) } s)

/-- DIV ( n1 n2 -- q ), R102, R104. -/
def execDiv (c : CoreId) (t : ThId) (s : State) : Answer := divOp c t 0x35 divS s

/-- DIVU ( u1 u2 -- q ), R102, R104. -/
def execDivu (c : CoreId) (t : ThId) (s : State) : Answer := divOp c t 0x36 divU s

/-- MOD ( n1 n2 -- r ), R102, R104. -/
def execMod (c : CoreId) (t : ThId) (s : State) : Answer := divOp c t 0x37 modS s

/-- SQRT ( ud -- u ), R102; a locked sequence forbids it (R114). -/
def execSqrt (c : CoreId) (t : ThId) (s : State) : Answer :=
  .next (issue c t
    { word := opW 0x38, need := 2, noLock := true,
      effect := fun r => r.modTh c t (fun u =>
        let o := outSqrt u.status (u.topD 0)
        { (u.popPush 2 o.1) with status := o.2 }) } s)

end Sys2Proof.Machine
end

