-- ==== Sys2Proof/Machine/BitSyl.lean ====
section
/-! DEFINITION. Bit operations (section 4.8): the short bit ops and OP codes 0x50 to 0x56. -/

namespace Sys2Proof.Machine

/-- The bits that sources rewrite every SCLK cycle: TRIG levels and threshold outputs (R213). -/
def isLevelBit (a : Nat) : Bool := decide (0x10C0 ≤ a) && decide (a ≤ 0x10D3)

/-- A write of bit `a` by thread `t` (R107, R108). A cleared level bit is written again by its source before anything
else can read it (R213, log entry 8). -/
def State.writeBit (s : State) (c : CoreId) (t : ThId) (a : Nat) (b : Bool) : State :=
  if a < 0x80 then s.modTh c t (fun u => { u with bits := setBit u.bits a b })
  else if a < 0x1000 then s.modCore c (fun k => { k with bits := setBit k.bits a b })
  else if isLevelBit a then s
  else s.putEv a b

/-- What a bit operation does to its bit. -/
inductive BitAct where
  | set | clr | tst | tgl
deriving DecidableEq, Repr

/-- The X1 fault of a bit operation on bit address `a` (R108). -/
def bitFault (k : BitAct) (a : Nat) : Option FClass :=
  if 0x1400 ≤ a then some .buserr
  else if 0x1000 ≤ a then (match k with | .set | .tgl => some .buserr | .clr | .tst => none)
  else none

/-- The bit's new value from the old one. -/
def BitAct.app (k : BitAct) (old : Bool) : Bool :=
  match k with | .set => true | .clr => false | .tst => old | .tgl => !old

/-- One read-modify-write of bit `a`; B takes the old value (R108). -/
def State.bitRmw (s : State) (c : CoreId) (t : ThId) (k : BitAct) (a : Nat) : State :=
  let old := s.readBit c (s.th c t) a
  let s1 := match k with | .tst => s | _ => s.writeBit c t a (k.app old)
  s1.modTh c t (fun u => { u with status := flagB u.status old })

/-- A short bit op: its address is the immediate (R92, R107). -/
def shortBit (c : CoreId) (t : ThId) (o : Nat) (k : BitAct) (f : BitVec 7) (s : State) : Answer :=
  let a := rawImm (s.th c t) 7 f.toNat
  .next (issue c t
    { word := bitW o f, fault := (bitFault k a).map (fun x => (x, BitVec.ofNat 24 a)), watch := [.bit a],
      effect := fun r => r.bitRmw c t k a } s)

/-- A bit op with its address on the stack (R107, R108). -/
def stackBit (c : CoreId) (t : ThId) (code : Nat) (k : BitAct) (s : State) : Answer :=
  let ba := (s.th c t).top 0
  .next (issue c t
    { word := opW code, need := 1, fault := (bitFault k ba.toNat).map (fun x => (x, ba)), watch := [.bit ba.toNat],
      effect := fun r => (r.modTh c t (fun u => u.popPush 1 [])).bitRmw c t k ba.toNat } s)

/-- SETB, R107. -/
def execSetb (c : CoreId) (t : ThId) (a : BitVec 7) (s : State) : Answer := shortBit c t 0 .set a s
/-- CLRB, R107. -/
def execClrb (c : CoreId) (t : ThId) (a : BitVec 7) (s : State) : Answer := shortBit c t 1 .clr a s
/-- TSTB, R107. -/
def execTstb (c : CoreId) (t : ThId) (a : BitVec 7) (s : State) : Answer := shortBit c t 2 .tst a s
/-- TGLB, R107. -/
def execTglb (c : CoreId) (t : ThId) (a : BitVec 7) (s : State) : Answer := shortBit c t 3 .tgl a s
/-- SETBX ( ba -- ), R107, R108. -/
def execSetbx (c : CoreId) (t : ThId) (s : State) : Answer := stackBit c t 0x50 .set s
/-- CLRBX ( ba -- ), R107, R108. -/
def execClrbx (c : CoreId) (t : ThId) (s : State) : Answer := stackBit c t 0x51 .clr s
/-- TSTBX ( ba -- ), R107, R108. -/
def execTstbx (c : CoreId) (t : ThId) (s : State) : Answer := stackBit c t 0x52 .tst s
/-- TGLBX ( ba -- ), R107, R108. -/
def execTglbx (c : CoreId) (t : ThId) (s : State) : Answer := stackBit c t 0x53 .tgl s

/-- PUSHB ( ba -- f ), R107. -/
def execPushb (c : CoreId) (t : ThId) (s : State) : Answer :=
  let u := s.th c t
  let ba := u.top 0
  let b := s.readBit c u ba.toNat
  .next (issue c t
    { word := opW 0x54, need := 1, fault := (bitFault .tst ba.toNat).map (fun x => (x, ba)), watch := [.bit ba.toNat],
      effect := fun r => r.modTh c t (fun v =>
        { (v.popPush 1 [if b then 0xFFFFFF else 0]) with status := flagB v.status b }) } s)

/-- PUTB ( f ba -- ): the bit becomes 1 if f is not 0, else 0 (R107). -/
def execPutb (c : CoreId) (t : ThId) (s : State) : Answer :=
  let u := s.th c t
  let ba := u.top 0
  let k : BitAct := if u.top 1 = 0 then .clr else .set
  .next (issue c t
    { word := opW 0x55, need := 2, fault := (bitFault .set ba.toNat).map (fun x => (x, ba)), watch := [.bit ba.toNat],
      effect := fun r => (r.modTh c t (fun v => v.popPush 2 [])).bitRmw c t k ba.toNat } s)

/-- TSTE: B := E, then E := 0 (R107). -/
def execTste (c : CoreId) (t : ThId) (s : State) : Answer :=
  .next (issue c t
    { word := opW 0x56,
      effect := fun r => r.modTh c t (fun v =>
        { v with status := setBit (flagB v.status (v.status.getLsbD 5)) 5 false }) } s)

end Sys2Proof.Machine
end

