-- ==== Sys2Proof/Machine/Bellows.lean ====
section
/-! DEFINITION. The Bellows: spill areas and context blocks in memory, and SWAPCTX from its pop to its request (R129 to
R132, R138 to R141). -/

namespace Sys2Proof.Machine

/-- `n` cells from `a` overlap no store-buffer entry and no line of another core. -/
def State.cellsFree (s : State) (c : CoreId) (a n : Nat) : Bool :=
  (overCells (s.core c).sb a n).isEmpty && !s.linesHeld c a n

/-- A context block lies 64-cell aligned in local or shared memory (R138). -/
def blockPlace (a : Nat) : Bool := a % 64 = 0 && (region a = .local_ || region a = .shared)

/-- A context block is well-formed (R139); `b` are its cells. -/
def blockOk (b : List Cell) : Bool :=
  let x (i : Nat) : Nat := (b.getD i 0).toNat
  decide (x 0 < 2 ^ 14) && decide (x 1 < 2 ^ 20) && decide (x 2 < 2 ^ 17) && decide (x 14 < 2 ^ 8) && x 15 == 0 &&
  decide (x 2 % 64 ≤ 32) && decide (x 2 / 256 % 32 ≤ 16) && x 3 % 8 == 0 && x 4 % 8 == 0 && x 5 % 8 == 0 &&
  decide (x 3 + x 5 ≤ x 4)

/-- The group of a window is live (R140). -/
def liveGroup (w base g : Nat) : Bool := (List.range ((w + 7) / 8)).any (fun i => (base + i) % 4 = g)

/-- The first sixteen cells of a thread's context block, its SR_STATUS image first, `pc` its resume address (R138). -/
def Thread.ctxHead (u : Thread) (pc : PAddr) : List Cell :=
  [u.status, pc.setWidth 24, BitVec.ofNat 24 (u.w + 64 * u.base + 256 * u.rsd + 8192 * u.rsp), u.dsbase, u.dslimit,
   BitVec.ofNat 24 u.spc, loCell u.last, hiCell u.last, u.ll] ++
  (List.range 6).map (fun i => BitVec.ofNat 24 (fieldN u.bits (24 * i) 24)) ++ [0]

/-- The private bits of a context block. -/
def ctxBits (b : List Cell) : BitVec 128 :=
  BitVec.ofNat 128 (((List.range 6).map (fun i => (b.getD (9 + i) 0).toNat * 2 ^ (24 * i))).sum)

/-- A thread with the context of block `b` at `a` loaded (R140). The block was judged before the save (R139, R140); the
registers take the bits that they have. -/
def Thread.loadCtx (u : Thread) (a : Cell) (b : List Cell) : Thread :=
  let x (i : Nat) : Cell := b.getD i 0
  let w := fieldN (x 2) 0 6
  let base := fieldN (x 2) 6 2
  let prod := mkDbl (x 6) (x 7)
  { u with
    status := setBit (x 0 &&& 0x003FFF) 10 (escOf u.status), pc := BitVec.ofNat 20 (x 1).toNat, w := w, base := base,
    rsd := fieldN (x 2) 8 5, rsp := fieldN (x 2) 13 4, dsbase := areaCell (x 3), dslimit := areaCell (x 4), spc := (x 5).toNat,
    prod := prod, last := prod, pend := [], ll := x 8, bits := ctxBits b,
    rs := Vector.ofFn (fun i : Fin 16 => x (16 + i.val)),
    win := Vector.ofFn (fun i : Fin 32 => if liveGroup w base (i.val / 8) then x (32 + i.val) else u.win.get i.val),
    ctxa := a, dirty := 0 }

/-- The context of thread `u` saved into its block (R140). A CTXA from an image need not name a block: cells of it
outside local and shared memory are not written (log entry 104). -/
def State.saveCtx (s : State) (c : CoreId) (u : Thread) : State :=
  let b := u.ctxa.toNat
  let s1 := s.putCellsMem c b (u.ctxHead u.pc ++ u.rs.toList)
  (List.range 4).foldl (fun (r : State) g =>
    if u.dirty.getLsbD g && liveGroup u.w u.base g then
      r.putCellsMem c (b + 32 + 8 * g) ((List.range 8).map (fun p => u.win.get (8 * g + p)))
    else r) s1

/-- The eight cells that a fill reads upward from `a` (R126). What stands outside local and shared memory, where no spill
area lies (R131), is a free value (log entry 104). -/
def State.areaCells (s : State) (c : CoreId) (a : Nat) : List Cell :=
  (List.range 8).map (fun p =>
    match region (a + p) with
    | .local_ | .shared => s.cellMem c (a + p)
    | _ => Config.freeSpill s.free p)

/-- SWAPCTX raises BUSERR on its block: its operand was popped and its products are visible, nothing else has changed
(R140). -/
def State.swapFault (s : State) (c : CoreId) (t : ThId) (a : Cell) (pc : PAddr) : State :=
  ((s.modTh c t (fun u => { u with why := .none })).raise c t .buserr pc a).modCore c Core.retry

/-- Step 1 of a SWAPCTX of thread `u` to the block at `a` is over (R140): no transfer of the thread is in flight, its
deferred loads are complete, and the store-buffer entries over either block have drained. -/
def Core.swapDue (k : Core) (u : Thread) (a : Cell) : Bool :=
  u.xfer.isNone && u.dl.isEmpty && (overCells k.sb u.ctxa.toNat 64).isEmpty && (overCells k.sb a.toNat 64).isEmpty

/-- A SWAPCTX of thread `t` whose step 1 is over: its products count as visible, and with its block well-formed the
Bellows is asked for steps 3 and 4, else BUSERR is raised (R140). -/
def State.swapAsk (s : State) (c : CoreId) (t : ThId) : State :=
  let k := s.core c
  let u := s.th c t
  match u.why with
  | .swap a pc =>
    if k.bq.contains (.swap t) || k.bell == some (.swap t) || !k.swapDue u a then s
    else
      let s1 := s.modTh c t Thread.flushProducts
      if blockPlace a.toNat && blockOk (s.cellsMem c a.toNat 64) then s1.modCore c (fun q => { q with bq := q.bq ++ [.swap t] })
      else s1.swapFault c t a pc
  | _ => s

/-- Every thread of core `c` whose SWAPCTX may go on asks for it. -/
def State.swapsAsk (s : State) (c : CoreId) : State :=
  (List.range 8).foldl (fun (r : State) i => r.swapAsk c (BitVec.ofNat 3 i)) s

end Sys2Proof.Machine
end

