-- ==== Sys2Proof/Machine/Control.lean ====
section
/-! DEFINITION. RETE, WAIT, WAITN, TRAP, BRK, the special registers, SWAPCTX's issue and the phase reads (section 4.9,
chapters 05, 06, 15). -/

namespace Sys2Proof.Machine

/-- RETE ( -- ) RS:( pc status -- ), R156. -/
def execRete (c : CoreId) (t : ThId) (s : State) : Answer :=
  let u := s.th c t
  let p := u.rpop.rtop
  .next (issue c t
    { word := opW 0x5B, rpops := 2, noLock := true,
      fault := if !lvlOf u.status then some (.priv, 0) else if p.toNat < 2 ^ 20 then none else some (.buserr, p),
      effect := fun r => (r.modTh c t Thread.rete).traceRec c t 3 u.pc (BitVec.ofNat 20 p.toNat) } s)

/-- The range of the bit space that an address lies in (Table 1.7): private, core, event, none. -/
def bitRange (a : Nat) : Nat := if a < 0x80 then 0 else if a < 0x1000 then 1 else if a < 0x1400 then 2 else 3

/-- The lowest of the `n` bits from `a` that thread `u` reads as 1 (R148). -/
def State.lowBit (s : State) (c : CoreId) (u : Thread) (a n : Nat) : Option Nat := firstIdx (fun i => s.readBit c u (a + i)) n

/-- The thread stays at its WAIT or WAITN and is WAITING (R148). -/
def Thread.waitHere (u : Thread) (pc : PAddr) (many : Bool) : Thread := { u with st := .waiting, why := .bits many, pc := pc }

/-- WAIT ( ba -- ), R148. -/
def execWait (c : CoreId) (t : ThId) (s : State) : Answer :=
  let u := s.th c t
  let ba := u.top 0
  .next (issue c t
    { word := opW 0x5C, need := 1, noLock := true,
      fault := if bitRange ba.toNat = 3 then some (.buserr, ba) else none,
      effect := fun r => r.modTh c t (fun v =>
        if s.readBit c u ba.toNat then v.popPush 1 [] else v.waitHere u.pc false) } s)

/-- WAITN ( ba u -- i ), R148. A count outside 1 to 32 leaves OADDR 0, a bad range gives its first bit (log entry 9). -/
def execWaitn (c : CoreId) (t : ThId) (s : State) : Answer :=
  let u := s.th c t
  let ba := u.top 1
  let n := (u.top 0).toNat
  .next (issue c t
    { word := opW 0x5D, need := 2, noLock := true,
      fault :=
        if n = 0 ∨ 32 < n then some (.buserr, 0)
        else if bitRange ba.toNat = 3 ∨ bitRange (ba.toNat + n - 1) ≠ bitRange ba.toNat then some (.buserr, ba)
        else none,
      effect := fun r => r.modTh c t (fun v =>
        match s.lowBit c u ba.toNat n with
        | some i => v.popPush 2 [BitVec.ofNat 24 i]
        | none => v.waitHere u.pc true) } s)

/-- TRAP ( u -- ): enters vector 16 + u[2:0] whatever MASK is (R152, R155). -/
def execTrap (c : CoreId) (t : ThId) (s : State) : Answer :=
  let u := s.th c t
  .next (issue c t
    { word := opW 0x5E, need := 1, noLock := true,
      effect := fun r =>
        (r.modTh c t (fun v => v.popPush 1 [])).enter c t
          { kind := .trap, vec := 16 + (u.top 0).toNat % 8, pushPc := u.pc + 1, saddr := u.pc } } s)

/-- BRK: on an attached core it completes and the thread halts at the boundary after it, BRKHIT set; else ILLEGAL
(R416). -/
def execBrk (c : CoreId) (t : ThId) (s : State) : Answer :=
  .next (issue c t
    { word := opW 0x5F, noLock := true, illegal := !(s.core c).attached,
      effect := fun r => r.modTh c t (fun v => { v with haltReq := true, brkHit := true }) } s)

/-- Special register `n` of thread `t` as it reads once every product is visible (R111, Table 4.13). -/
def State.specialReg (s : State) (c : CoreId) (t : ThId) (n : Nat) : Dbl :=
  let u := s.th c t
  match n with
  | 0 => u.status.setWidth 48
  | 1 => (loCell u.last).setWidth 48
  | 2 => (hiCell u.last).setWidth 48
  | 3 => u.ll.setWidth 48
  | 4 => u.dsbase.setWidth 48
  | 5 => u.dslimit.setWidth 48
  | 6 => (s.core c).cyc
  | 7 => u.sylcnt
  | _ => BitVec.ofNat 48 (8 * c.toNat + t.toNat)

/-- An MFS, MFS2 or MTS of SR_MLO, SR_MHI or SR_LL waits for the thread's deferred loads (R111). -/
def Thread.srWaits (u : Thread) (n : Nat) : Bool := decide (1 ≤ n) && decide (n ≤ 3) && !u.dl.isEmpty

/-- FCLK cycles pass on a core before a read of SR_CYCLE: a free number of them (log entry 5), none while FCLK is gated
(R424). -/
def State.passCycles (s : State) (c : CoreId) (n : Nat) : State :=
  if n = 6 && s.fclkOn then (s.modCore c (fun k => { k with cyc := k.cyc + Config.freeCycles s.free })).draw else s

/-- A read of a special register that pushes `f` of its value (R111). -/
def readSpecial (c : CoreId) (t : ThId) (code net : Nat) (f : Dbl → List Cell) (s : State) : Answer :=
  let u := s.th c t
  let n := (u.top 0).toNat
  .next (issue c t
    { word := opW code, need := 1, net := net, waits := u.srWaits n,
      fault := if 8 < n then some (.buserr, u.top 0) else none,
      effect := fun r =>
        let r1 := r.passCycles c n
        r1.modTh c t (fun v =>
          (if 1 ≤ n ∧ n ≤ 3 then v.flushProducts else v).popPush 1 (f (r1.specialReg c t n))) } s)

/-- MFS ( u -- x ), R111. -/
def execMfs (c : CoreId) (t : ThId) (s : State) : Answer := readSpecial c t 0x60 0 (fun d => [loCell d]) s
/-- MFS2 ( u -- d ), R111. -/
def execMfs2 (c : CoreId) (t : ThId) (s : State) : Answer := readSpecial c t 0x62 1 dblCells s

/-- The fields of SR_STATUS closed to U: LVL, MASK, RSMODE, DECODE (R472). -/
def closedMask : Cell := 0x002BC0
/-- The fields that an MTS at U writes: the flags and TMODE. -/
def openMask : Cell := 0x00103F

/-- SR_STATUS after an MTS of `x` at M level or U level: ESC and the reserved bits are not written (R143, R472). -/
def mtsStatus (st x : Cell) (mlvl : Bool) : Cell :=
  let m := if mlvl then openMask ||| closedMask else openMask
  (st &&& ~~~m) ||| (x &&& m)

/-- The register write of MTS (R103, R111, R131). -/
def Thread.mts (u : Thread) (n : Nat) (x : Cell) : Thread :=
  match n with
  | 0 => { u with status := mtsStatus u.status x (lvlOf u.status) }
  | 1 => ({ u with last := mkDbl x (hiCell u.last) }).flushProducts
  | 2 => ({ u with last := mkDbl (loCell u.last) x }).flushProducts
  | 3 => { u.flushProducts with ll := x }
  | 4 => { u with dsbase := areaCell x }
  | 5 => { u with dslimit := areaCell x }
  | _ => u

/-- MTS ( x u -- ), R111, R131, R143. -/
def execMts (c : CoreId) (t : ThId) (s : State) : Answer :=
  let u := s.th c t
  let n := (u.top 0).toNat
  let x := u.top 1
  .next (issue c t
    { word := opW 0x61, need := 2,
      waits := u.srWaits n || ((n = 4 || n = 5) && u.xfer.isSome && lvlOf u.status),
      wait := if n = 4 || n = 5 then .area else .hold,
      fault :=
        if !lvlOf u.status && (n = 4 || n = 5 || (n = 0 && (u.status ^^^ x) &&& closedMask != 0)) then some (.priv, u.top 0)
        else if 8 < n then some (.buserr, u.top 0)
        else none,
      effect := fun r => r.modTh c t (fun v => (v.mts n x).popPush 2 []) } s)

/-- SWAPCTX ( a -- ) pops its operand and blocks its thread (R140). Step 1 goes on until a transfer that the pop calls
for, and the others, are over (`State.swapsAsk`). -/
def execSwapctx (c : CoreId) (t : ThId) (s : State) : Answer :=
  let u := s.th c t
  let a := u.top 0
  .next (issue c t
    { word := opW 0x63, need := 1, noLock := true, fault := if lvlOf u.status then none else some (.priv, 0),
      effect := fun r => (r.modCore c (fun k =>
        (k.modTh t (fun v => { (v.popPush 1 []) with st := .blocked, why := .swap a u.pc })).testXfer t)).swapAsk c t } s)

/-- A phase read pushes mirror values as double cells, all from one update (R52, R112). It takes a memory slot (R80). -/
def phaseRead (c : CoreId) (t : ThId) (code net : Nat) (f : Mirror → List Cell) (s : State) : Answer :=
  .next (issue c t
    { word := opW code, net := net, slot := true,
      effect := fun r => r.modTh c t (fun v => v.popPush 0 (f s.fb.mir)) } s)

/-- PHC ( -- d ), COURSE, R112. -/
def execPhc (c : CoreId) (t : ThId) (s : State) : Answer := phaseRead c t 0x68 2 (fun m => dblCells m.course) s
/-- PHK ( -- d ), CRANK, R112. -/
def execPhk (c : CoreId) (t : ThId) (s : State) : Answer := phaseRead c t 0x69 2 (fun m => dblCells m.crank) s
/-- PHT ( -- d ), TICK, R112. -/
def execPht (c : CoreId) (t : ThId) (s : State) : Answer := phaseRead c t 0x6A 2 (fun m => dblCells m.tick) s
/-- PH3 ( -- d_course d_crank d_tick ), R112. -/
def execPh3 (c : CoreId) (t : ThId) (s : State) : Answer :=
  phaseRead c t 0x6B 6 (fun m => dblCells m.course ++ dblCells m.crank ++ dblCells m.tick) s

/-- An unassigned OP code raises ILLEGAL in both decode modes (R120). -/
def execUnassignedOp (c : CoreId) (t : ThId) (k : BitVec 8) (s : State) : Answer :=
  .next (if unassignedCode k.toNat then issue c t { word := opW k.toNat, illegal := true, effect := id } s else s)

end Sys2Proof.Machine
end

