-- ==== Sys2Proof/Machine/Aes.lean ====
section
/-! DEFINITION. AES-256 with GCM, which opens a bundle's body (R187) and seals the secret signing state (R259), and with XTS,
which encrypts the lines of a log (R259). The spec names the standards; their text is not part of it (log entry 21). -/

namespace Sys2Proof.Machine

/-- A product in the AES field, over the low `n` bits of `y`. -/
def gfMul : Nat → Byte → Byte → Byte
  | 0, _, _ => 0
  | n + 1, x, y =>
    (if y.getLsbD 0 then x else 0) ^^^
      gfMul n ((x.shiftLeft 1) ^^^ (if x.getLsbD 7 then 0x1B else 0)) (y.ushiftRight 1)

/-- `x` to the power of `n` in the AES field. -/
def gfPow (x : Byte) : Nat → Byte
  | 0 => 1
  | n + 1 => gfMul 8 x (gfPow x n)

/-- The S-box: the inverse in the field, then the affine map. -/
def sbox (x : Byte) : Byte :=
  let b := gfPow x 254
  b ^^^ b.rotateLeft 1 ^^^ b.rotateLeft 2 ^^^ b.rotateLeft 3 ^^^ b.rotateLeft 4 ^^^ 0x63

/-- The next word of the key schedule: `i` its number, `old` the word eight before it, `prev` the word before it. -/
def keyWord (i : Nat) (old prev : List Byte) : List Byte :=
  let t :=
    if i % 8 = 0 then
      (((prev.drop 1 ++ prev.take 1).map sbox).zip [gfPow 2 (i / 8 - 1), 0, 0, 0]).map (fun p => p.1 ^^^ p.2)
    else if i % 8 = 4 then prev.map sbox
    else prev
  (old.zip t).map (fun p => p.1 ^^^ p.2)

/-- The key schedule: `n` further words after the words so far, newest first. -/
def keySched : Nat → Nat → List (List Byte) → List (List Byte)
  | 0, _, ws => ws
  | n + 1, i, ws => keySched n (i + 1) (keyWord i (ws.getD 7 []) (ws.headD []) :: ws)

/-- A key of 32 bytes as eight words. -/
def keyWords : Nat → List Byte → List (List Byte)
  | 0, _ => []
  | n + 1, l => l.take 4 :: keyWords n (l.drop 4)

/-- The fifteen round keys of a 256-bit key, as one byte list. -/
def roundKeys (key : List Byte) : List Byte := (keySched 52 8 (keyWords 8 key).reverse).reverse.flatten

/-- Two byte lists XORed. -/
def xorBytes (a b : List Byte) : List Byte := (a.zip b).map (fun p => p.1 ^^^ p.2)

/-- SubBytes and ShiftRows on a block held by columns. -/
def subShift (b : List Byte) : List Byte :=
  (List.range 16).map (fun i => sbox (b.getD ((i + 4 * (i % 4)) % 16) 0))

/-- MixColumns on one column. -/
def mixCol (c : List Byte) : List Byte :=
  let x (i : Nat) : Byte := c.getD (i % 4) 0
  (List.range 4).map (fun i => gfMul 8 (x i) 2 ^^^ gfMul 8 (x (i + 1)) 3 ^^^ x (i + 2) ^^^ x (i + 3))

/-- MixColumns. -/
def mixCols (b : List Byte) : List Byte := ((keyWords 4 b).map mixCol).flatten

/-- The rounds of AES-256 from round key `rk` on; `n` of them mix columns. -/
def aesRounds : Nat → List Byte → List Byte → List Byte
  | 0, rk, b => xorBytes (subShift b) (rk.take 16)
  | n + 1, rk, b => aesRounds n (rk.drop 16) (xorBytes (mixCols (subShift b)) (rk.take 16))

/-- AES-256 encryption of a block. -/
def aes256 (key b : List Byte) : List Byte :=
  let rk := roundKeys key
  aesRounds 13 (rk.drop 16) (xorBytes b (rk.take 16))

/-- A product in the GCM field: bit 127 of a block is its first bit. -/
def ghMul : Nat → BitVec 128 → BitVec 128 → BitVec 128
  | 0, _, _ => 0
  | n + 1, x, v =>
    (if x.getLsbD n then v else 0) ^^^
      ghMul n x ((v.ushiftRight 1) ^^^ (if v.getLsbD 0 then 0xE1000000000000000000000000000000 else 0))

/-- GHASH over `n` blocks of a byte list. -/
def ghash (h : BitVec 128) : Nat → List Byte → BitVec 128 → BitVec 128
  | 0, _, y => y
  | n + 1, l, y => ghash h n (l.drop 16) (ghMul 128 (y ^^^ BitVec.ofNat 128 (beNat (bytesAt l 0 16))) h)

/-- The key stream of `n` blocks from counter `c`. -/
def ctrStream (key iv : List Byte) : Nat → Nat → List Byte
  | 0, _ => []
  | n + 1, c => aes256 key (iv ++ beBytes 4 c) ++ ctrStream key iv n (c + 1)

/-- A byte list padded to whole blocks. -/
def padBlocks (l : List Byte) : List Byte := l ++ List.replicate ((16 - l.length % 16) % 16) 0

/-- The GCM tag of a ciphertext with its additional data, under a 96-bit IV. -/
def gcmTag (key iv aad ct : List Byte) : List Byte :=
  let h : BitVec 128 := BitVec.ofNat 128 (beNat (aes256 key (List.replicate 16 0)))
  let x := padBlocks aad ++ padBlocks ct ++ beBytes 8 (8 * aad.length) ++ beBytes 8 (8 * ct.length)
  let g := ghash h (x.length / 16) x 0
  xorBytes (beBytes 16 g.toNat) (aes256 key (iv ++ beBytes 4 1))

/-- The GCM key stream over a text: encryption and decryption are the same. -/
def gcmText (key iv text : List Byte) : List Byte := xorBytes text (ctrStream key iv ((text.length + 15) / 16) 2)

/-- AES-256-GCM decryption with a 96-bit IV: the plaintext, or none when the tag does not match. -/
def gcmOpen (key iv aad ct tag : List Byte) : Option (List Byte) :=
  if gcmTag key iv aad ct = tag then some (gcmText key iv ct) else none

/-- AES-256-GCM encryption with a 96-bit IV: the ciphertext and its tag. -/
def gcmSeal (key iv aad text : List Byte) : List Byte × List Byte :=
  let ct := gcmText key iv text
  (ct, gcmTag key iv aad ct)

/-- A tweak times the primitive element of the XTS field: a little-endian number of 128 bits (IEEE 1619). -/
def xtsNext (t : BitVec 128) : BitVec 128 := (t.shiftLeft 1) ^^^ (if t.msb then 0x87 else 0)

/-- AES-256-XTS encryption of `n` whole blocks under the tweak `t`. -/
def xtsBlocks (key : List Byte) : Nat → BitVec 128 → List Byte → List Byte
  | 0, _, _ => []
  | n + 1, t, l =>
    let tw := leBytes 16 t.toNat
    xorBytes (aes256 key (xorBytes (bytesAt l 0 16) tw)) tw ++ xtsBlocks key n (xtsNext t) (l.drop 16)

/-- The 64 bytes of line `line` as they stand in an encrypted partition: AES-256-XTS under the two halves of the vault
key, the tweak being the line number (R259). -/
def xtsLine (key : List Byte) (line : Nat) (l : List Byte) : List Byte :=
  let t := aes256 (bytesAt key 32 32) (leBytes 16 line)
  xtsBlocks (bytesAt key 0 32) 4 (BitVec.ofNat 128 (leNat t)) l

end Sys2Proof.Machine
end

