-- ==== Sys2Proof/Machine/Hash.lean ====
section
/-! DEFINITION. SHA-256, HMAC-SHA-256, the Merkle root of R244 and the CRC-32 of R266 and R362. The spec names the
standards; their text is not part of it (log entry 21). -/

namespace Sys2Proof.Machine

/-- A SHA-256 word. -/
abbrev W32 := BitVec 32

/-- The round constants, eight to a number, the first in its highest 32 bits: the first 32 fraction bits of the cube roots of
the first 64 primes. -/
def shaConst : List Nat :=
  [0x428A2F9871374491B5C0FBCFE9B5DBA53956C25B59F111F1923F82A4AB1C5ED5,
   0xD807AA9812835B01243185BE550C7DC372BE5D7480DEB1FE9BDC06A7C19BF174,
   0xE49B69C1EFBE47860FC19DC6240CA1CC2DE92C6F4A7484AA5CB0A9DC76F988DA,
   0x983E5152A831C66DB00327C8BF597FC7C6E00BF3D5A7914706CA635114292967,
   0x27B70A852E1B21384D2C6DFC53380D13650A7354766A0ABB81C2C92E92722C85,
   0xA2BFE8A1A81A664BC24B8B70C76C51A3D192E819D6990624F40E3585106AA070,
   0x19A4C1161E376C082748774C34B0BCB5391C0CB34ED8AA4A5B9CCA4F682E6FF3,
   0x748F82EE78A5636F84C878148CC7020890BEFFFAA4506CEBBEF9A3F7C67178F2]
/-- The constant of round `i`. -/
def shaK (i : Nat) : W32 := BitVec.ofNat 32 (shaConst.getD (i / 8) 0 >>> (224 - 32 * (i % 8)))

/-- The eight working variables. -/
structure Sha where
  a : W32
  b : W32
  c : W32
  d : W32
  e : W32
  f : W32
  g : W32
  h : W32
deriving DecidableEq, Repr

/-- The initial hash value. -/
def sha0 : Sha :=
  { a := 0x6a09e667, b := 0xbb67ae85, c := 0x3c6ef372, d := 0xa54ff53a,
    e := 0x510e527f, f := 0x9b05688c, g := 0x1f83d9ab, h := 0x5be0cd19 }

/-- One round with constant `k` and schedule word `w`. -/
def Sha.round (s : Sha) (k w : W32) : Sha :=
  let s1 := s.e.rotateRight 6 ^^^ s.e.rotateRight 11 ^^^ s.e.rotateRight 25
  let t1 := s.h + s1 + ((s.e &&& s.f) ^^^ (~~~s.e &&& s.g)) + k + w
  let s0 := s.a.rotateRight 2 ^^^ s.a.rotateRight 13 ^^^ s.a.rotateRight 22
  let t2 := s0 + ((s.a &&& s.b) ^^^ (s.a &&& s.c) ^^^ (s.b &&& s.c))
  { a := t1 + t2, b := s.a, c := s.b, d := s.c, e := s.d + t1, f := s.e, g := s.f, h := s.g }

/-- The schedule word sixteen after the first of a window. -/
def shaNext (ws : List W32) : W32 :=
  let w (i : Nat) : W32 := ws.getD i 0
  let g1 := (w 14).rotateRight 17 ^^^ (w 14).rotateRight 19 ^^^ (w 14).ushiftRight 10
  let g0 := (w 1).rotateRight 7 ^^^ (w 1).rotateRight 18 ^^^ (w 1).ushiftRight 3
  g1 + w 9 + g0 + w 0

/-- The last `n` of the 64 rounds, the window of sixteen schedule words sliding. -/
def shaRounds : Nat → List W32 → Sha → Sha
  | 0, _, s => s
  | n + 1, ws, s => shaRounds n (ws.tail ++ [shaNext ws]) (s.round (shaK (63 - n)) (ws.headD 0))

/-- One block of sixteen words. -/
def Sha.block (s : Sha) (ws : List W32) : Sha :=
  let r := shaRounds 64 ws s
  { a := s.a + r.a, b := s.b + r.b, c := s.c + r.c, d := s.d + r.d,
    e := s.e + r.e, f := s.f + r.f, g := s.g + r.g, h := s.h + r.h }

/-- `n` big-endian words of a byte list. -/
def beWords : Nat → List Byte → List W32
  | 0, _ => []
  | n + 1, l => BitVec.ofNat 32 (beNat (l.take 4)) :: beWords n (l.drop 4)

/-- The blocks of a padded message. -/
def shaBlocks : Nat → List Byte → Sha → Sha
  | 0, _, s => s
  | n + 1, l, s => shaBlocks n (l.drop 64) (s.block (beWords 16 l))

/-- SHA-256. -/
def sha256 (m : List Byte) : List Byte :=
  let z := (119 - m.length % 64) % 64
  let p := m ++ [0x80] ++ List.replicate z 0 ++ beBytes 8 (8 * m.length)
  let s := shaBlocks (p.length / 64) p sha0
  ([s.a, s.b, s.c, s.d, s.e, s.f, s.g, s.h].map (fun w => beBytes 4 w.toNat)).flatten

/-- HMAC-SHA-256. -/
def hmac (key m : List Byte) : List Byte :=
  let k0 := if 64 < key.length then sha256 key else key
  let k := k0 ++ List.replicate (64 - k0.length) 0
  sha256 (k.map (· ^^^ 0x5c) ++ sha256 (k.map (· ^^^ 0x36) ++ m))

/-- The largest power of two below `m`, with fuel. -/
def pow2Below : Nat → Nat → Nat → Nat
  | 0, k, _ => k
  | n + 1, k, m => if 2 * k < m then pow2Below n (2 * k) m else k

/-- The root of the leaves' hashes, by fuel (R244). -/
def mthFuel : Nat → List (List Byte) → List Byte
  | 0, _ => []
  | n + 1, l =>
    match l with
    | [] => []
    | [x] => sha256 (0x00 :: x)
    | l =>
      let k := pow2Below l.length 1 l.length
      sha256 (0x01 :: (mthFuel n (l.take k) ++ mthFuel n (l.drop k)))

/-- The Merkle root of a cord's leaves (R244). -/
def mth (l : List (List Byte)) : List Byte := mthFuel (l.length + 1) l

/-- Eight steps of the reflected CRC-32 register. -/
def crcStep : Nat → W32 → W32
  | 0, c => c
  | n + 1, c => crcStep n (if c.getLsbD 0 then (c.ushiftRight 1) ^^^ 0xEDB88320 else c.ushiftRight 1)

/-- The CRC-32 of IEEE 802.3 (R266, R362). -/
def crc32 (l : List Byte) : W32 :=
  ~~~(l.foldl (fun (c : W32) b => crcStep 8 (c ^^^ b.setWidth 32)) 0xFFFFFFFF)

end Sys2Proof.Machine
end

