-- ==== Sys2Proof/Machine/Lms.lean ====
section
/-! DEFINITION. LMS and HSS signatures as RFC 8554 defines them (R185, R246, R247): verification, and signing with keys
generated by its Appendix A. The spec names the standard; its text is not part of it (log entry 21). The randomizer C
of a signature is a free value (R247 fixes none). -/

namespace Sys2Proof.Machine

/-- The Winternitz width in bits of an LM-OTS type that R185 and R246 allow: 3 is W4, 4 is W8. -/
def otsW (ty : Nat) : Option Nat := if ty = 3 then some 4 else if ty = 4 then some 8 else none
/-- The height of an LMS type that R185 allows. -/
def lmsH (ty : Nat) : Option Nat := if ty = 6 then some 10 else if ty = 7 then some 15 else if ty = 8 then some 20 else none
/-- The chains of a width. -/
def otsP (w : Nat) : Nat := if w = 4 then 67 else 34

/-- Digit `i` of width `w` of a byte string. -/
def otsCoef (s : List Byte) (i w : Nat) : Nat :=
  ((s.getD (i * w / 8) 0).toNat / 2 ^ (8 - (w * (i % (8 / w)) + w))) % 2 ^ w

/-- The checksum of a digest, two bytes. -/
def otsCksm (q : List Byte) (w : Nat) : List Byte :=
  let sum := ((List.range (256 / w)).map (fun i => 2 ^ w - 1 - otsCoef q i w)).sum
  beBytes 2 (sum * (if w = 4 then 16 else 1))

/-- `n` steps of a chain from step `j`. -/
def otsChain (pre : List Byte) : Nat → Nat → List Byte → List Byte
  | 0, _, x => x
  | n + 1, j, x => otsChain pre n (j + 1) (sha256 (pre ++ beBytes 1 j ++ x))

/-- The prefix of chain `i` of leaf `q` of the tree `id`. -/
def otsPre (id : List Byte) (q i : Nat) : List Byte := id ++ beBytes 4 q ++ beBytes 2 i

/-- The digest of a message with randomizer `c`. -/
def otsDigest (id : List Byte) (q : Nat) (c m : List Byte) : List Byte :=
  sha256 (id ++ beBytes 4 q ++ [0x81, 0x81] ++ c ++ m)

/-- The one-time public key that a signature on a message implies. -/
def otsCandidate (id : List Byte) (q w : Nat) (c y m : List Byte) : List Byte :=
  let d := otsDigest id q c m
  let s := d ++ otsCksm d w
  let z := (List.range (otsP w)).map (fun i =>
    let a := otsCoef s i w
    otsChain (otsPre id q i) (2 ^ w - 1 - a) a (bytesAt y (32 * i) 32))
  sha256 (id ++ beBytes 4 q ++ [0x80, 0x80] ++ z.flatten)

/-- The root reached from node `r` with value `t` along a path, by its height. -/
def lmsClimb (id path : List Byte) : Nat → Nat → Nat → List Byte → List Byte
  | 0, _, _, t => t
  | n + 1, i, r, t =>
    let p := bytesAt path (32 * i) 32
    lmsClimb id path n (i + 1) (r / 2)
      (sha256 (id ++ beBytes 4 (r / 2) ++ [0x83, 0x83] ++ (if r % 2 = 1 then p ++ t else t ++ p)))

/-- The bytes of an LMS signature of width `w` and height `h`. -/
def lmsSigLen (w h : Nat) : Nat := 4 + (4 + 32 + 32 * otsP w) + 4 + 32 * h

/-- The types, width and height of a 56-byte public key, when R185 allows them. -/
def lmsPub (pub : List Byte) : Option (Nat × Nat × Nat × Nat) :=
  let lt := beNat (bytesAt pub 0 4)
  let ot := beNat (bytesAt pub 4 4)
  match lmsH lt, otsW ot with
  | some h, some w => if pub.length = 56 then some (lt, ot, h, w) else none
  | _, _ => none

/-- LMS verification (RFC 8554, section 5.4.2). -/
def lmsVerify (pub m sig : List Byte) : Bool :=
  match lmsPub pub with
  | none => false
  | some (lt, ot, h, w) =>
    let id := bytesAt pub 8 16
    let q := beNat (bytesAt sig 0 4)
    let o := 40 + 32 * otsP w
    if sig.length ≠ lmsSigLen w h ∨ 2 ^ h ≤ q ∨ beNat (bytesAt sig 4 4) ≠ ot ∨ beNat (bytesAt sig o 4) ≠ lt then false
    else
      let k := otsCandidate id q w (bytesAt sig 8 32) (bytesAt sig 40 (32 * otsP w)) m
      let leaf := sha256 (id ++ beBytes 4 (2 ^ h + q) ++ [0x82, 0x82] ++ k)
      lmsClimb id (sig.drop (o + 4)) h 0 (2 ^ h + q) leaf == bytesAt pub 24 32

/-- The private element of chain `i` of leaf `q` (RFC 8554, Appendix A). -/
def otsPriv (seed id : List Byte) (q i : Nat) : List Byte := sha256 (otsPre id q i ++ [0xff] ++ seed)

/-- The one-time public key of leaf `q`. -/
def otsPubKey (seed id : List Byte) (q w : Nat) : List Byte :=
  sha256 (id ++ beBytes 4 q ++ [0x80, 0x80] ++
    ((List.range (otsP w)).map (fun i => otsChain (otsPre id q i) (2 ^ w - 1) 0 (otsPriv seed id q i))).flatten)

/-- Node `r` of a tree, `n` levels above its leaves; the tree has height `h`. -/
def lmsNode (seed id : List Byte) (h w : Nat) : Nat → Nat → List Byte
  | 0, r => sha256 (id ++ beBytes 4 r ++ [0x82, 0x82] ++ otsPubKey seed id (r - 2 ^ h) w)
  | n + 1, r =>
    sha256 (id ++ beBytes 4 r ++ [0x83, 0x83] ++ lmsNode seed id h w n (2 * r) ++ lmsNode seed id h w n (2 * r + 1))

/-- The 56-byte public key of an H20 tree (R246). -/
def treePub (w8 : Bool) (seed id : List Byte) : List Byte :=
  beBytes 4 8 ++ beBytes 4 (if w8 then 4 else 3) ++ id ++ lmsNode seed id 20 (if w8 then 8 else 4) 20 1

/-- The signature of a message with leaf `q` of an H20 tree, from its one-time type to its path (R247). -/
def treeSign (w8 : Bool) (seed id : List Byte) (q : Nat) (m : List Byte) : List Byte :=
  let w := if w8 then 8 else 4
  let c := (List.range 32).map (fun k => Config.lmsC id q k)
  let d := otsDigest id q c m
  let s := d ++ otsCksm d w
  let y := ((List.range (otsP w)).map (fun i => otsChain (otsPre id q i) (otsCoef s i w) 0 (otsPriv seed id q i))).flatten
  let path := ((List.range 20).map (fun i =>
    let r := (2 ^ 20 + q) / 2 ^ i
    lmsNode seed id 20 w i (if r % 2 = 0 then r + 1 else r - 1))).flatten
  beBytes 4 q ++ beBytes 4 (if w8 then 4 else 3) ++ c ++ y ++ beBytes 4 8 ++ path

end Sys2Proof.Machine
end

