-- ==== Sys2Proof/Machine/Ember.lean ====
section
/-! DEFINITION. The Ember ring engine (sections 8.2 to 8.8) and the ring cells that configure it (R477): entries,
freezes, windows, missed triggers, event bits and event queues, releases, enabling and disabling. -/

namespace Sys2Proof.Machine

/-- Cells in a ring (R477: 0 means 2,097,152). -/
def EmRing.lenN (r : EmRing) : Nat := if r.len = 0 then 2097152 else r.len.toNat
/-- Cells in an area: the ring in SINGLE, a half in PAIRED (R199, R200). -/
def EmRing.area (r : EmRing) : Nat := if r.paired then r.lenN / 2 else r.lenN
/-- The first cell of the area that a half names. -/
def EmRing.lo (r : EmRing) (h : Bool) : Nat := r.base.toNat + (if h then r.area else 0)
/-- The state of a half. -/
def EmRing.half (r : EmRing) (h : Bool) : HState := if h then r.h1 else r.h0
/-- The ring with a half's state put. -/
def EmRing.setHalf (r : EmRing) (h : Bool) (x : HState) : EmRing := if h then { r with h1 := x } else { r with h0 := x }
/-- A half accepts writes: ARMED or POST (R208, R209). -/
def HState.active (h : HState) : Bool := h = .armed || h = .post
/-- The half that is ARMED or POST, if one is (R209). -/
def EmRing.active (r : EmRing) : Option Bool :=
  if !r.en then none else if r.h0.active then some false else if r.h1.active then some true else none
/-- The TAG of a channel in a ring: its entry in CHMAP (R196, R198). -/
def EmRing.tagOf (r : EmRing) (ch : Nat) : Option Nat :=
  firstIdx (fun i => (r.chmap.get i).getLsbD 23 && fieldN (r.chmap.get i) 0 6 = ch) 16

/-- An event queue takes an entry, or counts it and marks the core's open logs when it is full (R214, R215). -/
def State.pushEq (s : State) (c : CoreId) (e : Dbl) : State :=
  if (s.core c).embq.length < 32 then s.modCore c (fun k => { k with embq := k.embq ++ [e] })
  else
    let t := s.fb.mir.tick
    (s.modCnt c (fun n => { n with eqOvf := satInc n.eqOvf })).modHs (fun h =>
      { h with slots := h.slots.map (fun l =>
          if l.core = c && l.state = .open_ then
            { l with storm := match l.storm with
                | none => some (1, t, t)
                | some (n, f, _) => some (satInc n, f, t) }
          else l) })

/-- An Ember event: its bit is set and its queue entry pushed; `kd` is 1 FRZ, 2 WIN, 3 MISS, 4 TRUNC (R213, R214). -/
def State.emEvent (s : State) (r kd src : Nat) (tick : Dbl) : State :=
  let e := BitVec.ofNat 48 (kd * 2 ^ 44 + r * 2 ^ 40 + (if kd = 1 ∨ kd = 3 then src % 32 else 0) * 2 ^ 35 + tick.toNat % 2 ^ 32)
  (s.setEv (0x1080 + 4 * r + (kd - 1))).pushEq (s.fb.rings.get r).core e

/-- The post window of a ring ends: the half goes to HELD and a FREE other half is armed (R208, R209). -/
def EmRing.endPost (r : EmRing) (trunc : Bool) : EmRing :=
  match r.active with
  | some h =>
    if r.half h = .post then
      let r1 := { (r.setHalf h .held) with
                  wins := r.wins.map (fun w => if !w.dead && !w.complete then { w with complete := true, trunc := w.trunc || trunc } else w) }
      if r.paired && r1.half (!h) = .free then { (r1.setHalf (!h) .armed) with wp := 0, depth := 0 } else r1
    else r
  | none => r

/-- The post window of ring `i` is complete or is ended: WIN, and TRUNC when it was cut (R213, R221). -/
def State.endPost (s : State) (i : Nat) (trunc : Bool) : State :=
  let s1 := (s.modRing i (fun r => r.endPost trunc)).emEvent i 2 0 s.fb.mir.tick
  if trunc then s1.emEvent i 4 0 s.fb.mir.tick else s1

/-- The Ember cells of an entry with TAG `tag` (R196, R197). -/
def entryCells (e : StreamEntry) (tag : Nat) : List Cell :=
  match e.cells with
  | [] => []
  | x :: r =>
    BitVec.ofNat 24 (b2n (!r.isEmpty) * 2 ^ 23 + b2n e.g * 2 ^ 21 + b2n e.q * 2 ^ 20 + tag * 2 ^ 16 + x.toNat) ::
      r.map (fun y => BitVec.ofNat 24 (2 ^ 22 + tag * 2 ^ 16 + y.toNat))

/-- Cells written into an area from offset `wp`, wrapping (R200). -/
def writeArea (m : Mem 24) (lo size wp : Nat) : List Cell → Mem 24
  | [] => m
  | v :: r => writeArea (memWrite m (lo + wp) v) lo size ((wp + 1) % size) r

/-- An entry of a mapped channel is written into ring `i` if it accepts writes; a POST window that has its cells is
complete at the end of the entry (R200, R207, R208). -/
def State.ringEntry (s : State) (i : Nat) (e : StreamEntry) : State :=
  let r := s.fb.rings.get i
  match r.active, r.tagOf e.ch with
  | some h, some tag =>
    let cs := entryCells e tag
    let n := cs.length
    let s1 := s.modFb (fun f => { f with ember := writeArea f.ember (r.lo h) r.area r.wp cs })
    let post := r.half h = .post
    let s2 := s1.modRing i (fun q =>
      { q with wp := (q.wp + n) % q.area, depth := q.depth + n,
               wins := if post then q.wins.map (fun w => if !w.dead && !w.complete then { w with postw := w.postw + n } else w)
                       else q.wins })
    if post && (s2.fb.rings.get i).wins.any (fun w => !w.dead && !w.complete && decide (r.post.toNat ≤ w.postw)) then
      s2.endPost i false
    else s2
  | _, _ => s

/-- EN of capture channel `n` (R190, R479). -/
def Capture.chanEn (c : Capture) (n : Nat) : Bool := (memRead c.objs (0x0F3010 + 2 * n)).getLsbD 0

/-- The channels that a ring maps are all stopped (R213, R221). -/
def State.stoppedFor (s : State) (r : EmRing) : Bool :=
  s.fb.plink.down || (List.range 48).all (fun n => (r.tagOf n).isNone || !s.pil.cap.chanEn n)

/-- The pre depth, reduced until the window starts on no continuation cell (R207). -/
def preDepth (m : Mem 24) (lo size fp : Nat) : Nat → Nat
  | 0 => 0
  | d + 1 => if (memRead m (lo + (fp + size - (d + 1) % size) % size)).getLsbD 22 then preDepth m lo size fp d else d + 1

/-- A trigger that reaches the ring engine: its source and stamps, and its record's number when it waits for one. -/
structure Trig where
  src : Nat
  tick : Dbl
  course : Dbl
  crank : Dbl
  wait : Option Nat := none

/-- A trigger that waits for no record, or that can get none, with the mirror's stamps (R205, R211, R213). -/
def State.mirTrig (s : State) (src : Nat) : Trig :=
  { src := src, tick := s.fb.mir.tick, course := s.fb.mir.course, crank := s.fb.mir.crank }

/-- Ring `i` freezes its ARMED half `h` (R207 to R210, R213). -/
def State.freeze (s : State) (i : Nat) (h : Bool) (g : Trig) : State :=
  let r := s.fb.rings.get i
  let d := preDepth s.fb.ember (r.lo h) r.area r.wp (min r.pre.toNat r.depth)
  let m := s.fb.mir
  let w : Win :=
    { half := h, lo := r.lo h, size := r.area, fp := r.wp, d := d, src := if g.wait.isSome then 0x1F else g.src,
      tick := if g.wait.isSome then 0 else g.tick, course := if g.wait.isSome then 0 else g.course,
      crank := if g.wait.isSome then 0 else g.crank, wait := g.wait, mTick := m.tick, mCourse := m.course,
      mCrank := m.crank, shortPre := decide (d < r.pre.toNat) }
  let s1 := s.modRing i (fun q => { (q.setHalf h .post) with wins := q.wins ++ [w] })
  let s2 := if g.wait.isSome then s1 else s1.emEvent i 1 g.src g.tick
  if s.stoppedFor r then s2.endPost i true else s2

/-- Ring `i` misses a trigger (R211). A trigger whose record is still to come sets MISS with it. -/
def State.miss (s : State) (i : Nat) (g : Trig) : State :=
  let s1 := s.modRing i (fun r =>
    { r with missed := satInc r.missed,
             mlist := if r.mlist.length < 8 then r.mlist ++ [{ src := g.src, tick := g.tick, wait := g.wait }] else r.mlist,
             waitMiss := match g.wait with
               | some id => if r.mlist.length < 8 then r.waitMiss else r.waitMiss ++ [id]
               | none => r.waitMiss })
  if g.wait.isSome then s1 else s1.emEvent i 3 g.src g.tick

/-- A trigger reaches ring `i`: ignored while EN = 0, a freeze of the ARMED half, else missed (R208, R209, R211). -/
def State.trigger (s : State) (i : Nat) (g : Trig) : State :=
  let r := s.fb.rings.get i
  if !r.en then s
  else
    match r.active with
    | some h => if r.half h = .armed then s.freeze i h g else s.miss i g
    | none => s.miss i g

/-- A window takes the record that it waits for, or the mirror's stamps where that is lost (R211 to R213). -/
def Win.take (w : Win) (g : Trig) (lost : Bool) : Win :=
  { w with wait := none, src := g.src, tick := if lost then w.mTick else g.tick,
           course := if lost then w.mCourse else g.course, crank := if lost then w.mCrank else g.crank }
/-- An entry of the missed-trigger list takes record `id` if it waits for it (R211). -/
def Missed.take (x : Missed) (id : Nat) (g : Trig) (lost : Bool) : Missed :=
  if x.wait = some id then { src := g.src, tick := if lost then x.tick else g.tick } else x
/-- The missed triggers kept for a window of a ring that is enabled again take record `id` (R211, R222). -/
def Win.oldTake (w : Win) (id : Nat) (g : Trig) (lost : Bool) : Win :=
  { w with old := w.old.map (fun o => { o with list := o.list.map (fun x => x.take id g lost) }) }

/-- A trigger record, or the loss of it, reaches ring `i`: the window, the list entry or the uncounted miss that waits
for record `id` is completed, and FRZ or MISS is set (R211, R213, R214); of a window and a list of a ring disabled
meanwhile no bit is set (R222). -/
def State.record (s : State) (i id : Nat) (g : Trig) (lost : Bool) : State :=
  let r := s.fb.rings.get i
  match r.wins.find? (fun w => w.wait = some id), r.mlist.find? (fun x => x.wait = some id) with
  | some w, _ =>
    let s1 := s.modRing i (fun q => { q with wins := q.wins.map (fun x => if x.wait = some id then x.take g lost else x) })
    if w.dead then s1 else s1.emEvent i 1 g.src (w.take g lost).tick
  | none, some x =>
    let s1 := s.modRing i (fun q => { q with mlist := q.mlist.map (fun y => y.take id g lost) })
    if r.en then s1.emEvent i 3 g.src (x.take id g lost).tick else s1
  | none, none =>
    if r.waitMiss.contains id then
      let s1 := s.modRing i (fun q => { q with waitMiss := q.waitMiss.filter (· ≠ id) })
      if r.en then s1.emEvent i 3 g.src (if lost then s.fb.mir.tick else g.tick) else s1
    else s.modRing i (fun q => { q with wins := q.wins.map (fun x => x.oldTake id g lost) })

/-- The records that can no longer come: those of `ids` in every ring, with source code 0x1F (R211, R213). -/
def State.loseRecords (s : State) : State :=
  (List.range 16).foldl (fun (q : State) i =>
    let r := q.fb.rings.get i
    let olds := (r.wins.filterMap (·.old)).flatMap (·.list)
    let ids := (r.wins.filterMap (·.wait)) ++ ((r.mlist ++ olds).filterMap (·.wait)) ++ r.waitMiss
    ids.foldl (fun (p : State) id => p.record i id { src := 0x1F, tick := 0, course := 0, crank := 0 } true) q) s

/-- A half is freed by a release or a completed copy (R208, R209). -/
def EmRing.freeHalf (r : EmRing) (h : Bool) : EmRing :=
  if !r.paired then { r with h0 := .armed, depth := 0 }
  else if (r.half (!h)).active then r.setHalf h .free
  else { (r.setHalf h .armed) with wp := 0, depth := 0 }

/-- The oldest frozen window of an enabled ring (R216). -/
def EmRing.oldest (r : EmRing) : Option Win := r.wins.find? (fun w => !w.dead)
/-- The oldest frozen window that has no copy in flight (R220). -/
def EmRing.oldestFree (r : EmRing) : Option Win := r.wins.find? (fun w => !w.dead && !w.copying)

/-- A release of ring `i` (R220). -/
def EmRing.release (r : EmRing) : EmRing :=
  match r.oldestFree with
  | some w => { (r.freeHalf w.half) with wins := r.wins.erase w }
  | none => r

/-- A channel stops: every ring that maps it and is in POST ends its post window (R221). -/
def State.stopChannel (s : State) (n : Nat) : State :=
  (List.range 16).foldl (fun (q : State) i =>
    let r := q.fb.rings.get i
    match r.active with
    | some h => if r.half h = .post && (r.tagOf n).isSome then q.endPost i true else q
    | none => q) s

/-- The pilot link is declared down: waiting records are lost and every enabled channel's stream stops (R213, R221). -/
def State.emberLinkDown (s : State) : State :=
  (List.range 48).foldl (fun (q : State) n => if q.pil.cap.chanEn n then q.stopChannel n else q) s.loseRecords

/-- EN of a ring is cleared (R222). -/
def EmRing.disable (r : EmRing) : EmRing :=
  EmRing.cleanup
    { (r.endPost true) with en := false, h0 := .free, h1 := .free, wp := 0, depth := 0,
                            wins := (r.endPost true).wins.map (fun w => { w with dead := true }) }

/-- Two rings share a cell. -/
def EmRing.meets (a b : EmRing) : Bool :=
  decide (a.base.toNat < b.base.toNat + b.lenN) && decide (b.base.toNat < a.base.toNat + a.lenN)

/-- The channels of the VALID entries of CHMAP. -/
def EmRing.channels (r : EmRing) : List Nat := (r.chmap.toList.filter (·.getLsbD 23)).map (fun m => fieldN m 0 6)

/-- The checks of R199 on ring `i` in order; 0 when all hold, else the code of Table 18.13. -/
def State.ringCheck (s : State) (i : Nat) : Nat :=
  let r := s.fb.rings.get i
  if r.lenN < 128 ∨ r.post = 0 ∨ r.channels.any (fun c => decide (47 < c)) then 8
  else if r.base.toNat < 0x200000 ∨ 0x400000 < r.base.toNat + r.lenN ∨ r.base.toNat % 64 ≠ 0 ∨
      r.lenN % (if r.paired then 128 else 64) ≠ 0 then 1
  else if (List.range 16).any (fun j => j ≠ i && (s.fb.rings.get j).en && (s.fb.rings.get j).meets r) then 2
  else if r.channels.isEmpty || decide (¬ r.channels.Nodup) then 3
  else if r.area < r.pre.toNat + r.post.toNat + 64 then 4
  else 0

/-- The missed triggers of a disabled ring stay with its windows still in copy, for the one that completes first (R218,
R222). -/
def EmRing.keepOld (r : EmRing) : EmRing :=
  { r with wins := r.wins.map (fun w => if w.dead && w.old.isNone then { w with old := some ⟨r.gen, r.missed, r.mlist⟩ } else w),
           gen := r.gen + 1, missed := 0, mlist := [], waitMiss := [] }

/-- EN of ring `i` is set (R199, R209): its checks, then H0 ARMED with depth 0. -/
def State.enableRing (s : State) (i : Nat) : State :=
  let k := s.ringCheck i
  s.modRing i (fun r =>
    if k = 0 then { r.keepOld with en := true, cfgerr := 0, h0 := .armed, h1 := .free, wp := 0, depth := 0 }
    else { r with cfgerr := BitVec.ofNat 4 k })

/-- The writable bits of configuration cell `off` of a ring (Table 18.12). -/
def ringMask (off : Nat) : Cell :=
  if off = 0 then 0x7F else if off ≤ 4 then 0x3FFFFF else if off = 5 then 0xFFFFFF else if off = 6 then 0x1F
  else if 8 ≤ off ∧ off < 0x18 then 0x80003F else 0

/-- Configuration cell `off` of a ring (Table 18.12). -/
def EmRing.cfgCell (r : EmRing) (off : Nat) : Cell :=
  match off with
  | 0 => BitVec.ofNat 24 (b2n r.en + 2 * b2n r.paired + 4 * b2n r.crec + 8 * r.core.toNat)
  | 1 => r.base.setWidth 24
  | 2 => r.len.setWidth 24
  | 3 => r.pre.setWidth 24
  | 4 => r.post.setWidth 24
  | 5 => BitVec.ofNat 24 r.trigsel.toNat
  | 6 => BitVec.ofNat 24 (fieldN r.trigsel 24 5)
  | o => if 8 ≤ o ∧ o < 0x18 then r.chmap.get (o - 8) else 0

/-- The ring with configuration cell `off` written, its EN left alone (Table 18.12). -/
def EmRing.putCfg (r : EmRing) (off : Nat) (v : Cell) : EmRing :=
  match off with
  | 0 => { r with paired := v.getLsbD 1, crec := v.getLsbD 2, core := BitVec.ofNat 4 (fieldN v 3 4) }
  | 1 => { r with base := v.setWidth 22 }
  | 2 => { r with len := v.setWidth 22 }
  | 3 => { r with pre := v.setWidth 22 }
  | 4 => { r with post := v.setWidth 22 }
  | 5 => { r with trigsel := setField r.trigsel 0 24 v.toNat }
  | 6 => { r with trigsel := setField r.trigsel 24 5 v.toNat }
  | o => if 8 ≤ o ∧ o < 0x18 then { r with chmap := r.chmap.set (o - 8) (v &&& ringMask o) } else r

/-- A write of a ring's configuration cell (R198, R199, R477). Status cells ignore it. -/
def State.writeRingCell (s : State) (i off : Nat) (v : Cell) : State :=
  let r := s.fb.rings.get i
  let fields := ringMask off &&& ~~~(if off = 0 then 1 else 0)
  if ringMask off = 0 then s
  else if r.en then
    let s1 := if (r.cfgCell off ^^^ v) &&& fields = 0 then s else s.modRing i (fun q => { q with cfgerr := 6 })
    if off = 0 && !v.getLsbD 0 then s1.modRing i EmRing.disable else s1
  else
    let s1 := s.modRing i (fun q => q.putCfg off v)
    if off = 0 && v.getLsbD 0 then s1.enableRing i else s1

/-- STATE, the code of Table 18.12. -/
def HState.num : HState → Nat
  | .free => 0 | .armed => 1 | .post => 2 | .held => 3

/-- Cell `off` of a ring as a quiet read returns it: configuration and status (R212, R477). -/
def EmRing.cell (r : EmRing) (off : Nat) : Cell :=
  let st (f : Win → Nat) : Cell := BitVec.ofNat 24 ((r.oldest.map f).getD 0)
  let hi (f : Win → Dbl) : Cell := hiCell ((r.oldest.map f).getD 0)
  let lo (f : Win → Dbl) : Cell := loCell ((r.oldest.map f).getD 0)
  if off < 0x18 then r.cfgCell off
  else if off = 0x18 then
    BitVec.ofNat 24 (r.h0.num + 8 * (if r.paired then r.h1.num else 0) + 64 * r.cfgerr.toNat +
      1024 * b2n ((r.oldest.map (·.shortPre)).getD false) + 2048 * b2n ((r.oldest.map (·.trunc)).getD false))
  else if off = 0x19 then st (fun w => w.lo + w.fp)
  else if off = 0x1A then st (·.d)
  else if off = 0x1B then st (·.postw)
  else if off = 0x1C then lo (·.tick)
  else if off = 0x1D then hi (·.tick)
  else if off = 0x1E then lo (·.course)
  else if off = 0x1F then hi (·.course)
  else if off = 0x20 then lo (·.crank)
  else if off = 0x21 then hi (·.crank)
  else if off = 0x22 then st (·.src)
  else if off = 0x23 then r.missed.setWidth 24
  else if 0x40 ≤ off ∧ off < 0x60 then
    match r.mlist[(off - 0x40) / 4]?, off % 4 with
    | some m, 0 => BitVec.ofNat 24 (if m.wait.isSome then 0x1F else m.src)
    | some m, 2 => loCell (if m.wait.isSome then 0 else m.tick)
    | some m, 3 => hiCell (if m.wait.isSome then 0 else m.tick)
    | _, _ => 0
  else 0

end Sys2Proof.Machine
end

