-- ==== Sys2Proof/Machine/CapObj.lean ====
section
/-! DEFINITION. The capture objects of the Pilot (R190, R192, R202 to R204, R479, Tables 18.13 and 18.15): their cells,
their field ranges, what applying one does, and the levels that the discrete channels sample. -/

namespace Sys2Proof.Machine

/-- The kinds of capture object with their index. -/
inductive Obj where
  | channel (n : Nat) | spi (k : Nat) | can (i : Nat) | trig (p : Nat) | th (j : Nat) | cf (f : Nat)
deriving DecidableEq, Repr

/-- The address of cell +0. -/
def Obj.base : Obj → Nat
  | .channel n => 0x0F3010 + 2 * n
  | .spi k => 0x0F3080 + 8 * k
  | .can i => 0x0F3140 + 8 * i
  | .trig p => 0x0F3150 + p
  | .th j => 0x0F3160 + 4 * j
  | .cf f => 0x0F31A0 + 8 * f
/-- The number of cells. -/
def Obj.size : Obj → Nat
  | .channel _ => 2 | .spi _ | .can _ => 7 | .trig _ => 1 | .th _ => 3 | .cf _ => 5
/-- The fields of cell +`k`. -/
def Obj.mask (o : Obj) (k : Nat) : Cell :=
  match o, k with
  | .channel n, 0 => BitVec.ofNat 24 (0x7FFFF9 + (if n ≤ 31 then 2 else 0) + (if 34 ≤ n then 4 else 0))
  | .channel _, 1 => 0xFFF
  | .spi _, 0 | .spi _, 1 | .spi _, 3 | .spi _, 5 => 0xFFFFFF
  | .spi _, 2 | .spi _, 4 | .spi _, 6 => 0xFF
  | .can _, 0 => 0x7FFFFF
  | .can _, 1 => 0x1FFFFF
  | .can _, 2 => 0x3F
  | .can _, 3 | .can _, 5 => 0xFFFFFF
  | .can _, 4 | .can _, 6 => 0x1F
  | .trig _, 0 => 0x3FF
  | .th _, 0 => 0xFFF
  | .th _, 1 | .th _, 2 => 0xFFFF
  | .cf _, 0 => 0x1FFFFF
  | .cf _, 1 | .cf _, 3 => 0xFFFFFF
  | .cf _, 2 | .cf _, 4 => 0x1F
  | _, _ => 0

/-- Cell +`k` of an object in force. -/
def Capture.objCell (c : Capture) (o : Obj) (k : Nat) : Cell := memRead c.objs (o.base + k)
/-- Field [lo+n-1:lo] of cell +`k` of an object in force. -/
def Capture.objField (c : Capture) (o : Obj) (k lo n : Nat) : Nat := fieldN (c.objCell o k) lo n

/-- The PERIOD of channel `n` that a +0 cell `v` brings lies in Table 8.1, where it binds (R190). -/
def periodOk (n : Nat) (v : Cell) : Bool :=
  let p := fieldN v 3 20
  if n < 32 then decide (50 ≤ p) && decide (p ≤ 1000000)
  else if n < 34 then true
  else v.getLsbD 2 || (decide (10 ≤ p) && decide (p ≤ 1000000))

/-- The slot field check of R192 on a +0 cell: OFS + 16 is at most 8 × LEN. -/
def slotFits (v : Cell) : Bool := decide (fieldN v 18 6 + 16 ≤ 8 * fieldN v 12 3)

/-- The check of an object about to take the cells `v`: 0, or the code 7 or 8 of Table 18.13 (R190, R192, R479). -/
def Capture.objCheck (c : Capture) (o : Obj) (v : Nat → Cell) : Nat :=
  let x := v 0
  match o with
  | .channel n =>
    if !x.getLsbD 0 then 0
    else if !periodOk n x then 8
    else if 8 ≤ n ∧ n < 32 ∧ !slotFits (c.objCell (.spi (n - 8)) 0) then 7
    else 0
  | .spi k =>
    if fieldN x 5 7 = 0 ∨ 64 < fieldN x 5 7 ∨ fieldN x 12 3 = 0 ∨ 6 < fieldN x 12 3 ∨ 4 < fieldN x 15 3 ∨ 32 < fieldN x 18 6 then 8
    else if !x.getLsbD 0 then 0
    else if !periodOk (8 + k) (c.objCell (.channel (8 + k)) 0) then 8
    else if !slotFits x then 7
    else 0
  | .can _ => if fieldN (v 2) 4 2 = 3 then 8 else 0
  | .trig _ => if fieldN x 1 2 = 3 then 8 else 0
  | .th _ => if fieldN x 6 2 = 3 then 8 else 0
  | .cf _ => if fieldN x 1 2 = 3 ∨ fieldN x 3 2 = 3 then 8 else 0

/-- Which GPIO pins are driven, and to what levels: by the GPIO cells, or by the boundary register while EXTEST or CLAMP is
current; by nothing under HIGHZ or without VDDIO_B (Tables 15.4, 17.3, 18.15, R405, R436). -/
def State.gpioDrive (s : State) : Byte × Byte :=
  let t := s.pil.tap
  let cells (k : Nat) : Byte := BitVec.ofFnLE (fun n : Fin 8 => t.bnd.getLsbD (49 + 3 * n.val + k))
  if !s.pw.vddioB then (0, 0)
  else match t.ir with
    | .extest | .clamp => (cells 2, cells 1)
    | .highz => (0, 0)
    | _ => ((memRead s.pil.cap.objs 0x0F31E0).setWidth 8, (memRead s.pil.cap.objs 0x0F31E1).setWidth 8)

/-- The levels of the GPIO pins: what is driven on an output, else what comes in (Table 18.15). -/
def State.gpioLevels (s : State) : Byte := (s.gpioDrive.1 &&& s.gpioDrive.2) ||| (~~~s.gpioDrive.1 &&& s.pil.cap.gpioIn)

/-- What a discrete channel samples (Table 8.1): the filtered TRIG levels and the GPIO levels. -/
def State.discLevels (s : State) : BitVec 12 := s.gpioLevels ++ s.pil.cap.trigLev

/-- The cells of an object put in force; the EN bit of a slot and of its channel are one bit (R192, Table 18.15). -/
def Capture.putObj (c : Capture) (o : Obj) (v : Nat → Cell) : Capture :=
  let m := memWriteList c.objs o.base ((List.range o.size).map (fun k => v k &&& o.mask k))
  let m1 := match o with
    | .channel n =>
      if 8 ≤ n ∧ n < 32 then memWrite m (0x0F3080 + 8 * (n - 8)) (setBit (memRead m (0x0F3080 + 8 * (n - 8))) 0 ((v 0).getLsbD 0)) else m
    | .spi k => memWrite m (0x0F3010 + 2 * (8 + k)) (setBit (memRead m (0x0F3010 + 2 * (8 + k))) 0 ((v 0).getLsbD 0))
    | _ => m
  { c with objs := m1 }

/-- The capture channel whose EN an object carries. -/
def Obj.chan : Obj → Option Nat
  | .channel n => some n
  | .spi k => some (8 + k)
  | _ => none

/-- A discrete channel is enabled in CHANGE mode (R194). -/
def Capture.changes (c : Capture) (ch : Nat) : Bool := c.chanEn ch && (c.objCell (.channel ch) 0).getLsbD 2

/-- The capture queues of a channel that is no longer enabled are emptied (R221). -/
def Capture.dropChan (c : Capture) (n : Nat) : Capture :=
  { c with adcq := c.adcq.filter (fun x => x.1 ≠ n + 1), discPend := if 34 ≤ n then setBit c.discPend (n - 34) false else c.discPend,
           spiDue := if 8 ≤ n ∧ n < 32 then c.spiDue.modify ((n - 8) / 6) (fun l => l.filter (fun x => x.1 ≠ (n - 8) % 6)) else c.spiDue }

/-- An object takes effect whole (R203, R221, R479): a channel that loses its EN stops; a comparator's object sets its
output low and restarts its count; a discrete channel starts from the present levels. -/
def State.applyObj (s : State) (o : Obj) (v : Nat → Cell) : State :=
  let s1 := s.modCap (fun c => c.putObj o v)
  match o.chan, o with
  | some n, _ =>
    if s.pil.cap.chanEn n && !s1.pil.cap.chanEn n then (s1.modCap (fun c => c.dropChan n)).stopChannel n
    else if 34 ≤ n && !s.pil.cap.changes n then s1.modCap (fun c => { c with discLast := c.discLast.set (n - 34) s1.discLevels })
    else s1
  | none, .th j => (s1.modCap (fun c => { c with thOut := setBit c.thOut j false, thCnt := c.thCnt.set j 0 })).putEv (0x10C4 + j) false
  | none, _ => s1

/-- The object and cell number at a Pilot cell address (Table 18.15). -/
def objAt (a : Nat) : Option (Obj × Nat) :=
  let o := a - 0x0F3000
  if a < 0x0F3010 then none
  else if o < 0x70 then some (.channel ((o - 0x10) / 2), (o - 0x10) % 2)
  else if 0x80 ≤ o ∧ o < 0x140 then (if o % 8 < 7 then some (.spi ((o - 0x80) / 8), o % 8) else none)
  else if 0x140 ≤ o ∧ o < 0x150 then (if o % 8 < 7 then some (.can ((o - 0x140) / 8), o % 8) else none)
  else if 0x150 ≤ o ∧ o < 0x154 then some (.trig (o - 0x150), 0)
  else if 0x160 ≤ o ∧ o < 0x1A0 then (if o % 4 < 3 then some (.th ((o - 0x160) / 4), o % 4) else none)
  else if 0x1A0 ≤ o ∧ o < 0x1E0 then (if o % 8 < 5 then some (.cf ((o - 0x1A0) / 8), o % 8) else none)
  else none

/-- The staged value of cell +`k` of an object, else the one in force (R479). A staged cell carries bit 24. -/
def Capture.staged (c : Capture) (o : Obj) (k : Nat) : Cell :=
  let x := memRead c.stg (o.base + k)
  if x.getLsbD 24 then x.setWidth 24 else c.objCell o k

/-- The staged cells of an object are gone. -/
def Capture.unstage (c : Capture) (o : Obj) : Capture :=
  { c with stg := memWriteList c.stg o.base (List.replicate o.size 0) }

/-- A thread's write of cell +`k` of a capture object (R479): staged, or the whole object applied with cell +0, or
refused whole when a field is out of range. -/
def State.writeObjCell (s : State) (o : Obj) (k : Nat) (v : Cell) : State :=
  if k = 0 then
    let cells (j : Nat) : Cell := if j = 0 then v &&& o.mask 0 else s.pil.cap.staged o j
    let s1 := s.modCap (fun c => c.unstage o)
    if s.pil.cap.objCheck o cells = 0 then s1.applyObj o cells else s1
  else s.modCap (fun c => { c with stg := memWrite c.stg (o.base + k) ((v &&& o.mask k).setWidth 25 ||| 0x1000000) })

/-- A write of GPIO_DIR or GPIO_OUT; GPIO_IN is read-only (Table 18.15). -/
def State.writeGpio (s : State) (k : Nat) (v : Cell) : State :=
  if k < 2 then s.modCap (fun c => { c with objs := memWrite c.objs (0x0F31E0 + k) (v &&& 0xFF) }) else s

end Sys2Proof.Machine
end

