-- ==== Sys2Proof/Machine/OtpRead.lean ====
section
/-! DEFINITION. Reading the OTP array (R354, R355), its check bits and the scramble of its secrets (R356), the life-cycle
state (R364), and what the fuse lanes carry to each die (R361, R362, Table 13.4). -/

namespace Sys2Proof.Machine

/-- The columns of a word's 39 bits, the 32 data bits with the given check bits: any three are independent, so that one error
is corrected and two are detected (R354). -/
def secdedCols (f : Nat → BitVec 7) : Bool :=
  let col (i : Nat) : BitVec 7 := if i < 32 then f i else BitVec.ofNat 7 (2 ^ (i - 32))
  (List.range 39).all (fun i => col i ≠ 0 && (List.range i).all (fun j => col i ≠ col j &&
    (List.range j).all (fun k => col i ^^^ col j ≠ col k)))
/-- The 7-bit vectors of weight three, in order: the columns of a code as R354 asks for it. -/
def weightThree : List (BitVec 7) := ((List.range 128).map (BitVec.ofNat 7)).filter (fun x => (List.range 7).countP (fun i => x.getLsbD i) = 3)
/-- The check bits that data bit `i` contributes to: silicon's own where they make such a code (log entry 101). -/
def otpColumn (i : Nat) : BitVec 7 := if secdedCols Config.otpCol then Config.otpCol i else weightThree.getD i 0
/-- The seven check bits of a data word (R354). -/
def otpCheck (d : W32) : BitVec 7 :=
  (List.range 32).foldl (fun c i => if d.getLsbD i then c ^^^ otpColumn i else c) 0
/-- A word with its check bits, as the array stores it (R354). -/
def otpEncode (d : W32) : BitVec 39 := otpCheck d ++ d

/-- One round of the scramble of the word at array address `a` (R356, log entry 101). -/
def scrRound (a k : Nat) (x : BitVec 16 × BitVec 16) : BitVec 16 × BitVec 16 := (x.2, x.1 ^^^ Config.scramble a k x.2)
/-- That round undone. -/
def scrBack (a k : Nat) (x : BitVec 16 × BitVec 16) : BitVec 16 × BitVec 16 := (x.2 ^^^ Config.scramble a k x.1, x.1)
/-- A secret word as the array stores it (R356). -/
def scrambled (a : Nat) (d : W32) : W32 :=
  let x := [0, 1, 2, 3].foldl (fun x k => scrRound a k x) (d.extractLsb' 16 16, d.setWidth 16)
  x.1 ++ x.2
/-- A stored secret word as the key engine reads it (R356). -/
def unscrambled (a : Nat) (d : W32) : W32 :=
  let x := [3, 2, 1, 0].foldl (fun x k => scrBack a k x) (d.extractLsb' 16 16, d.setWidth 16)
  x.1 ++ x.2
/-- Word `w` of region `g` holds a secret (Table 13.1). -/
def secretWord (g w : Nat) : Bool := (g = 8 || g = 9) && decide (w < 8)

/-- The data of a stored word: the word itself, or with its one wrong bit corrected; none when no single bit explains
it. A word never written is blank (R354, R355). -/
def secded (x : BitVec 39) : Option W32 :=
  let ok (y : BitVec 39) : Bool := y == otpEncode (y.setWidth 32)
  if x = 0 then some 0
  else if ok x then some (x.setWidth 32)
  else (firstIdx (fun i => ok (x ^^^ BitVec.ofNat 39 (2 ^ i))) 39).map (fun i => (x ^^^ BitVec.ofNat 39 (2 ^ i)).setWidth 32)

/-- Word `w` of region `g` at normal margin, corrected (R354). Region 0 carries no check bits. -/
def Otp.word (o : Otp) (g w : Nat) : Option W32 :=
  let x := memRead o.norm (32 * g + w)
  if g = 0 then some (x.setWidth 32) else secded x
/-- A word for a hardware user: an uncorrectable one counts as blank (R355). -/
def Otp.value (o : Otp) (g w : Nat) : W32 := (o.word g w).getD 0
/-- A field of `n` words as its byte string (R355). -/
def Otp.field (o : Otp) (g w n : Nat) : List Byte :=
  ((List.range n).map (fun i => leBytes 4 (o.value g (w + i)).toNat)).flatten
/-- The secret of region 8 or 9 as the key engine reads it (R356). An uncorrectable word counts as blank. -/
def Otp.secret (o : Otp) (g : Nat) : List Byte :=
  ((List.range 8).map (fun i => leBytes 4 (match o.word g i with | some d => unscrambled (32 * g + i) d | none => 0).toNat)).flatten
/-- A field is blank: all its words read 0 (R355). -/
def Otp.blank (o : Otp) (g w n : Nat) : Bool := (List.range n).all (fun i => o.value g (w + i) = 0)

/-- A bitwise majority of three. -/
def maj3 (a b c : W32) : W32 := (a &&& b) ||| (a &&& c) ||| (b &&& c)
/-- A copy of a region 0 word: a bit that reads 1 at either margin is 1 (R360). -/
def Otp.copy (o : Otp) (w : Nat) : W32 := (memRead o.norm w ||| memRead o.strict w).setWidth 32
/-- An item of region 0, judged by majority (R354). -/
def Otp.item (o : Otp) (w : Nat) : W32 := maj3 (o.copy w) (o.copy (w + 1)) (o.copy (w + 2))
/-- The thermometer value T (R364). -/
def Otp.thermo (o : Otp) : W32 := o.item 0
/-- The vault epoch bit is burnt. -/
def Otp.epochBurnt (o : Otp) : Bool := (o.item 3).getLsbD 0
/-- The lock map. -/
def Otp.locks (o : Otp) : W32 := o.item 6

/-- The consecutive 1 bits of a value from bit `i`, `k` bits at most. -/
def onesFrom (x : W32) : Nat → Nat → Nat
  | 0, _ => 0
  | k + 1, i => if x.getLsbD i then 1 + onesFrom x k (i + 1) else 0
/-- n of R364. -/
def lifeN (t : W32) : Nat := onesFrom t 16 0
/-- The life-cycle state of a thermometer value: 0 BLANK, 1 FACTORY, 2 FIELD, 3 SERVICE, 4 RETIRED, 7 INVALID (R364). -/
def lifeOf (t : W32) : Nat :=
  let n := lifeN t
  if t.getLsbD 31 then 4
  else if fieldN t 16 15 ≠ 0 ∨ fieldN t 0 16 ≠ 2 ^ n - 1 then 7
  else if n = 0 then 0 else if n = 1 then 1 else if n % 2 = 0 then 2 else 3
/-- The life-cycle epoch (R364). -/
def lifeEpoch (t : W32) : Nat := lifeN t + b2n (t.getLsbD 31)
/-- SERVICE round trips used (R364). -/
def roundTrips (t : W32) : Nat := if lifeN t < 2 then 0 else (lifeN t - 1) / 2

/-- The life-cycle state as the Hearthstone has it. -/
def State.life (s : State) : Nat := lifeOf s.hs.otp.thermo
/-- Word 0 of a lane's payload as its user holds it; none at safe values (R361). -/
def LaneUser.word0 (u : LaneUser) : Option W32 := u.held.bind (fun p => p.2.head?)
/-- The life-cycle state that a lane user acts on; INVALID at safe values (R361). -/
def LaneUser.life (u : LaneUser) : Nat := match u.word0 with | some w => fieldN w 0 3 | none => 7
/-- DBG_UNLOCK as a lane user holds it. -/
def LaneUser.unlocked (u : LaneUser) : Bool := match u.word0 with | some w => w.getLsbD 3 | none => false
/-- The life-cycle state that the Firebox acts on. -/
def State.fLife (s : State) : Nat := s.hs.lanes.f.life
/-- DEVICE_ID (Table 13.1). -/
def Otp.deviceId (o : Otp) : List Byte := o.field 1 16 4
/-- The digest that a key slot names: 0 and 1 vendor, 2 and 3 owner (Table 7.6, Table 13.1). -/
def Otp.slotDigest (o : Otp) (slot : Nat) : List Byte := o.field (if slot < 2 then 1 else 4) (8 * (slot % 2)) 8
/-- A public key matches the digest of its slot, which is not blank (R187). -/
def Otp.keyFits (o : Otp) (slot : Nat) (pub : List Byte) : Bool :=
  let g := if slot < 2 then 1 else 4
  !o.blank g (8 * (slot % 2)) 8 && o.slotDigest slot == sha256 pub

/-- The word that lane `l` sends with `n` payload words marked invalid by `bad` (Table 13.4). -/
def State.laneWord0 (s : State) (bad : List Bool) : W32 :=
  BitVec.ofNat 32 (s.life + 8 * b2n s.hs.chal.unlocked +
    ((List.range bad.length).map (fun i => b2n (bad.getD i false) * 2 ^ (16 + i))).sum)
/-- The payload words of an OTP source as a lane sends them: uncorrectable words are 0 and marked. -/
def Otp.laneWords (o : Otp) (src : List (Nat × Nat)) : List W32 := src.map (fun p => o.value p.1 p.2)
/-- Which of an OTP source's words are uncorrectable. -/
def Otp.laneBad (o : Otp) (src : List (Nat × Nat)) : List Bool := src.map (fun p => (o.word p.1 p.2).isNone)
/-- The sources of words 1 to 9 of lane F. -/
def laneFSrc : List (Nat × Nat) := (3, 0) :: (List.range 8).map (fun i => (2, i))
/-- The sources of words 1 to 11 of lane P. -/
def lanePSrc : List (Nat × Nat) := [(5, 0), (5, 1), (5, 2)] ++ (List.range 8).map (fun i => (2, 8 + i))
/-- The payload of lane F now. -/
def State.payloadF (s : State) : List W32 :=
  s.laneWord0 (s.hs.otp.laneBad laneFSrc) :: s.hs.otp.laneWords laneFSrc
/-- The payload of lane P now. -/
def State.payloadP (s : State) : List W32 :=
  s.laneWord0 (s.hs.otp.laneBad lanePSrc) :: s.hs.otp.laneWords lanePSrc

/-- GEN after the content `new` of a lane has been compared with the content sent so far. -/
def nextGen (gen : Byte) (sent new : List W32) : Byte := if sent = [] ∨ sent = new then gen else gen + 1

/-- The OTP controller takes up the content of the lanes, and increments the GEN of one whose content has changed (R362). -/
def State.laneSync (s : State) : State :=
  s.modHs (fun h => { h with lanes := { h.lanes with
    genF := nextGen h.lanes.genF h.lanes.sentF s.payloadF, sentF := s.payloadF,
    genP := nextGen h.lanes.genP h.lanes.sentP s.payloadP, sentP := s.payloadP } })

/-- A frame (R362): the header, the payload and the CRC over both. -/
def laneFrame (lane : Nat) (gen : Byte) (pay : List W32) : List W32 :=
  let h : W32 := BitVec.ofNat 32 (0xB4 + lane * 2 ^ 8 + gen.toNat * 2 ^ 12 + pay.length * 2 ^ 20)
  (h :: pay) ++ [crc32 (((h :: pay).map (fun w => leBytes 4 w.toNat)).flatten)]
/-- The frame that the OTP controller sends on a lane; none before the start read (R362). -/
def State.sentFrame (s : State) (l : Lane) : List W32 :=
  let x := s.hs.lanes
  match l with
  | .f => if x.sentF = [] then [] else laneFrame 0 x.genF x.sentF
  | .p => if x.sentP = [] then [] else laneFrame 1 x.genP x.sentP
/-- A frame as it arrives with the bits of `errs` wrong. -/
def withErrors : List W32 → List W32 → List W32
  | [], _ => []
  | w :: r, [] => w :: r
  | w :: r, e :: es => (w ^^^ e) :: withErrors r es

/-- Debug tries left in the present epoch (R373). -/
def State.triesLeft (s : State) : Nat :=
  match s.hs.vault.triesRec with
  | some (e, n) => if e = lifeEpoch s.hs.otp.thermo then n else 8
  | none => 8

end Sys2Proof.Machine
end

