-- ==== Sys2Proof/Machine/FlueOps.lean ====
section
/-! DEFINITION. What every Flue command and export shares (chapters 11 and 12): writes to the host, MSI-X messages,
beginning and completing a command, the export queues and their items. -/

namespace Sys2Proof.Machine

/-- The Flue may issue traffic (R286, R321). -/
def Flue.canTalk (f : Flue) : Bool := f.bme && !f.d3hot
/-- A posted write or message: sent, or held until traffic is allowed again, in order (R286, R288, R321). -/
def Flue.emit (f : Flue) (o : HostOut) : Flue :=
  if f.canTalk && f.held.isEmpty then { f with out := f.out ++ [o], l1 := false } else { f with held := f.held ++ [o] }
/-- Data for host memory as posted writes of at most 256 bytes, none across a 256-byte boundary (Table 11.1); `fuel` bounds
their number. -/
def splitWrites : Nat → BitVec 64 → List Byte → List (BitVec 64 × List Byte)
  | 0, _, _ => []
  | fuel + 1, a, l =>
    if l.isEmpty then []
    else
      let k := 256 - a.toNat % 256
      (a, l.take k) :: splitWrites fuel (a + BitVec.ofNat 64 k) (l.drop k)
/-- Data written to host memory (R284). -/
def Flue.emitData (f : Flue) (a : BitVec 64) (l : List Byte) : Flue :=
  (splitWrites l.length a l).foldl (fun g w => g.emit (.write w.1 w.2)) f
/-- What was held goes out once traffic is allowed (R286, R321). -/
def Flue.flush (f : Flue) : Flue := if f.canTalk then { f with out := f.out ++ f.held, held := [], l1 := f.l1 && f.held.isEmpty } else f
/-- Vector `v` is sent, or set pending while masked (R304). -/
def Flue.sendVec (f : Flue) (v : Nat) : Flue :=
  if (f.msix.get v).ctl.getLsbD 0 then { f with pend := setBit f.pend v true } else f.emit (.msix v)
/-- The endpoint is out of reset and the device runs or is far enough in its start (R377). -/
def State.flueOn (s : State) : Bool := s.fl.linkReady && s.fireOn

/-- BAR0 can be accessed: the endpoint is out of reset and in D0 (R321, R381). -/
def State.barOn (s : State) : Bool := s.flueOn && !s.fl.d3hot
/-- BOOT_DONE (R464): the boot ROM has ended, or S9 has nothing to run because lane F holds its safe values (R388). -/
def State.bootDone (s : State) : Bool :=
  match s.pw.life with
  | .running => true
  | .starting => s.pw.start.s5 && s.hs.lanes.coreMask.isNone && s.hs.lanes.f.held.isNone
  | _ => false

/-- Entries of a ring of size field `z` (R289). -/
def ringSize (z : BitVec 4) : Nat := 2 ^ z.toNat
/-- The phase bit of index `i` (R302). -/
def phaseBit (i : BitVec 16) (z : BitVec 4) : Nat := 1 - (i.toNat / ringSize z) % 2
/-- The address of entry `i` of a ring of `w`-byte entries (R290). -/
def entryAddr (base : BitVec 64) (i : BitVec 16) (z : BitVec 4) (w : Nat) : BitVec 64 :=
  base + BitVec.ofNat 64 ((i.toNat % ringSize z) * w)

/-- Moderation (R304): a message is due now. -/
def dueNow (cnt : BitVec 8) (time : BitVec 10) (since : Nat) (plain : Bool) : Bool :=
  !plain || cnt = 0 || time = 0 || decide (cnt.toNat ≤ since + 1)

/-- The bytes of a completion but its phase bit (Table 11.7). -/
def completionBytes (r : Run) (head : BitVec 16) (p : Nat) : List Byte :=
  leBytes 2 r.cid.toNat ++ [BitVec.ofNat 8 (r.sq % 16), r.status] ++ leBytes 2 head.toNat ++ bytesAt r.result 0 8 ++
    [0, BitVec.ofNat 8 p]

/-- A completion is written into its CQ with its shadow write and message to follow (R288, R302, R304). A command whose
ring a Hot Reset has taken away (`sq` 16) writes none. -/
def Flue.postCq (f : Flue) (r : Run) (tick : Dbl) : Flue :=
  let q := f.sqs.get r.sq
  let n := q.cq.toNat
  let c := f.cqs.get n
  if 16 ≤ r.sq || !c.en || c.err then f
  else
    let g := { (goActive f tick) with stats := f.stats.modify 3 (· + 1) }
    let due := dueNow c.coalCnt c.coalTime c.since (r.status = 0)
    let g1 := g.emit (.write (entryAddr c.base c.tail c.size 16) (completionBytes r q.head (phaseBit c.tail c.size)))
    { g1 with cqs := g1.cqs.set n { c with tail := c.tail + 1, since := if due then 0 else c.since + 1,
                                           first := if c.since = 0 then tick else c.first },
              shadowDirty := true, msixWait := if due then g1.msixWait ++ [c.vec.toNat] else g1.msixWait }

/-- A command leaves its ring (R315). -/
def SqRing.finish (q : SqRing) (ord : Nat) : SqRing := { q with begun := q.begun.filter (· ≠ ord) }
/-- An SQ that is being disabled is STOPPED once its last command has completed and the shadow page has been written
(R315 steps 2 to 5). -/
def SqRing.shadowed (q : SqRing) : SqRing :=
  if q.stopping && q.begun.isEmpty then { q with stopped := true, stopping := false } else q

/-- The running command with tag `t`. -/
def State.run? (s : State) (t : Nat) : Option Run := s.fl.runs.find? (fun r => r.tag = t)
/-- A running command changed. -/
def State.modRun (s : State) (t : Nat) (f : Run → Run) : State :=
  s.modFl (fun g => { g with runs := g.runs.map (fun r => if r.tag = t then f r else r) })

/-- The command with tag `t` completes with a status and result bytes (R301, R326). -/
def State.finish (s : State) (t : Nat) (status : Byte) (result : List Byte := []) : State :=
  match s.run? t with
  | none => s
  | some r =>
    s.modFl (fun f =>
      let g := f.postCq { r with status := status, result := result } s.fb.mir.tick
      { g with sqs := g.sqs.modify r.sq (fun q => q.finish r.ord), runs := g.runs.filter (fun x => x.tag ≠ t),
               shadowDirty := g.shadowDirty || (g.sqs.get r.sq).stopping })

/-- Byte `i` of a descriptor. -/
def Desc.byte (d : Desc) (i : Nat) : Nat := ((d.bytes.getD i 0)).toNat
/-- Parameter byte P`i` (Table 12.1). -/
def Desc.p (d : Desc) (i : Nat) : Nat := d.byte (16 + i)
/-- The number in `n` parameter bytes from P`i`. -/
def Desc.pn (d : Desc) (i n : Nat) : Nat := leAt d.bytes (16 + i) n
/-- DLEN. -/
def Desc.dlen (d : Desc) : Nat := leAt d.bytes 4 4
/-- DPTR. -/
def Desc.dptr (d : Desc) : BitVec 64 := BitVec.ofNat 64 (leAt d.bytes 8 8)
/-- ORDERED. -/
def Desc.ordered (d : Desc) : Bool := d.byte 1 % 2 = 1
/-- Reserved FLAGS bits and the parameter bytes that are not `named` are 0 (R325). -/
def Desc.reserved0 (d : Desc) (named : List Nat) : Bool :=
  d.byte 1 < 2 && (List.range 16).all (fun i => named.contains i || d.p i = 0)
/-- The buffer rules of R324. -/
def Desc.bufOk (d : Desc) : Bool :=
  d.dlen ≤ 16777216 && (if d.dlen = 0 then d.dptr = 0 else d.dptr.toNat % 64 = 0)

/-- The oldest command of an SQ that has been fetched and not begun, when it may begin (R327). -/
def State.nextDesc (s : State) (sq : Nat) : Option Desc :=
  let q := s.fl.sqs.get sq
  match q.fetched with
  | [] => none
  | d :: _ => if d.ordered && !q.begun.isEmpty then none else some d

/-- A command begins (R327): it leaves the fetched list and runs under a new tag. -/
def State.begin_ (s : State) (sq : Nat) (d : Desc) : State :=
  s.modFl (fun f =>
    { f with sqs := f.sqs.modify sq (fun q => { q with fetched := q.fetched.drop 1, begun := q.begun ++ [d.ord] }),
             runs := f.runs ++ [{ tag := f.nextTag, sq := sq, cid := BitVec.ofNat 16 (leAt d.bytes 2 2), ord := d.ord,
                                  op := BitVec.ofNat 8 (d.byte 0) }],
             nextTag := f.nextTag + 1 })

/-- The rules of a command's descriptor: its opcode, whether it reads an input buffer, the parameters it names, their ranges, its buffer's size rule, the
life-cycle states that allow it (Table 12.3). -/
structure CmdRule where
  op : Nat
  reads : Bool := false
  named : List Nat := []
  range : Desc → Bool := fun _ => true
  size : Desc → Bool := fun d => d.dlen = 0
  states : List Nat

/-- Commands may begin: the boot ROM has ended, or S9 has nothing to run because lane F still holds its safe values
(R361, R388); no planned entry is under way (R390). -/
def State.mayBegin (s : State) : Bool :=
  s.flueOn && s.pw.plan.isNone && s.bootDone

/-- A command of SQ `sq` begins and is checked (R325, R328); when all holds, `act` is its effect. One that reads a buffer does
not begin while the Flue may issue no traffic (R286, R321). -/
def command (sq : BitVec 4) (c : CmdRule) (act : Desc → Nat → State → State) (s : State) : State :=
  match s.nextDesc sq.toNat with
  | none => s
  | some d =>
    if !s.mayBegin || d.byte 0 ≠ c.op || (c.reads && d.dlen ≠ 0 && !s.fl.canTalk) then s
    else
      let t := s.fl.nextTag
      let s1 := s.begin_ sq.toNat d
      if !d.reserved0 c.named || !c.range d then s1.finish t 0x02
      else if !d.bufOk || !c.size d then s1.finish t 0x03
      else if !c.states.contains s.fLife then s1.finish t 0x04
      else act d t s1

/-- Command `t` with descriptor `d` waits while link `l` retrains, for its traffic crosses it (R15); else it does `f`. -/
def State.acrossLink (s : State) (l : LinkId) (d : Desc) (t : Nat) (buf : List Byte) (f : State → State) : State :=
  if (match l with | .hearth => s.fb.hearth.training | .pilot => s.fb.plink.training) then
    s.modRun t (fun x => { x with kind := .onLink d buf })
  else f s

/-- A command that has begun and has still to take effect on core `c` (R327). -/
def Run.pendsOn (r : Run) (c : Nat) : Bool :=
  match r.kind with
  | .threadStart k _ _ _ | .threadStop k _ false | .threadQuery k | .coreReset k false => k = c
  | _ => false
/-- It is command `t`'s turn on core `c`: those that began before it have taken effect (R327). -/
def State.coreTurn (s : State) (t c : Nat) : Bool := !s.fl.runs.any (fun r => decide (r.tag < t) && r.pendsOn c)

/-- An exclusive command other than `t` runs (R327). -/
def State.exclusiveRuns (s : State) (t : Nat) : Bool :=
  s.fl.runs.any (fun r => r.tag ≠ t && [0x04, 0x10, 0x11, 0x70, 0x90].contains r.op.toNat)

/-- An output buffer is written, its first DLEN bytes at most (R324). -/
def State.dmaOut (s : State) (d : Desc) (l : List Byte) : State :=
  if d.dlen = 0 then s else s.modFl (fun f => f.emitData d.dptr (l.take d.dlen))

/-- Output and completion: SUCCESS, or SHORT_BUFFER when the output did not fit (R326); `both`: the command names its
result bytes for SHORT_BUFFER too (R344). -/
def State.answer (s : State) (d : Desc) (t : Nat) (l result : List Byte) (both : Bool := false) : State :=
  if l.length ≤ d.dlen then (s.dmaOut d l).finish t 0x00 result
  else (s.dmaOut d l).finish t 0x0D (if both then result else [])

/-- A command that writes the vault cannot: the hearth link is down, or the vault controller has failed (R326, R329). -/
def State.vaultGone (s : State) : Bool := s.fb.hearth.down || s.hs.vault.fault

/-- EMBER_CONTROL disables complete when no copy of their ring is in flight (R222, R343). -/
def State.emberOffRuns (s : State) : State :=
  s.fl.runs.foldl (fun (q : State) r =>
    match r.kind with
    | .emberOff i => if q.fb.copies.any (fun k => k.ring = i) then q else q.finish r.tag 0 [0]
    | _ => q) s

/-- The bit of SEL that covers a log class (R305). -/
def selBit (cls : Nat) : Nat := if cls < 0x40 then 0 else if cls < 0x80 then 1 else 2
/-- The lowest-numbered enabled EQ whose SEL has a bit (R305). -/
def State.eqFor (s : State) (bit : Nat) : Option Nat :=
  firstIdx (fun n => (s.fl.eqs.get n).en && (s.fl.eqs.get n).sel.getLsbD bit) 4
/-- The state with EQ `n` changed. -/
def State.modEq (s : State) (n : Nat) (f : EqRing → EqRing) : State :=
  s.modFl (fun g => { g with eqs := g.eqs.modify n f })

/-- An item enters a queue of EQ `n` (R309); entering an empty one in D3hot sends a PME message (R321). -/
def State.eqPush (s : State) (n : Nat) (prot : Bool) (i : Item) : State :=
  let q := s.fl.eqs.get n
  let s1 := s.modEq n (fun e => if prot then { e with protQ := e.protQ ++ [i] } else { e with rollQ := e.rollQ ++ [i] })
  if (if prot then q.protQ.isEmpty else q.rollQ.isEmpty) && s.fl.d3hot && s.fl.pmeEn then
    s1.modFl (fun f => { f with out := f.out ++ [.pme] })
  else s1

/-- A log has become durable: one that is not protected enters its export queue (R305, R309). -/
def State.exportDurable (s : State) (seq cls : Nat) : State :=
  if closesCord cls then s
  else match s.eqFor (selBit cls) with
    | some n => s.eqPush n false (.log seq)
    | none => s

/-- The seal of a cord has been released: its protected logs that are still valid enter with the seal record, and the seal record alone
where no EQ carries it paired (R305, R309). -/
def State.exportSeal (s : State) (cord : Nat) (leaves : List Leaf) : State :=
  let prots := leaves.filter (fun l => closesCord l.cls.toNat && s.hs.vault.logs.any (fun x => x.seq = l.seq))
  let s1 := prots.foldl (fun (q : State) l =>
    match q.eqFor (selBit l.cls.toNat) with
    | some n => q.eqPush n true (.pair l.seq cord)
    | none => q) s
  match s.eqFor 3 with
  | some n => if prots.any (fun l => s.eqFor (selBit l.cls.toNat) = some n) then s1 else s1.eqPush n false (.sealRec cord)
  | none => s1

/-- The item is the log, or the seal record, with this number. -/
def Item.isOf (i : Item) (isSeal : Bool) (v : Nat) : Bool :=
  match i with
  | .log q => !isSeal && q = v
  | .pair q _ => !isSeal && q = v
  | .sealRec k => isSeal && k = v

/-- A log or seal record has been overwritten: items of it that wait leave their queues and are counted (R312), and the marks
may pass them (R319). -/
def EqRing.gone (e : EqRing) (isSeal : Bool) (v : Nat) : EqRing :=
  let hit := (e.protQ ++ e.rollQ).any (fun i => i.isOf isSeal v)
  if hit then
    { e with protQ := e.protQ.filter (fun i => !i.isOf isSeal v), rollQ := e.rollQ.filter (fun i => !i.isOf isSeal v),
             rollLost := e.rollLost + 1, lost := satInc e.lost,
             acked := e.acked ++ [(!isSeal && e.protQ.any (fun i => i.isOf isSeal v), isSeal, v)] }
  else e

/-- A log of a class counts for P_MARK (R227, R319). -/
def markProt (cls : Byte) : Bool := closesCord cls.toNat

/-- EQ `n` carries a seal record, alone or paired (R305). -/
def State.carriesSeal (s : State) (n : Nat) (x : VSeal) : Bool :=
  (s.eqFor 3 = some n || x.leaves.any (fun l => closesCord l.cls.toNat && s.eqFor (selBit l.cls.toNat) = some n))

/-- The values on EQ `n` that its mark of a kind may not pass (R319): valid covered logs of the vault, or carried seal
records, that are not acknowledged. -/
def State.unacked (s : State) (n : Nat) (prot isSeal : Bool) : List Nat :=
  let e := s.fl.eqs.get n
  let v := s.hs.vault
  let all : List Nat :=
    if isSeal then (v.seals.filter (s.carriesSeal n)).map (·.cord)
    else (v.logs.filter (fun l => markProt l.cls = prot && s.eqFor (selBit l.cls.toNat) = some n &&
      (l.part ≠ .prot || decide (v.relBound ≤ l.start)))).map (·.seq)
  all.filter (fun x => !e.acked.contains (prot, isSeal, x))

/-- A mark moved on over the acknowledged values (R319). -/
def moveMark (old : Option Nat) (acked un : List Nat) : Option Nat :=
  let above (x : Nat) : Bool := match old with | some o => decide (o < x) | none => true
  let ok (v : Nat) : Bool := above v && un.all (fun x => !above x || decide (v < x))
  acked.foldl (fun m v => if ok v && (match m with | some y => decide (y < v) | none => true) then some v else m) old

/-- The marks of EQ `n` follow its acknowledgements (R319); those at or below a mark are forgotten. -/
def State.moveMarks (s : State) (n : Nat) : State :=
  let e := s.fl.eqs.get n
  let vals (p q : Bool) : List Nat := (e.acked.filter (fun a => a.1 = p && a.2.1 = q)).map (·.2.2)
  let m : Marks := { p := moveMark e.marks.p (vals true false) (s.unacked n true false),
                     r := moveMark e.marks.r (vals false false) (s.unacked n false false),
                     c := moveMark e.marks.c (vals false true) (s.unacked n false true) }
  let beyond (a : Bool × Bool × Nat) : Bool :=
    match (if a.2.1 then m.c else if a.1 then m.p else m.r) with | some v => decide (v < a.2.2) | none => true
  s.modEq n (fun e => { e with marks := m, acked := e.acked.filter beyond })

/-- An overwritten log or seal record leaves every export queue (R312). -/
def State.itemGone (s : State) (isSeal : Bool) (v : Nat) : State :=
  let s1 := s.modFl (fun f =>
    let es := f.eqs.map (fun e => e.gone isSeal v)
    { f with eqs := es, shadowDirty := f.shadowDirty || decide (es ≠ f.eqs) })
  (List.range 4).foldl (fun (q : State) n => q.moveMarks n) s1

/-- A ring goes into ring error: a device event (R290, R313). -/
def State.ringErr (s : State) (f : Flue → Flue) : State := (s.modFl f).deviceEvent

end Sys2Proof.Machine
end

