-- ==== Sys2Proof/Machine/LogBytes.lean ====
section
/-! DEFINITION. The bytes of logs, extensions, indexes, descriptors and seals (sections 9.1 to 9.3, 9.6, 9.7). -/

namespace Sys2Proof.Machine

/-- A double cell as six bytes. -/
def dblBytes (d : Dbl) : List Byte := leBytes 6 d.toNat

/-- The ODO field of a header (Table 9.1): the live odometer, or all ones when it is not valid. -/
def odoField (valid : Bool) (odo : Dbl) : Dbl := if valid then odo else 0xFFFFFFFFFFFF

/-- The 64-byte header of a log (Table 9.1). -/
def hdrBytes (h : Hdr) (flags : BitVec 16) (length seq : Nat) (prev : List Byte) : List Byte :=
  [0x4D, 0x4C, 1, h.cls] ++ leBytes 2 flags.toNat ++ [h.ptype] ++ leBytes 3 length ++ leBytes 6 seq ++ dblBytes h.course ++
    dblBytes h.crank ++ dblBytes h.tick ++ dblBytes h.odo ++ bytesAt prev 0 24

/-- The log hash (R230). -/
def logHash (header payload : List Byte) : List Byte := sha256 (header ++ sha256 payload)

/-- The bytes that a segment places in the body (R228). -/
def Seg.bytes (g : Seg) : List Byte := packCells g.cells
/-- The body of a log (R228). -/
def LogSlot.body (l : LogSlot) : List Byte := (l.segs.map Seg.bytes).flatten

/-- A copy has something to report (R229). -/
def CopyInfo.flagged (c : CopyInfo) : Bool := c.shortPre || c.trunc || decide (0 < c.missed)

/-- The EMBER record of a copy whose first byte is at `off` and that placed `n` cells (Table 9.4). -/
def CopyInfo.ext (c : CopyInfo) (off n : Nat) : List Byte :=
  [0x01, 68, BitVec.ofNat 8 c.ring,
   BitVec.ofNat 8 (b2n c.half + 2 * b2n c.shortPre + 4 * b2n c.trunc + 8 * b2n c.crec)] ++
  leBytes 4 off ++ leBytes 3 n ++ leBytes 2 c.missed ++ [BitVec.ofNat 8 c.list.length] ++
  bytesAt ((c.list.map (fun m => BitVec.ofNat 8 m.1 :: dblBytes m.2)).flatten) 0 56

/-- The EMBER records of the segments from byte offset `off` (R229). -/
def emberExts : Nat → List Seg → List (List Byte)
  | _, [] => []
  | off, g :: r =>
    let rest := emberExts (off + g.bytes.length) r
    match g.copy with
    | some c => if c.flagged then c.ext off g.cells.length :: rest else rest
    | none => rest

/-- The STORM record (Table 9.4). -/
def stormExt (x : BitVec 32 × Dbl × Dbl) : List Byte := [0x02, 16] ++ leBytes 4 x.1.toNat ++ dblBytes x.2.1 ++ dblBytes x.2.2

/-- The extension records of a log in their order (R229). -/
def LogSlot.exts (l : LogSlot) : List (List Byte) :=
  emberExts 64 l.segs ++ (match l.storm with | some x => [stormExt x] | none => [])

/-- The payload of a log: its body, then its extensions and footer if it has any (R228). -/
def LogSlot.payload (l : LogSlot) : List Byte :=
  let es := l.exts
  if es.isEmpty then l.body
  else l.body ++ es.flatten ++ leBytes 2 (es.flatten.length + 4) ++ [BitVec.ofNat 8 es.length, 0]

/-- Some copy of the log has a property. -/
def LogSlot.anyCopy (l : LogSlot) (p : CopyInfo → Bool) : Bool :=
  l.segs.any (fun g => match g.copy with | some c => p c | none => false)

/-- FLAGS of a thread's log but PROTECT_DENIED (Table 9.2). -/
def LogSlot.flags (l : LogSlot) : BitVec 16 :=
  l.hdr.flags ||| BitVec.ofNat 16 (b2n (l.anyCopy (·.shortPre)) + 2 * b2n (l.anyCopy (·.trunc)) +
    4 * b2n (l.anyCopy (fun c => decide (0 < c.missed))) + 8 * b2n l.storm.isSome + 16 * b2n (!l.exts.isEmpty))

/-- The header flags that hold when a log is opened (Table 9.2): ODO_INV, PH_JUMP, TICK_HOLD. -/
def openFlags (odoValid jump hold : Bool) : BitVec 16 :=
  BitVec.ofNat 16 (64 * b2n (!odoValid) + 128 * b2n jump + 256 * b2n hold)

/-- The header of a log that the Pilot originates (R226). -/
def Phase.logHdr (p : Phase) (cls : Nat) : Hdr :=
  { cls := BitVec.ofNat 8 cls, course := p.course, crank := p.crank, tick := p.tick, odo := odoField p.odoValid p.odo,
    flags := openFlags p.odoValid (p.jumpCourse || p.jumpCrank) (p.holdover || p.tickLost) }

/-- COURSE_SCALE in force. -/
def Phase.scale (p : Phase) : Nat := (p.eff.get 14).toNat

/-- A checkpoint's payload (Table 9.10). -/
def Phase.ckPayload (p : Phase) (reason : Nat) : List Byte :=
  dblBytes p.odo ++ leBytes 3 p.rem ++ leBytes 4 p.pending.toNat ++ leBytes 3 p.scale ++
    [BitVec.ofNat 8 reason, BitVec.ofNat 8 (p.src.toNat + 128 * b2n p.failover)] ++ dblBytes p.course

/-- What a log that the Pilot originates holds when its commit is judged: a checkpoint shows the values of that moment,
as Example 14.1 does (DEDUCED, log entry 91). -/
def Phase.fresh (p : Phase) (h : Hdr) (payload : List Byte) (pilot : Bool) : Hdr × List Byte :=
  if pilot && h.cls = 0x80 then (p.logHdr 0x80, p.ckPayload (leAt payload 16 1)) else (h, payload)

/-- The cord index (R245). -/
def indexBytes (l : List Leaf) : List Byte :=
  (l.map (fun x => leBytes 6 x.seq ++ [x.cls, x.flags] ++ bytesAt x.lh 0 32)).flatten

/-- The code of a closing reason (Table 9.7). -/
def CReason.num : CReason → Nat
  | .full => 1 | .prot => 2 | .timer => 3 | .recover => 4

/-- The cord descriptor (Table 9.7). -/
def Cord.descriptor (c : Cord) : List Byte :=
  [0x4D, 0x58, 0x43, 0x44, 1, BitVec.ofNat 8 c.reason.num] ++ leBytes 2 c.leaves.length ++ leBytes 6 c.no ++
    dblBytes c.tick ++ dblBytes c.course ++ dblBytes c.odo ++ mth (c.leaves.map (·.lh))

/-- Bytes of a seal (R247). -/
def sealLen (w8 : Bool) : Nat := if w8 then 3668 else 5780

/-- The seal of a cord under leaf `q` (R247): the descriptor, the signed bottom public key, the bottom signature. -/
def SealSt.sealBytes (e : SealSt) (c : Cord) (q : Nat) : List Byte :=
  c.descriptor ++ [0, 0, 0, 1] ++ e.curTopSig ++ e.curPub ++ treeSign e.w8 e.seed e.i (q % 2 ^ 20) c.descriptor

/-- Lines of 64 bytes that hold `n` bytes (R258). -/
def linesOf (n : Nat) : Nat := (n + 63) / 64

/-- A cord holds a protected leaf (R260). -/
def protLeaves (l : List Leaf) : Bool := l.any (fun x => closesCord x.cls.toNat)

end Sys2Proof.Machine
end

