-- ==== Sys2Proof/Machine/Vault.lean ====
section
/-! DEFINITION. The vault controller (chapter 10): commits, the journal, placement, admission, the write stream, wear;
cords and the seal queue (R241 to R243). -/

namespace Sys2Proof.Machine

/-- The lines of a partition (Table 1.8). -/
def partLines : Partn → Nat
  | .firmware => 8192 | .config | .odometer | .sealp | .journal => 1024 | .prot => 32768 | .rolling => 86016
/-- The first line of a partition (Table 1.8). -/
def partFirst : Partn → Nat
  | .firmware => 0 | .config => 8192 | .odometer => 9216 | .sealp => 10240 | .journal => 11264 | .prot => 12288
  | .rolling => 45056
/-- The partition of a line, coded in the order of Table 1.8 (R257). -/
def partOfLine (l : Nat) : Partn :=
  if l < 8192 then .firmware else if l < 9216 then .config else if l < 10240 then .odometer else if l < 11264 then .sealp
  else if l < 12288 then .journal else if l < 45056 then .prot else .rolling
/-- The bad blocks of a partition (R273). -/
def Vault.badIn (v : Vault) (p : Partn) : List Nat :=
  v.bad.filter (fun b => decide (partFirst p ≤ 32 * b) && decide (32 * b < partFirst p + partLines p))
/-- The lines that a partition still has (R273). -/
def Vault.cap (v : Vault) (p : Partn) : Nat := partLines p - 32 * (v.badIn p).length
/-- A line stands in no bad block (R273). -/
def Vault.good (v : Vault) (line : Nat) : Bool := !v.bad.contains (line / 32)

/-- The next `n` good lines of a partition from offset `pos`, wrapping from its last line to its first, and the offset
after them (R258, R273); `fuel` bounds the offsets looked at. -/
def Vault.takeLines (v : Vault) (p : Partn) : Nat → Nat → Nat → List Nat × Nat
  | 0, pos, _ => ([], pos)
  | _, pos, 0 => ([], pos)
  | fuel + 1, pos, n + 1 =>
    let line := partFirst p + pos % partLines p
    let next := (pos + 1) % partLines p
    if v.good line then
      let r := v.takeLines p fuel next n
      (line :: r.1, r.2)
    else v.takeLines p fuel next (n + 1)

/-- The WCOUNT that the record of a slot write takes (R385). -/
def Vault.nextWcount (v : Vault) : Nat :=
  let n (f : FwSlot) : Nat := if f.valid then f.wcount else 0
  1 + max (n v.slotA) (n v.slotB)
/-- A slot record (Table 14.4b). -/
def slotRecBytes (id svn len wcount : Nat) : List Byte :=
  [0x4D, 0x58, 0x53, 0x52] ++ leBytes 4 id ++ leBytes 2 svn ++ [0, 0] ++ leBytes 4 len ++ leBytes 4 wcount

/-- A commit goes to lines one of which has an uncorrectable error (R272). -/
def Vault.spoilt (v : Vault) (ls : List Nat) : Bool := ls.any (fun l => v.ueLines.contains l)

/-- The partition of a log class (Table 9.3). -/
def classPart (cls : Nat) : Partn :=
  if cls < 0x40 ∨ cls = 0x81 then .rolling else if cls = 0x80 ∨ cls = 0x82 then .odometer else .prot

/-- The write counter at which a block is retired (R273). -/
def wearLimit : Nat := 10 ^ 10

/-- Block `b` is retired into a spare, or marked bad when none is left (R273): the journal loses the records that stood in
it, a record store its records. -/
def Vault.retire (v : Vault) (b : Nat) : Vault :=
  if v.retiring.contains b || v.bad.contains b then v
  else if 0 < v.spares then { v with spares := v.spares - 1, retiring := v.retiring ++ [b] }
  else { v with bad := v.bad ++ [b], journal := v.journal.filter (fun r => r.line / 32 ≠ b),
                recs := v.recs.filter (fun r => r.line / 32 ≠ b) }

/-- A line is written: its counter rises, what it held in error is gone, and a block whose counter has reached its end is
retired (R272, R273). -/
def Vault.wearLine (v : Vault) (l : Nat) : Vault :=
  let n := memRead v.wear l + 1
  let u := { v with wear := memWrite v.wear l n, ueLines := v.ueLines.filter (· ≠ l) }
  if n.toNat = wearLimit then u.retire (l / 32) else u

/-- Line `l` comes to hold 64 bytes. -/
def Vault.putLine (v : Vault) (l : Nat) (bytes : List Byte) : Vault :=
  { v.wearLine l with raw := memWrite v.raw l (BitVec.ofNat 512 (leNat (bytesAt bytes 0 64))) }

/-- The code of a journal record's type (Table 10.2). -/
def JType.num : JType → Nat
  | .intent => 1 | .commit => 2 | .leaf => 3 | .heads => 4 | .torn => 5 | .shutdown => 6
/-- The code of a partition (Table 10.2). -/
def Partn.num : Partn → Nat
  | .firmware => 0 | .config => 1 | .odometer => 2 | .sealp => 3 | .journal => 4 | .prot => 5 | .rolling => 6

/-- The 64 bytes of a journal record (Table 10.2). -/
def JRec.bytes (r : JRec) : List Byte :=
  let body := match r.heads with
    | some (h, bound) =>
      leBytes 3 (partFirst .odometer + h.odo.pos) ++ leBytes 3 (partFirst .prot + h.prot.pos) ++
        leBytes 3 (partFirst .rolling + h.roll.pos) ++ leBytes 3 bound ++ leBytes 6 h.nextSeq
    | none =>
      leBytes 6 (r.seq.getD 0) ++ [r.cls, BitVec.ofNat 8 r.part.num] ++ leBytes 4 r.start ++ leBytes 3 r.len ++
        [BitVec.ofNat 8 r.leafIx] ++ bytesAt r.lh 0 24 ++ leBytes 6 (r.inCord.getD 0)
  let x := [BitVec.ofNat 8 r.ty.num, BitVec.ofNat 8 (b2n r.inCord.isSome + 2 * b2n r.denied)] ++ leBytes 6 r.jseq ++ bytesAt body 0 52
  x ++ leBytes 4 (crc32 x).toNat

/-- The index of a cord is durable: it has left the seal queue, or its index write is done (R260, R266). -/
def SealSt.indexDone (e : SealSt) (cord : Nat) : Bool :=
  match e.queue.find? (fun c => c.no = cord) with
  | some c => c.indexed
  | none => decide (cord < e.nextCord)

/-- A journal record is live (R266). `newest` is the JSEQ of the newest HEADS record. -/
def Hearth.jlive (h : Hearth) (newest : Nat) (r : JRec) : Bool :=
  match r.ty with
  | .intent => h.vault.adm.any (fun c => c.id = r.cid)
  | .commit | .leaf =>
    (match r.seq with
      | some q =>
        match h.vault.logs.find? (fun l => l.seq = q) with
        | some l => (match l.cord with | some k => !h.se.indexDone k | none => true)
        | none => false
      | none => false)
  | .heads => r.jseq = newest
  | .torn | .shutdown => false

/-- The live journal records (R266). -/
def Hearth.liveRecs (h : Hearth) : List JRec :=
  let js := h.vault.journal
  js.filter (h.jlive (((js.filter (fun r => r.ty = .heads)).getLast?.map (·.jseq)).getD 0))

/-- The number of live journal records (R266). -/
def State.liveJ (s : State) : Nat := s.hs.liveRecs.length

/-- The line of the ring that the next journal record goes to: the next good one that holds no live record (R266, R273,
log entry 99). -/
def Hearth.jLine (h : Hearth) : Nat :=
  let live := h.liveRecs
  let at_ (k : Nat) : Nat := partFirst .journal + (h.vault.jPos + k) % partLines .journal
  match (List.range (partLines .journal)).find? (fun k => h.vault.good (at_ k) && !live.any (fun r => r.line = at_ k)) with
  | some k => at_ k
  | none => at_ 0

/-- The furthest of two heads of a circular area. -/
def Head.max (a b : Head) : Head := if a.off ≤ b.off then b else a

/-- What a replay of the journal finds once an INTENT has been added (R268): the heads and the next SEQ of its log. -/
def Heads.intent (h : Heads) (p : Partn) (top : Head) (log : Option (Nat × List Byte)) : Heads :=
  let g := match p with
    | .odometer => { h with odo := h.odo.max top }
    | .prot => { h with prot := h.prot.max top }
    | .rolling => { h with roll := h.roll.max top }
    | _ => h
  match log with
  | some (q, lh) => if h.nextSeq ≤ q then { g with nextSeq := q + 1, prev := lh.take 24 } else g
  | none => g

/-- A record into its line of the journal ring; `hd` is what a replay then finds (R266, R268). The end of JSEQ is a vault
fault (R430). -/
def Hearth.jraw (h : Hearth) (r : JRec) (hd : Heads) : Hearth :=
  let line := h.jLine
  let v := h.vault
  let rec_ := { r with jseq := v.jseq, line := line }
  let u := v.putLine line rec_.bytes
  { h with vault :=
    { u with journal := u.journal.filter (fun x => x.line ≠ line) ++ [rec_], jseq := v.jseq + 1,
             jPos := line - partFirst .journal + 1, jhd := hd, jhd0 := v.jhd,
             fault := u.fault || decide (2 ^ 48 ≤ v.jseq + 1) } }

/-- A HEADS record (R266). -/
def Hearth.jheads (h : Hearth) : Hearth :=
  let g := h.jraw { ty := .heads, heads := some (h.vault.jhd, partFirst .prot + h.vault.relPos) } h.vault.jhd
  { g with vault := { g.vault with jSince := 0 } }

/-- A journal record, and the HEADS record due after every 256 (R266). -/
def Hearth.jputH (h : Hearth) (r : JRec) (hd : Heads) : Hearth :=
  let g := h.jraw r hd
  if 256 ≤ h.vault.jSince + 1 then g.jheads else { g with vault := { g.vault with jSince := h.vault.jSince + 1 } }

/-- A journal record that changes no head. -/
def Hearth.jput (h : Hearth) (r : JRec) : Hearth := h.jputH r h.vault.jhd

/-- The journal record of a type for a commit (Table 10.2): its lines, and for a log its SEQ, class and hash. -/
def Hearth.jOf (h : Hearth) (ty : JType) (c : Commit) : JRec :=
  let start := c.at_.headD 0
  let b : JRec := { ty := ty, cid := c.id, part := partOfLine start, start := start, len := 64 * c.lines }
  match c.seq, h.vault.logs.find? (fun l => some l.seq = c.seq) with
  | some q, some l => { b with seq := some q, cls := l.cls, denied := l.flags.getLsbD 5, len := l.bytes.length, lh := l.lh.take 24 }
  | _, _ => b

/-- A commit of a log that the Pilot originates: it holds a Pilot slot and one staging unit (R232). -/
def Commit.fromPilot (c : Commit) : Bool := match c.kind with | .hw _ _ p => p | _ => false
/-- The Pilot slots in use (R232). -/
def Vault.pilotSlots (v : Vault) : Nat := ((v.wait ++ v.adm).filter Commit.fromPilot).length
/-- The staging units of an image of `n` bytes (R232, R336). -/
def imageUnits (n : Nat) : Nat := (n + 2047) / 2048
/-- Staging units that the images on their way to a FIRMWARE slot hold, from their copy until the image commit is durable
(R336). -/
def State.imageStage (s : State) : Nat :=
  (s.fl.runs.map (fun r => match r.kind with | .image k b => if k = 0 then 0 else imageUnits b.length | _ => 0)).sum +
  ((s.hs.vault.wait ++ s.hs.vault.adm).map (fun c => match c.kind with | .image _ b => imageUnits b.length | _ => 0)).sum
/-- Free staging units (R232). An image that finds too few takes them all the same (log entry 102). -/
def State.freeStage (s : State) : Nat :=
  1024 - (s.hs.slots.toList.map LogSlot.units).sum - s.hs.vault.pilotSlots - s.imageStage

/-- The queue entry of a cord. -/
def State.cord? (s : State) (no : Nat) : Option Cord := s.hs.se.queue.find? (fun c => c.no = no)

/-- The lines that a commit writes, journal records apart (R258, R260, R277, R385). -/
def State.kindLines (s : State) (k : CKind) : Nat :=
  match k with
  | .slot i => linesOf (64 + (s.hs.slots.get i).payload.length)
  | .hw _ p _ => linesOf (64 + p.length)
  | .image _ b | .bundle _ b => linesOf b.length
  | .index no => linesOf (40 * ((s.cord? no).map (·.leaves.length)).getD 0)
  | .sealRec no => linesOf (sealLen s.hs.se.w8 + 40 * ((s.cord? no).map (·.leaves.length)).getD 0)
  | _ => 1

/-- The priority class of a commit at its request (R261). -/
def State.kindClass (s : State) (k : CKind) : WClass :=
  let ofPart (p : Partn) : WClass := match p with | .odometer => .system | .prot => .prot | _ => .rolling
  match k with
  | .slot i => ofPart (classPart (s.hs.slots.get i).hdr.cls.toNat)
  | .hw h _ _ => ofPart (classPart h.cls.toNat)
  | .image _ _ | .slotRec _ _ _ _ | .bundle _ _ | .rewrite _ => .rolling
  | .index no | .sealRec no => if ((s.cord? no).map (fun c => protLeaves c.leaves)).getD false then .prot else .rolling
  | _ => .system

/-- The cost of a commit in credits (R277). -/
def commitCost (lines : Nat) : Nat := 8 + (lines + 3) / 4

/-- A commit is requested (R265 step 1). In RETIRED and INVALID the vault accepts no write (R364, R368). -/
def State.submit (s : State) (k : CKind) (tag : Option Nat := none) : State :=
  if s.life = 4 ∨ s.life = 7 then s
  else
    let n := s.kindLines k
    s.modVault (fun v =>
      { v with wait := v.wait ++ [{ id := v.nextId, kind := k, cls := s.kindClass k, lines := n, cost := commitCost n, tag := tag }],
               nextId := v.nextId + 1 })

/-- The highest odometer in a durable log of ODOMETER (R255): the first six payload bytes of 0x80 and 0x82 logs. -/
def Vault.odoBest (v : Vault) : Nat :=
  (v.logs.filter (fun l => l.durable && l.part = .odometer)).foldl (fun m l => max m (leAt l.bytes 64 6)) 0

/-- The seal room that protected logs hold (R269), `but` the logs of one cord. -/
def State.sealRoom (s : State) (but : Option Nat) : Nat :=
  let v := s.hs.vault
  let held := v.logs.filter (fun l => l.part = .prot && closesCord l.cls.toNat && (l.cord ≠ but || but = none) &&
    !(match l.cord with | some k => v.seals.any (fun x => x.cord = k && x.durable) | none => false))
  let used := ((v.seals.filter (fun x => !x.durable && x.part = .prot && x.lines ≠ 0 && (some x.cord ≠ but))).map (·.lines)).sum
  251 * held.length - used

/-- The lines of PROTECTED before its release boundary (R269): all of them, less the good lines from the boundary to the
head. -/
def Vault.protFree (v : Vault) : Nat :=
  let n := partLines .prot
  let d := (v.hd.prot.pos + n - v.relPos) % n
  let span := if v.hd.prot.off = v.relBound then 0 else if d = 0 then n else d
  v.cap .prot - ((List.range span).filter (fun i => v.good (partFirst .prot + (v.relPos + i) % n))).length

/-- The head of a circular partition. -/
def Vault.head (v : Vault) (p : Partn) : Head :=
  match p with | .prot => v.hd.prot | .odometer => v.hd.odo | _ => v.hd.roll

/-- `n` lines are placed at the head of a circular partition (R258): the lines, and the vault with its head past them. -/
def Vault.place (v : Vault) (p : Partn) (n : Nat) : List Nat × Vault :=
  let h := v.head p
  let r := v.takeLines p (2 * partLines p) h.pos n
  let g : Head := { off := h.off + n, pos := r.2 }
  (r.1, { v with hd := match p with
    | .prot => { v.hd with prot := g }
    | .odometer => { v.hd with odo := g }
    | _ => { v.hd with roll := g } })

/-- The write of commit `c` overwrites lines (R258, R271): the older logs and seal records that have one of them are no
longer valid and leave the export queues. -/
def State.overwrite (s : State) (c : Commit) : State :=
  let v := s.hs.vault
  let hit (ls : List Nat) : Bool := ls.any (fun l => c.at_.contains l)
  let mine (k : CKind) : Bool := decide (c.kind = k)
  let lost (l : VLog) : Bool := hit l.at_ && some l.seq ≠ c.seq
  let lostS (x : VSeal) : Bool := hit x.at_ && !mine (.sealRec x.cord)
  let gl := (v.logs.filter lost).map (·.seq)
  let gs := (v.seals.filter lostS).map (·.cord)
  let s1 := s.modVault (fun v => { v with logs := v.logs.filter (fun l => !lost l), seals := v.seals.filter (fun x => !lostS x),
                                          goneL := v.logs.filter lost, goneS := v.seals.filter lostS })
  gs.foldl (fun (q : State) n => q.itemGone true n) (gl.foldl (fun (q : State) n => q.itemGone false n) s1)

/-- The key of a record of the CONFIG or the SEAL record store (Table 10.1); none for what is no keyed record. -/
def CKind.key : CKind → Option Nat
  | .phaseCfg _ => some 0
  | .cordTime _ => some 1
  | .tokenId _ => some 2
  | .release _ _ => some 3
  | .marks n _ => some (4 + n)
  | .svnFloor k _ => some (8 + k)
  | .tries _ _ => some 11
  | .reserve _ => some 16
  | .treeSwitch => some 17
  | .treeReady => some 18
  | .progress _ => some 19
  | .keyPair => some 20
  | _ => none

/-- The first line and the lines of the record store that a key belongs to (Table 10.1). -/
def recStore (key : Nat) : Nat × Nat := if key < 16 then (partFirst .config, 1024) else (partFirst .sealp + 640, 384)

/-- A record is the newest of its key (Table 10.1). -/
def Vault.newest (v : Vault) (r : VRec) : Bool := v.recs.all (fun x => x.key ≠ r.key || decide (x.ord ≤ r.ord))

/-- The newest record of a key stands in a line with an uncorrectable error (R272). -/
def Vault.recSpoilt (v : Vault) (key : Nat) : Bool :=
  v.recs.any (fun r => r.key = key && v.newest r && v.ueLines.contains r.line)

/-- The line for a new record of a key (Table 10.1): a good line that holds no record and waits for none, else that of the
oldest superseded record. -/
def Vault.recLine (v : Vault) (key : Nat) : Nat :=
  let st := recStore key
  let busy (l : Nat) : Bool := v.adm.any (fun c => c.at_.contains l)
  match (List.range st.2).find? (fun i => v.good (st.1 + i) && !busy (st.1 + i) && !v.recs.any (fun r => r.line = st.1 + i)) with
  | some i => st.1 + i
  | none =>
    let old := v.recs.filter (fun r => decide (st.1 ≤ r.line) && decide (r.line < st.1 + st.2) && !v.newest r && !busy r.line)
    match old with
    | [] => st.1
    | r :: rest => (rest.foldl (fun m x => if x.ord < m.ord then x else m) r).line

/-- The lines that a commit which is no log and no seal record goes to (R257, R260, R385). -/
def State.ownLines (s : State) (c : Commit) : List Nat :=
  let run (first : Nat) : List Nat := (List.range c.lines).map (fun i => first + i)
  match c.kind with
  | .index no => run (partFirst .sealp + 160 * ((s.cord? no).map (·.slot)).getD 0)
  | .image b _ => run (if b then 0x60 * 32 else 0)
  | .slotRec b _ _ _ => [0xD0 * 32 + b2n b]
  | .bundle o _ => run (if o then 0xC8 * 32 else 0xC0 * 32)
  | .rewrite l => [l]
  | k => match k.key with | some n => [s.hs.vault.recLine n] | none => []

/-- The Damper ledger takes a commit, and the commit is admitted (R265, R278). -/
def State.take (s : State) (c : Commit) : State :=
  (s.modVault (fun v => { v with wait := v.wait.filter (fun x => x.id ≠ c.id),
                                 adm := v.adm ++ [c] })).modDmp (fun d => { d with rsv := d.rsv + c.cost })

/-- A waiting commit is dropped without admission. -/
def State.unwait (s : State) (c : Commit) : State :=
  s.modVault (fun v => { v with wait := v.wait.filter (fun x => x.id ≠ c.id) })

/-- A log is admitted (R225, R230, R231, R258, R261, R265, R269): SEQ, PREV, placement, PROTECT_DENIED, LH. A customer log
that is denied PROTECTED is written as a ROLLING one; a device class keeps its priority. -/
def State.admitLog (s : State) (c : Commit) (h : Hdr) (payload : List Byte) (fl : BitVec 16) (slot : Option Nat) : State :=
  let v := s.hs.vault
  let want := classPart h.cls.toNat
  let denied := want = .prot && decide (v.protFree < c.lines + 251 + s.sealRoom none)
  let p := if denied then .rolling else want
  let flags := if denied then fl ||| 0x20 else fl
  let seq := v.hd.nextSeq
  let hdr := hdrBytes h flags (64 + payload.length) seq v.hd.prev
  let lh := logHash hdr payload
  let pl := v.place p c.lines
  let lg : VLog := { seq := seq, cls := h.cls, flags := flags, part := p, start := (v.head p).off, lines := c.lines, at_ := pl.1,
                     bytes := hdr ++ payload, lh := lh, slot := slot.map (fun i => (i, (s.hs.slots.get i).gen)) }
  let s1 := (s.modVault (fun _ => pl.2)).take
    { c with seq := some seq, at_ := pl.1, cls := if denied && h.cls.toNat < 0x80 then .rolling else c.cls }
  let s2 := s1.modVault (fun v =>
    { v with hd := { v.hd with nextSeq := seq + 1, prev := lh.take 24 }, logs := v.logs ++ [lg],
             fault := v.fault || decide (2 ^ 48 ≤ seq + 1) })
  let s3 := match slot with
    | some i => s2.modSlot i (fun l => { l with state := .admitted, seq := BitVec.ofNat 48 seq, denied := denied })
    | none => s2
  (if denied then (s3.modFl (fun f => { f with pdenied := f.pdenied + 1 })).deviceEvent else s3).syncDstate

/-- A seal record is admitted: its place in PROTECTED if a leaf is protected and it fits, else in ROLLING (R260, R269). -/
def State.admitSeal (s : State) (c : Commit) (no : Nat) : State :=
  let v := s.hs.vault
  let prot := c.cls = .prot && decide (c.lines + s.sealRoom (some no) ≤ v.protFree)
  let p : Partn := if prot then .prot else .rolling
  let start := (v.head p).off
  let pl := v.place p c.lines
  ((s.modVault (fun _ => pl.2)).take { c with at_ := pl.1 }).modVault (fun v =>
    { v with seals := v.seals.map (fun (x : VSeal) => if x.cord = no then { x with part := p, start := start, lines := c.lines, at_ := pl.1 } else x) })

/-- A commit that writes its own area is admitted (R265). -/
def State.admitRec (s : State) (c : Commit) : State := s.take { c with at_ := s.ownLines c }

/-- The Damper's answer to the odometer rule (R255): a refused log takes no SEQ and no credit. A checkpoint counts in
ODO_REFUSED; a setting ends its command with ODO_REFUSED. -/
def State.refuseOdo (s : State) (c : Commit) (cls : Nat) : State :=
  let s1 := s.unwait c
  if cls = 0x80 then s1.modPh (fun p => { p with odoRefused := satInc p.odoRefused })
  else match c.tag with
    | some t => s1.finish t 0x16
    | none => s1

/-- A waiting commit is admitted (R265 step 2). An image commit leaves its slot without an image that passes its checks
(R336). -/
def State.admission (s : State) (c : Commit) : State :=
  match c.kind with
  | .slot i => let l := s.hs.slots.get i; s.admitLog c l.hdr l.payload l.flags (some i)
  | .hw h0 p0 pilot =>
    let (h, p) := s.pil.ph.fresh h0 p0 pilot
    if (h.cls = 0x80 ∨ h.cls = 0x82) ∧ leNat (p.take 6) < s.hs.vault.odoBest then s.refuseOdo c h.cls.toNat
    else
      (s.admitLog c h p h.flags none).modPh (fun q =>
        if pilot && h.cls = 0x80 then { q with ckOdo := q.odo, ckTick := q.tick, ckAdv := false } else q)
  | .sealRec no => s.admitSeal c no
  | .image b _ =>
    (s.admitRec c).modVault (fun v => if b then { v with slotB := { v.slotB with bytes := [] } } else { v with slotA := { v.slotA with bytes := [] } })
  | _ => s.admitRec c

/-- A closed cord takes a queue place and a free cord-index slot; its index is to be written (R241, R242, R260). The end of the
cord numbers is a vault fault (R430). -/
def State.closeCord (s : State) (r : CReason) : State :=
  let e := s.hs.se
  let m := s.fb.mir
  let slot := ((List.range 4).find? (fun i => !e.queue.any (fun x => x.slot = i))).getD 0
  let c : Cord := { no := e.nextCord, reason := r, leaves := e.openCord, tick := m.tick, course := m.course, odo := m.odo, slot := slot }
  let s1 := (s.modSeal (fun e => { e with openCord := [], due := none, timer := none, queue := e.queue ++ [c], nextCord := e.nextCord + 1 })).modVault
    (fun v => { v with logs := v.logs.map (fun l => if e.openCord.any (fun x => x.seq = l.seq) then { l with cord := some c.no } else l),
                       fault := v.fault || decide (2 ^ 48 ≤ e.nextCord + 1) })
  (s1.submit (.index c.no)).syncDstate

/-- A leaf enters the open cord in PLCLK cycle `now`: the first one starts the timer, and a close may be due (R241). -/
def SealSt.enter (e : SealSt) (l : Leaf) (now : Nat) : SealSt :=
  let o := e.openCord ++ [l]
  { e with openCord := o, timer := if e.openCord.isEmpty then some now else e.timer,
           due := match e.due with
             | some r => some r
             | none => if 256 ≤ o.length then some .full else if closesCord l.cls.toNat then some .prot else none }

/-- The cords that were queued at the last recovery are sealed (R243). -/
def SealSt.oldSealed (e : SealSt) : Bool := e.queue.all (fun c => c.released || decide (e.recBound ≤ c.no))
/-- The open cord can take a leaf now (R242, R243). -/
def SealSt.canEnter (e : SealSt) : Bool :=
  e.oldSealed && e.recov.isEmpty && e.due ≠ some .recover && decide (e.openCord.length < 256)

/-- The COMMIT or LEAF record of a log (Table 10.2); `now`: its leaf enters the open cord with it. -/
def Hearth.leafRec (h : Hearth) (ty : JType) (l : Leaf) (now : Bool) : JRec :=
  let b : JRec := match h.vault.logs.find? (fun x => x.seq = l.seq) with
    | some x => { ty := ty, seq := some l.seq, cls := x.cls, denied := x.flags.getLsbD 5, part := x.part, start := x.at_.headD 0,
                  len := x.bytes.length, lh := x.lh.take 24 }
    | none => { ty := ty, seq := some l.seq, cls := l.cls, lh := l.lh.take 24 }
  if now then { b with inCord := some h.se.nextCord, leafIx := h.se.openCord.length } else b

/-- Closes that are due, RECOVER cords and waiting leaves, as far as the seal queue allows (R242, R243). After a power-fail
warning no cord closes: what becomes durable then stays in the open cord, as Example 10.1 shows. -/
def State.pump : Nat → State → State
  | 0, s => s
  | n + 1, s =>
    let e := s.hs.se
    match e.due with
    | some r =>
      if e.queue.length < 4 && !s.pil.dmp.pfWarn then (s.closeCord r).pump n
      else
        match e.waiting with
        | l :: rest =>
          if e.canEnter then
            ((s.modHs (fun h => h.jput (h.leafRec .leaf l true))).modSeal (fun e => { (e.enter l s.pil.ph.clk) with waiting := rest })).pump n
          else s
        | [] => s
    | none =>
      if e.openCord.isEmpty && !e.recov.isEmpty && e.oldSealed then
        (s.modSeal (fun e => { e with openCord := e.recov.take 256, recov := e.recov.drop 256, due := some .recover })).pump n
      else
        match e.waiting with
        | l :: rest =>
          if e.canEnter then
            ((s.modHs (fun h => h.jput (h.leafRec .leaf l true))).modSeal (fun e => { (e.enter l s.pil.ph.clk) with waiting := rest })).pump n
          else s
        | [] => s

/-- The cords go on as far as they can. -/
def State.cords (s : State) : State := s.pump (2 * (s.hs.se.waiting.length + s.hs.se.recov.length) + 8)

/-- A leaf takes its place in SEQ order (R243). -/
def Leaf.insert (l : Leaf) : List Leaf → List Leaf
  | [] => [l]
  | x :: r => if l.seq < x.seq then l :: x :: r else x :: Leaf.insert l r

/-- The cords after a power loss (R243): the open cord closes with reason RECOVER, and the logs in no cord follow in SEQ
order. Cords numbered below the next one are sealed before any new leaf enters. -/
def SealSt.recover (e : SealSt) : SealSt :=
  { e with recov := (e.recov ++ e.waiting).foldl (fun a l => l.insert a) [], waiting := [],
           due := if e.openCord.isEmpty then none else some .recover, timer := none, recBound := e.nextCord }

/-- A log's leaf enters the open cord, or waits for the next one (R241, R242); its COMMIT record says which. -/
def State.leafIn (s : State) (cid : Nat) (l : Leaf) : State :=
  let now := s.hs.se.canEnter && s.hs.se.waiting.isEmpty
  let s1 := s.modHs (fun h => h.jput { (h.leafRec .commit l now) with cid := cid })
  (if now then s1.modSeal (fun e => e.enter l s.pil.ph.clk) else s1.modSeal (fun e => { e with waiting := e.waiting ++ [l] })).cords

/-- The bytes that a commit writes to the array, where the spec gives their layout (R230, R245, R260, Table 14.4b); the
layout of the keyed records is not given, and they are held as VRec. -/
def State.commitBytes (s : State) (c : Commit) : Option (List Byte) :=
  let v := s.hs.vault
  match c.kind with
  | .slot _ | .hw _ _ _ => (v.logs.find? (fun l => some l.seq = c.seq)).map (·.bytes)
  | .sealRec no => (v.seals.find? (fun x => x.cord = no)).map (fun x => x.sealBytes ++ indexBytes x.leaves)
  | .index no => (s.cord? no).map (fun k => indexBytes k.leaves)
  | .image _ b | .bundle _ b => some b
  | .slotRec _ id svn len => some (slotRecBytes id svn len v.nextWcount)
  | _ => none

/-- Line `i` of a commit is written (R259, R265 step 4): encrypted in PROTECTED and ROLLING. -/
def State.writeLine (s : State) (c : Commit) (i : Nat) : State :=
  let line := c.at_.getD i 0
  match s.commitBytes c with
  | some b =>
    let x := bytesAt b (64 * i) 64
    let y := match partOfLine line with
      | .prot | .rolling => xtsLine s.hs.keys.vault line x
      | _ => x
    s.modVault (fun v => v.putLine line y)
  | none => s.modVault (fun v => v.wearLine line)

/-- A SYSTEM write takes `n` lines of the stream now (R264); what is older than 1 ms counts no more. -/
def State.sysLines (s : State) (c : Commit) (n : Nat) : State :=
  if c.cls = .system then
    s.modVault (fun v => { v with sysAt := v.sysAt.filter (fun t => decide (s.pil.ph.clk < t + 100000)) ++ List.replicate n s.pil.ph.clk })
  else s

/-- The classes in the order in which the stream serves them (R261, R264): SYSTEM writes that would take more than 64 lines
in 1 ms wait behind PROTECTED ones, but not after a power-fail warning. -/
def State.classOrder (s : State) : List WClass :=
  let recent := (s.hs.vault.sysAt.filter (fun t => decide (s.pil.ph.clk < t + 100000))).length
  let next := match s.hs.vault.adm.find? (fun c => c.cls = .system) with
    | some c => if c.begun then c.lines + 1 - c.pos else c.lines + 2
    | none => 0
  if 64 < recent + next && !s.pil.dmp.pfWarn then [.prot, .system, .rolling] else [.system, .prot, .rolling]

/-- The write that the stream serves next (R261): the first admitted of the first class that has one. -/
def State.nextWrite (s : State) : Option Commit :=
  (s.classOrder.filterMap (fun k => s.hs.vault.adm.find? (fun c => c.cls = k))).head?

/-- The write that holds the stream. -/
def Vault.curWrite (v : Vault) : Option Commit := v.adm.find? (fun c => some c.id = v.cur)

/-- A write may lose the stream (R262): it has not begun, or its next line is the first of a 2 KiB block. -/
def Commit.atEdge (c : Commit) : Bool := !c.begun || (decide (c.pos < c.at_.length) && decide (c.at_.getD c.pos 0 % 32 = 0))

/-- An admitted commit changed. -/
def Vault.modAdm (v : Vault) (id : Nat) (f : Commit → Commit) : Vault :=
  { v with adm := v.adm.map (fun c => if c.id = id then f c else c) }

/-- The head of the partition after the lines of a log or seal record that have been placed. -/
def Hearth.topOf (h : Hearth) (c : Commit) : Head :=
  let last := c.at_.getLast?.getD 0
  let p := partOfLine last
  let off := match h.vault.logs.find? (fun l => some l.seq = c.seq) with
    | some l => l.start + l.lines
    | none => match c.kind with
      | .sealRec no => ((h.vault.seals.find? (fun x => x.cord = no)).map (fun x => x.start + x.lines)).getD 0
      | _ => 0
  { off := off, pos := (last - partFirst p + 1) % partLines p }

/-- A write begins (R265 step 3, R271): what it overwrites is no longer valid, and its INTENT is in the journal. -/
def State.beginWrite (s : State) (c : Commit) : State :=
  let s1 := (s.overwrite c).sysLines c 1
  let b (h : Hearth) : Hearth :=
    let r := h.jOf .intent c
    h.jputH r (h.vault.jhd.intent (partOfLine (c.at_.getLast?.getD 0)) (h.topOf c) (r.seq.map (fun q => (q, r.lh))))
  ((s1.modHs b).modVault (fun v => { (v.modAdm c.id (fun x => { x with begun := true })) with cur := some c.id })).syncDstate

/-- The stream goes to the write that has it now (R261, R262): the one in progress until it may lose it, else the next. -/
def State.grab (s : State) : State :=
  let pick : State :=
    match s.nextWrite with
    | some c => if c.begun then s.modVault (fun v => { v with cur := some c.id }) else s.beginWrite c
    | none => s.modVault (fun v => { v with cur := none })
  match s.hs.vault.curWrite with
  | some c => if c.atEdge then pick else s
  | none => pick

/-- The write that holds the stream writes its next line (R262). -/
def State.lineStep (s : State) : State :=
  match s.hs.vault.curWrite with
  | some c =>
    if c.pos < c.at_.length then
      (((s.writeLine c c.pos).sysLines c 1).modVault (fun v => v.modAdm c.id (fun x => { x with pos := x.pos + 1 }))).grab
    else s
  | none => s

/-- Lines are written until one write has all of its lines (R262); `fuel` bounds them. -/
def State.runStream : Nat → State → State
  | 0, s => s
  | n + 1, s =>
    match s.hs.vault.curWrite with
    | some c => if c.pos < c.at_.length then s.lineStep.runStream n else s
    | none => s

/-- The lines that admitted writes still have to write. -/
def Vault.toWrite (v : Vault) : Nat := (v.adm.map (fun c => c.at_.length - c.pos)).sum

/-- The stream runs on until the next write has all of its lines (R262). -/
def State.streamed (s : State) : State := s.grab.runStream s.hs.vault.toWrite

/-- One PLCLK cycle of the vault's write stream: a line takes 0.4 us, 40 cycles (R261). -/
def State.streamCycle (s : State) : State :=
  if s.hs.vault.lineClk + 1 < 40 then s.modVault (fun v => { v with lineClk := v.lineClk + 1 })
  else (s.modVault (fun v => { v with lineClk := 0 })).lineStep

/-- A waiting commit is admitted, and the stream takes it up when it is free (R261, R265). -/
def State.takeIn (s : State) (c : Commit) : State := (s.admission c).grab

end Sys2Proof.Machine
end

