-- ==== Sys2Proof/Machine/Phase.lean ====
section
/-! DEFINITION. The timebase (chapter 02): angle inputs, COURSE, CRANK, TICK, the mirror, comparators, the live
odometer and its checkpoints, standby counting and wake requests; with the commands that bring their events. -/

namespace Sys2Proof.Machine

/-- EDGE of input `i` in force: 0 RISE, 1 FALL, 2 BOTH (R478). -/
def Phase.edge (p : Phase) (i : Nat) : Nat := fieldN (p.eff.get i) 0 2
/-- HOLDOFF of input `i` in PLCLK cycles. -/
def Phase.holdoff (p : Phase) (i : Nat) : Nat := 10 * fieldN (p.eff.get i) 2 8
/-- EARLY of input `i` in quarters. -/
def Phase.early (p : Phase) (i : Nat) : Nat := fieldN (p.eff.get i) 10 2
/-- COURSE_PRI in force. -/
def Phase.pri (p : Phase) : Nat := fieldN (p.eff.get 10) 0 2
/-- COURSE_BAK in force; 4 means NONE. -/
def Phase.bak (p : Phase) : Nat := fieldN (p.eff.get 10) 2 3
/-- PLAUS_WIN in force. -/
def Phase.plausWin (p : Phase) : Nat := fieldN (p.eff.get 10) 5 13
/-- PLAUS_TOL in force. -/
def Phase.plausTol (p : Phase) : Nat := fieldN (p.eff.get 10) 18 5
/-- FAIL_TEETH in force. -/
def Phase.failTeeth (p : Phase) : Nat := fieldN (p.eff.get 11) 0 12
/-- CRK_TEETH in force. -/
def Phase.crkTeeth (p : Phase) : Nat := fieldN (p.eff.get 11) 12 7
/-- CRK_MISSING in force. -/
def Phase.crkMissing (p : Phase) : Nat := fieldN (p.eff.get 11) 19 2
/-- CAM_EN in force. -/
def Phase.camEn (p : Phase) : Bool := (p.eff.get 11).getLsbD 21
/-- CAM_HALF in force. -/
def Phase.camHalf (p : Phase) : Bool := (p.eff.get 11).getLsbD 22
/-- CRK_OFFSET in force. -/
def Phase.crkOffset (p : Phase) : Nat := fieldN (p.eff.get 12) 0 16
/-- STBY_WAKE_TEETH in force. -/
def Phase.wakeTeeth (p : Phase) : Nat := fieldN (p.eff.get 13) 0 16

/-- A level is the tooth edge's level under an EDGE setting (R37). -/
def isTooth (edge : Nat) (level : Bool) : Bool := edge = 2 || level == (edge == 0)

/-- The conditioning stage rejects an edge (R35). -/
def Phase.rejects (p : Phase) (i : Nat) (tooth : Bool) : Bool :=
  let a := p.ang.get i
  (match a.lastTr with | some t => decide (p.clk - t < p.holdoff i) | none => false) ||
  (tooth && (match a.lastTooth with
    | some t =>
      decide (p.clk - t < 2500) ||
      (match a.tprev with | some tp => decide (4 * (p.clk - t) < p.early i * tp) | none => false)
    | none => false))

/-- PH_STATUS (Table 18.10). -/
def Phase.status (p : Phase) : BitVec 13 :=
  let k := match p.crk with | .nosync => 0 | .candidate => 1 | .sync360 => 2 | .sync720 => 3
  BitVec.ofNat 13 (k + 4 * b2n p.dir + 8 * p.src.toNat + 32 * b2n p.failover +
    64 * b2n (p.ang.get p.src.toNat).stopped + 128 * b2n (p.ang.get 4).stopped + 256 * b2n p.jumpCourse +
    512 * b2n p.jumpCrank + 1024 * b2n p.holdover + 2048 * b2n p.tickLost + 4096 * b2n p.odoValid)

/-- Micrometres reach the odometer (R59); it holds at its end. -/
def Phase.addUm (p : Phase) (um : Nat) : Phase :=
  { p with odo := satAdd p.odo ((p.rem + um) / 100000), rem := (p.rem + um) % 100000 }

/-- The pending teeth reach the odometer in one step once a base and a scale are there (R59). -/
def Phase.applyPending (p : Phase) : Phase :=
  if p.odoValid && p.scale ≠ 0 then { (p.addUm (p.pending.toNat * p.scale)) with pending := 0 } else p

/-- `n` whole teeth reach the odometer (R59); a new scale applies from this tooth (R60). PENDING saturates (R429). -/
def Phase.odoTeeth (p : Phase) (n : Nat) : Phase :=
  let q := if p.eff.get 14 = p.cfg.get 14 then p else Phase.applyPending { p with eff := p.eff.set 14 (p.cfg.get 14) }
  let r := if q.odoValid && q.scale ≠ 0 then q.addUm (n * q.scale) else { q with pending := satAdd q.pending n }
  { r with ckAdv := true }

/-- COURSE advances by `n` whole teeth, its fraction 0 (R40, R41, R44). -/
def Phase.advance (p : Phase) (n : Nat) : Phase :=
  ({ p with course := BitVec.ofNat 48 ((p.course.toNat / 4096 + n) * 4096) }).odoTeeth n

/-- COURSE's fraction now (R40): the value with the fraction of the last tooth interval, or as it stands. -/
def Phase.courseNow (p : Phase) : Dbl :=
  let a := p.ang.get p.src.toNat
  match a.lastTooth, a.tprev with
  | some t, some tp =>
    if a.stopped then p.course
    else BitVec.ofNat 48 (p.course.toNat / 4096 * 4096 + min ((p.clk - t) * 4096 / tp) 4095)
  | _, _ => p.course

/-- CRANK is synchronised. -/
def Phase.synced (p : Phase) : Bool := p.crk = .sync360 || p.crk = .sync720

/-- The CRANK angle now (R47): position q with its fraction; across the gap the position runs on, at most CRK_MISSING
times. -/
def Phase.angle (p : Phase) : Nat :=
  let a := p.ang.get 4
  let room := if p.crkQ % p.crkTeeth = p.crkTeeth - p.crkMissing - 1 then p.crkMissing * 4096 + 4095 else 4095
  let fr := match a.lastTooth, a.tprev with
    | some t, some tp => min ((p.clk - t) * 4096 / tp) room
    | _, _ => 0
  ((p.crkQ * 4096 + fr) * 8 / p.crkTeeth + p.crkOffset) % 65536

/-- CRANK moved on to an angle (R47); an angle behind it holds it, for no phase decreases (R33). -/
def crankTo (crank : Dbl) (angle : Nat) : Dbl :=
  let d := (angle + 65536 - crank.toNat % 65536) % 65536
  if d < 32768 then crank + BitVec.ofNat 48 d else crank

/-- The smallest value not below `crank` whose angle is `angle` modulo `m` (R49). -/
def crankUp (crank : Dbl) (angle m : Nat) : Dbl := crank + BitVec.ofNat 48 ((angle % m + m - crank.toNat % m) % m)

/-- CRANK now. -/
def Phase.crankNow (p : Phase) : Dbl := if p.synced then crankTo p.crank p.angle else p.crank

/-- TICK from the SBCLK edges and the PLCLK cycles since the last (R50); held while lost (R51), and 0 before the first
edge (R447). -/
def Phase.tickNow (p : Phase) : Dbl :=
  if p.tickLost then p.tick else if p.sbS = 0 then 0 else BitVec.ofNat 48 (32 * p.sbS + min (p.sbN * 32 / p.ts) 31)

/-- The phases recomputed for the present PLCLK cycle. -/
def Phase.update (p : Phase) : Phase := { p with course := p.courseNow, crank := p.crankNow, tick := p.tickNow }

/-- One PLCLK cycle passes (R25, R40, R47, R50, R51): an SBCLK edge after every 100,000,000 / 32,768 cycles while the
crystal runs, a step of 32 ticks every t_s cycles in holdover. -/
def Phase.cycle (p : Phase) : Phase :=
  let q := { p with clk := p.clk + 1, sbN := p.sbN + 1 }
  let r :=
    if q.holdover then (if q.ts ≤ q.sbN then { q with sbS := q.sbS + 1, sbN := 0 } else q)
    else if !q.xtal then q
    else if 100000000 ≤ q.sbAcc + 32768 then
      { q with sbAcc := q.sbAcc + 32768 - 100000000, sbS := q.sbS + 1, ts := q.sbN, sbN := 0 }
    else { q with sbAcc := q.sbAcc + 32768 }
  r.update

/-- One SBCLK cycle passes while PLCLK is stopped (R50): the next PLCLK cycle is the first after this edge. -/
def Phase.sbCycle (p : Phase) : Phase :=
  if p.tickLost || !p.xtal then p
  else { p with sbS := p.sbS + 1, sbN := 0, sbAcc := 0, tick := BitVec.ofNat 48 (32 * (p.sbS + 1)) }

/-- What a change of the timebase brings: the new timebase and the event bits it sets. -/
abbrev PhOut := Phase × List Nat

/-- The direction of the COURSE source is decoded (R42). -/
def Phase.setDir (p : Phase) (rev : Bool) : PhOut :=
  ({ p with dir := rev, reverse := if rev then p.reverse + 1 else p.reverse }, if rev = p.dir then [] else [0x1045])

/-- The COURSE fields that wait take effect at a tooth edge of the COURSE_PRI they name (R37, R342, R378). Where R378 keeps
the source on the backup, that edge is none of the source's and COURSE does not advance at it (DEDUCED, log entry 98). -/
def Phase.applyCourse (p : Phase) (w : Nat) : Phase :=
  let pri := fieldN (p.cfg.get 10) 0 2
  if p.pendCourse && pri = w then
    let q := { p with
      eff := (p.eff.set 10 (p.cfg.get 10)).set 11 (setField (p.eff.get 11) 0 12 (fieldN (p.cfg.get 11) 0 12)),
      plausP := 0, plausB := 0, failN := 0, pendCourse := false, pendSel := false }
    if p.pendSel || !p.failover then { q with src := BitVec.ofNat 2 pri, failover := false } else q
  else p

/-- An accepted tooth edge of wheel `w` counts (R41, R43, R44). The Boolean says that COURSE advanced. -/
def Phase.wheel (p : Phase) (w : Nat) (awake : Bool) : PhOut × Bool :=
  let bakOn := p.bak < 4
  if w = p.pri then
    let q := { p with failN := 0, plausP := if bakOn && awake then p.plausP + 1 else p.plausP }
    let (r, ev) : PhOut :=
      if bakOn && awake && decide (q.plausWin ≤ q.plausP) then
        let bad := decide (p.plausTol * q.plausP < (max q.plausB q.plausP - min q.plausB q.plausP) * 100)
        ({ q with plausP := 0, plausB := 0, plausCnt := if bad then satInc q.plausCnt else q.plausCnt },
         if bad then [0x1040] else [])
      else (q, [])
    if p.src.toNat = w then ((r.advance 1, ev), true) else ((r, ev), false)
  else if bakOn && w = p.bak then
    let q := { p with plausB := if awake then p.plausB + 1 else p.plausB,
                      failN := if p.src.toNat = p.pri && !p.failover then p.failN + 1 else p.failN }
    if q.src.toNat = q.pri && !q.failover && decide (q.failTeeth ≤ q.failN) then
      ((({ q with src := BitVec.ofNat 2 w, failover := true, failN := 0, jumpCourse := true }).advance q.failTeeth, [0x1041]), true)
    else if p.src.toNat = w then ((q.advance 1, []), true)
    else ((q, []), false)
  else if p.src.toNat = w then ((p.advance 1, []), true)
  else ((p, []), false)

/-- The fields of input `i` that a configuration has changed are in force after its accepted tooth edge (R37). -/
def Phase.adopt (p : Phase) (i : Nat) : Phase :=
  let e := p.eff.set i (p.cfg.get i)
  { p with eff := if i < 4 then e.set (6 + i) (p.cfg.get (6 + i)) else e }

/-- An accepted tooth edge of an awake wheel input (R37, R38, R40 to R44). `gpio` are the GPIO levels. -/
def Phase.wheelTooth (p : Phase) (w : Nat) (gpio : Byte) : PhOut × Bool :=
  let d := p.eff.get (6 + w)
  let x := ((p.adopt w).applyCourse w).wheel w true
  if !x.2 then x
  else
    match fieldN d 0 2 with
    | 0 => let y := x.1.1.setDir false; ((y.1, x.1.2 ++ y.2), true)
    | 2 =>
      let y := x.1.1.setDir ((gpio.getLsbD (fieldN d 11 3)) != d.getLsbD 10)
      ((y.1, x.1.2 ++ y.2), true)
    | _ => (({ x.1.1 with ang := x.1.1.ang.modify w (fun a => { a with pulse := some p.clk }) }, x.1.2), true)

/-- The edge that ends a pulse of wheel `w` (R42). -/
def Phase.pulseEnd (p : Phase) (w : Nat) : PhOut :=
  let d := p.eff.get (6 + w)
  let q := { p with ang := p.ang.modify w (fun a => { a with pulse := none }) }
  match (p.ang.get w).pulse with
  | some t =>
    if p.src.toNat = w && fieldN d 0 2 = 1 then
      q.setDir (decide (100 * fieldN d 2 8 ≤ p.clk - t) != d.getLsbD 10)
    else (q, [])
  | none => (q, [])

/-- The CRANK fields that a configuration has changed are in force from the next accepted CRANK tooth edge (R37). -/
def Phase.adoptCrank (p : Phase) : Phase :=
  let f := p.cfg.get 11
  { p with eff := (p.eff.set 11 (setField f 0 12 (fieldN (p.eff.get 11) 0 12))).set 12 (p.cfg.get 12) }

/-- The synchronised state entered at position `q`, CRANK resumed by a forward jump (R46, R49). -/
def Phase.resume (p : Phase) : PhOut :=
  let a0 := ({ p with crkQ := 0 }).angle
  let c := crankUp p.crank a0 32768
  let q := if c.toNat % 65536 = a0 then 0 else p.crkTeeth
  ({ p with crk := .sync360, crkQ := q, crank := c, jumpCrank := true, crkCnt := 0 }, if p.camEn then [] else [0x1043])

/-- An accepted CRANK tooth edge after the interval `n`, if there is one (R46, R47, R49). `o` is the timebase before
the edge. -/
def Phase.crankTooth (o : Phase) (n : Option Nat) : PhOut :=
  let p := (o.adopt 4).adoptCrank
  let t := p.crkTeeth
  let m := p.crkMissing
  let setT (q : Phase) (v : Option Nat) : Phase := { q with ang := q.ang.modify 4 (fun a => { a with tprev := v }) }
  let tp := (o.ang.get 4).tprev
  let gap := match n, tp with | some x, some y => decide (y * (m + 2) ≤ 2 * x) | _, _ => false
  let cnt := p.crkCnt + 1
  let moved := !(p.eff.get 11 = o.eff.get 11 && p.eff.get 12 = o.eff.get 12)
  if gap then
    let q := setT p (n.map (fun x => x / (m + 1)))
    match p.crk with
    | .nosync => ({ q with crk := .candidate, crkCnt := 0 }, [])
    | .candidate => if cnt = t - m then q.resume else ({ q with crkCnt := 0 }, [])
    | .sync360 | .sync720 =>
      if cnt = t - m then
        let r := { q with crkCnt := 0, crkQ := if p.crkQ < t then t else 0 }
        ({ r with crank := if moved then crankUp r.crank r.angle 65536 else crankTo r.crank r.angle,
                  jumpCrank := r.jumpCrank || moved }, [])
      else ({ q with crk := .nosync, crkCnt := 0 }, [0x1042])
  else
    let q := setT { p with crkCnt := cnt } n
    if q.synced then
      let r := { q with crkQ := (q.crkQ + 1) % (2 * t) }
      ({ r with crank := if moved then crankUp r.crank r.angle 65536 else crankTo r.crank r.angle,
                jumpCrank := r.jumpCrank || moved }, [])
    else (q, [])

/-- An accepted CAM active edge (R46, R48). -/
def Phase.camTooth (o : Phase) : PhOut :=
  let p := o.adopt 5
  if !p.camEn then (p, [])
  else
    let half := p.crank.getLsbD 15
    match p.crk with
    | .sync360 =>
      if half = p.camHalf then ({ p with crk := .sync720 }, [0x1043])
      else
        ({ p with crk := .sync720, crank := p.crank + 32768, jumpCrank := true,
                  crkQ := (p.crkQ + p.crkTeeth) % (2 * p.crkTeeth) }, [0x1043])
    | .sync720 => if half = p.camHalf then (p, []) else ({ p with camFault := satInc p.camFault }, [0x1044])
    | _ => (p, [])

/-- A transition on input `i` to `level` that the conditioning stage sees (R35, R38). The Boolean says that an awake
tooth edge of the COURSE source was accepted. -/
def Phase.edgeIn (p : Phase) (i : Nat) (level : Bool) (gpio : Byte) : PhOut × Bool :=
  let a := p.ang.get i
  let tooth := isTooth (p.edge i) level
  if p.rejects i tooth then
    (({ p with ang := p.ang.set i { a with level := level, rejects := satInc a.rejects } }, []), false)
  else if !tooth then
    let q := { p with ang := p.ang.set i { a with level := level, lastTr := some p.clk } }
    (if i < 4 then q.pulseEnd i else (q, []), false)
  else
    let n := a.lastTooth.map (fun t => p.clk - t)
    let b := { a with level := level, lastTr := some p.clk, lastTooth := some p.clk, stopped := false,
                      tprev := if i = 4 then a.tprev else n, pulse := none }
    let q := { p with ang := p.ang.set i b }
    if i < 4 then q.wheelTooth i gpio
    else if i = 4 then (q.crankTooth n, false)
    else (q.camTooth, false)

/-- The number of an angle input. -/
def inputNo : AngleIn → Nat
  | .whl w => w.toNat
  | .crank => 4
  | .cam => 5

/-- The mirror and the live odometer take what the Pilot sends (R52, R226). -/
def State.syncMirror (s : State) : State :=
  if !s.fireOn then s
  else
    let p := s.pil.ph
    s.modFb (fun f => { f with mir := { course := p.course, crank := p.crank, tick := p.tick, status := p.status,
                                        odo := if s.plinkUp then p.odo else f.mir.odo } })

/-- The vault takes requests: the Hearthstone has recovered it and no sequence has ended it (R265, R281, R377). -/
def State.vaultOn (s : State) : Bool :=
  match s.pw.life with
  | .running | .pfail | .starting => s.pw.start.s7 || s.pw.start.kind = .host
  | _ => false

/-- The logs that the Pilot originates go to the vault over both links, each into one of the four Pilot slots with a
staging unit (R11, R232); what finds none free waits in the Pilot (log entry 99). -/
def State.pilotNext : Nat → State → State
  | 0, s => s
  | n + 1, s =>
    match s.pil.logQ with
    | (h, p) :: rest =>
      if s.vaultOn && s.plinkUp && s.hearthUp && decide (s.hs.vault.pilotSlots < 4) && decide (0 < s.freeStage) then
        (({ s with pil := { s.pil with logQ := rest } }).submit (.hw h p true)).pilotNext n
      else s
    | [] => s

/-- A log that the Pilot originates is on its way to the vault (R226, R227). -/
def State.pilotLog (s : State) (cls : Nat) (payload : List Byte) : State :=
  ({ s with pil := { s.pil with logQ := s.pil.logQ ++ [(s.pil.ph.logHdr cls, payload)] } }).pilotNext (s.pil.logQ.length + 1)

/-- The Pilot writes a checkpoint (R254), if it can reach the vault. -/
def State.checkpoint (s : State) (reason : Nat) : State :=
  if s.pil.ph.odoValid && s.vaultOn && !s.fb.plink.down && !s.fb.hearth.down then
    (s.pilotLog 0x80 (s.pil.ph.ckPayload reason)).modPh (fun p => { p with ckOdo := p.odo, ckTick := p.tick, ckAdv := false })
  else s

/-- The distance reason of R254 is judged. -/
def State.ckDistance (s : State) : State :=
  let p := s.pil.ph
  if p.odoValid && decide (p.ckOdo.toNat + 1000 ≤ p.odo.toNat) then s.checkpoint 1 else s

/-- The timebase changes: its event bits are set, the mirror follows, the distance checkpoint is judged. The bits are set
also while the Firebox is in reset or unpowered: one set after the reset of a start and before RESET_RELEASE lasts into the
run, and that reset clears the earlier ones (DEDUCED from R57, log entry 26). -/
def State.putPh (s : State) (x : PhOut) : State :=
  let s1 := s.modPh (fun _ => x.1)
  let s2 := x.2.foldl (fun (r : State) e => r.setEv e) s1
  s2.syncMirror.ckDistance

/-- A transition on an angle input while PLCLK runs and VDDIO_A is in range (R35, R438). The first tooth edge of the
source that the awake logic accepts ends the standby counting (R63). -/
def State.angleEdge (s : State) (i : Nat) (level : Bool) : State :=
  if !s.plclk || !s.pw.vddioA || (s.pil.ph.ang.get i).level = level then s
  else
    let x := s.pil.ph.edgeIn i level s.gpioLevels
    (s.putPh x.1).modWk (fun w => { w with standbyRun := w.standbyRun && !x.2 })

/-- A wake request (R391): PCIE_WAKE_N goes low, and the first cause and its TICK are kept. While a request stands, the
pin being low, further causes change nothing; once it has been released (R322) a later standby raises one again. -/
def State.wakeRequest (s : State) (cause : Nat) : State :=
  if s.pw.life ≠ .standby ∨ !s.pil.wakePin then s
  else
    let s1 := s.modWk (fun w =>
      if w.wake then { w with req := true }
      else { w with req := true, wake := true, cause := BitVec.ofNat 3 cause, tick := s.pil.ph.tick })
    { s1 with pil := { s1.pil with wakePin := false } }

/-- ANGLE_EDGE: a transition on an angle input (R35). -/
def execAngleEdge (i : AngleIn) (level : Bool) (s : State) : Answer := .next (s.angleEdge (inputNo i) level)
/-- CAM_EDGE: a transition on CAM (R48). -/
def execCamEdge (level : Bool) (s : State) : Answer := .next (s.angleEdge 5 level)

/-- The standstill timeout in PLCLK cycles (R38). -/
def standstill : Nat := 2 ^ 24

/-- The standstill timeout of input `i` has ended: it runs from the last accepted tooth edge (R38). -/
def Phase.stillDue (p : Phase) (i : Nat) : Bool :=
  match (p.ang.get i).lastTooth with
  | some t => decide (t + standstill ≤ p.clk)
  | none => false

/-- An input that is standing still is stopped (R38); CRANK loses its synchronisation with its input (R46). -/
def Phase.stopInput (p : Phase) (i : Nat) : Phase :=
  let q := { p with ang := p.ang.modify i (fun a => { a with stopped := true, lastTooth := none, tprev := none, pulse := none }) }
  if i = 4 then { q with crk := .nosync, crkCnt := 0 } else q

/-- STANDSTILL_TIMEOUT: an input has accepted no tooth edge for 2^24 PLCLK cycles (R38). -/
def execStandstillTimeout (i : AngleIn) (s : State) : Answer :=
  .next (if s.plclk && s.pil.ph.stillDue (inputNo i) then s.putPh (s.pil.ph.stopInput (inputNo i), []) else s)

/-- Two SBCLK periods have passed without an edge while TICK waits at its last step (R51). -/
def Phase.holdDue (p : Phase) : Bool := !p.xtal && !p.holdover && !p.tickLost && decide (2 * p.ts ≤ p.sbN)

/-- TICK enters holdover (R51): it goes on from the step at which it waited, 32 ticks every t_s cycles. -/
def Phase.enterHoldover (p : Phase) : PhOut :=
  (({ p with holdover := true, sbS := p.sbS + 1, sbN := 0 } : Phase).update, [0x1046])

/-- TICK_HOLDOVER: no SBCLK edge for two periods while PLCLK runs (R51). -/
def execTickHoldover (s : State) : Answer :=
  .next (if s.plclk && s.pil.ph.holdDue then s.putPh s.pil.ph.enterHoldover else s)

/-- HOLDOVER_END: an SBCLK edge comes again and ends holdover (R51). -/
def execHoldoverEnd (s : State) : Answer :=
  .next (if s.plclk && !s.pil.ph.xtal && !s.pil.ph.tickLost then
      s.putPh (({ s.pil.ph with holdover := false, xtal := true, sbS := s.pil.ph.sbS + 1, sbN := 0, sbAcc := 0 } : Phase).update, [])
    else s)

/-- CRYSTAL_FAILURE: the crystal stops. While PLCLK is stopped TICK holds for good (R51); while PLCLK runs no SBCLK edge
comes any more, and TICK waits at its last step until holdover (R50, R51, log entry 24). -/
def execCrystalFailure (s : State) : Answer :=
  .next (if s.pw.life = .off then s
    else if s.plclk then s.modPh (fun p => { p with xtal := false })
    else s.modPh (fun p => { p with tickLost := true, xtal := false }))

/-- What falls due in the present PLCLK cycle and no command has taken happens before the next cycle (R38, R51). -/
def State.takeDue (s : State) : State :=
  let s1 := (List.range 6).foldl (fun (q : State) i => if q.pil.ph.stillDue i then q.modPh (fun p => p.stopInput i) else q) s
  if s1.pil.ph.holdDue then s1.putPh s1.pil.ph.enterHoldover else s1

/-- CHECKPOINT_TIMER: 10 s of TICK since the last checkpoint with any advance (R254). -/
def execCheckpointTimer (s : State) : Answer := .next (if s.plclk && s.pil.ph.ckAdv && decide (s.pil.ph.ckTick.toNat + 10 * 2 ^ 20 ≤ s.pil.ph.tick.toNat) then s.checkpoint 2
    else s)

/-- The inputs counted in standby (R61). -/
def Phase.counted (p : Phase) (w : Nat) : Bool := w = p.pri || w = p.bak

/-- A level on a counted wheel input held for two SBCLK samples (R61), from standby entry to the first source tooth that
the awake logic accepts (R63). Source teeth less than 500 us apart, 16 SBCLK periods or fewer, are an overspeed. A tooth
that fails over counts as one tooth of the wake count, though COURSE advances by FAIL_TEETH (DEDUCED, log entry 98). -/
def State.standbyTooth (s : State) (w : Nat) (level : Bool) : State :=
  let p := s.pil.ph
  if !(s.pw.life ≠ .off && s.pil.wk.standbyRun) || !s.pw.vddioA || !p.counted w ||
      (p.ang.get w).level = level then s
  else
    let q := { p with ang := p.ang.modify w (fun a => { a with level := level }) }
    if !isTooth (p.edge w) level then s.modPh (fun _ => q)
    else
      let x := ((q.adopt w).applyCourse w).wheel w false
      let fast := x.2 && (match s.pil.wk.lastTooth with | some t => decide (p.sbS - t ≤ 16) | none => false)
      let s1 := s.putPh (x.1.1, x.1.2 ++ (if fast then [0x1047] else []))
      let s2 := s1.modWk (fun k => if x.2 then { k with count := k.count + 1, lastTooth := some p.sbS } else k)
      if fast then s2.wakeRequest 2 else s2

/-- STANDBY_TOOTH (R61). -/
def execStandbyTooth (w : BitVec 2) (level : Bool) (s : State) : Answer := .next (s.standbyTooth w.toNat level)

/-- STBY_WAKE_TEETH_REACHED: one distance request in each standby (R62). -/
def execStbyWakeTeethReached (s : State) : Answer :=
  .next (if s.pw.life = .standby && !s.pil.wk.distReq && decide (s.pil.ph.wakeTeeth ≤ s.pil.wk.count) then
      (s.wakeRequest 1).modWk (fun w => { w with distReq := true })
    else s)

/-- STANDBY_TRIG_EDGE: a TRIG edge of the polarity that STBY_WAKE selects (R391, Table 14.6). -/
def execStandbyTrigEdge (p : BitVec 2) (level : Bool) (s : State) : Answer :=
  .next (if s.pw.life ≠ .standby || !s.pw.vddioA || s.pil.cap.trigPin.getLsbD p.toNat = level then s
    else
      let s1 := s.modCap (fun c => { c with trigPin := setBit c.trigPin p.toNat level })
      let sel := fieldN s.pil.wk.stbyWake (2 * p.toNat) 2
      if (level && sel % 2 = 1) || (!level && 2 ≤ sel) then s1.wakeRequest (3 + p.toNat) else s1)

/-- PLCLK stops at a standby entry (R37, R46, R51, R61 to R63). -/
def Phase.enterStandby (p : Phase) : Phase :=
  let q := { p with crk := .nosync, crkCnt := 0, eff := p.eff.set 13 (p.cfg.get 13) }
  if q.holdover || !q.xtal then { q with tickLost := true, holdover := false, xtal := false } else q
/-- The standby counting restarts (R61, R392). -/
def Wake.enterStandby (w : Wake) : Wake := { w with count := 0, distReq := false, lastTooth := none, standbyRun := true }
/-- PLCLK starts (R38, R63): every input is stopped and has no history. The count since the last SBCLK edge goes on, so
that TICK stays where it is (R33, R50). -/
def Phase.plclkStart (p : Phase) : Phase :=
  { p with ang := p.ang.map (fun a => { a with lastTr := none, lastTooth := none, tprev := none, stopped := true, pulse := none }),
           crk := .nosync, crkCnt := 0 }

/-- A new configuration block: input, COURSE, CRANK, wake and scale fields wait for their moments (R37, R342, R378).
`select` marks a command, which selects COURSE_PRI again. -/
def Phase.configure (p : Phase) (cells : Tab Cell 16) (select : Bool) : Phase :=
  let diff := cells.get 10 ≠ p.eff.get 10 ∨ fieldN (cells.get 11) 0 12 ≠ fieldN (p.eff.get 11) 0 12
  { p with cfg := cells, pendCourse := select || p.pendSel || decide diff, pendSel := select || p.pendSel }

/-- The reload at S8 (R378): the scale takes effect at once; the odometer base is `base` when none is held. -/
def Phase.startLoad (p : Phase) (cells : Tab Cell 16) (base rem : Nat) : Phase :=
  let q := { (p.configure cells false) with eff := p.eff.set 14 (cells.get 14) }
  let r := if q.odoValid then q else { q with odo := BitVec.ofNat 48 base, rem := rem, odoValid := true }
  r.applyPending

/-- The mirror value that a comparator compares (R54). -/
def State.cmpValue (s : State) (src : Nat) : Dbl :=
  if src = 0 then s.fb.mir.course else if src = 1 then s.fb.mir.crank else s.fb.mir.tick

/-- The target has passed: the half-range rule (R55, R64). -/
def passed (v target : Dbl) : Bool := decide ((v - target).toNat < 2 ^ 47)

/-- The comparator's hit (R55, R56, R145): `set` says that its hit bit stands already. -/
def Compar.hit (c : Compar) (v : Dbl) (set : Bool) : Compar :=
  let d := (v - c.target).toNat
  let k := d / c.incr.toNat + 1
  let h := { c with late := c.late || c.first, first := false,
                    overrun := if set then satInc c.overrun else c.overrun, carried := if set then c.carried else c.level }
  if c.periodic then { h with target := c.target + BitVec.ofNat 48 (k * c.incr.toNat), skip := satAdd c.skip (k - 1) }
  else { h with en := false }

/-- COMPARATOR_HIT: an evaluation of comparator `n` (R55). -/
def State.evalCmp (s : State) (n : Nat) : State :=
  let c := s.fb.cmp.get n
  if !s.fireOn || !c.en then s
  else
    let v := s.cmpValue c.src.toNat
    if passed v c.target then
      (s.modFb (fun f => { f with cmp := f.cmp.set n (c.hit v (s.evBit (0x1000 + n))) })).setEv (0x1000 + n)
    else s.modFb (fun f => { f with cmp := f.cmp.set n { c with first := false } })

/-- COMPARATOR_HIT (R55). -/
def execComparatorHit (n : BitVec 6) (s : State) : Answer := .next (s.evalCmp n.toNat)

/-- A CTRL write of comparator `n` (R476). -/
def State.writeCmpCtrl (s : State) (n : Nat) (v : Cell) : State :=
  let c := s.fb.cmp.get n
  let bad := fieldN v 4 3 = 0 ∨ fieldN v 1 2 = 3 ∨ (v.getLsbD 3 ∧ c.incr = 0)
  let en := v.getLsbD 0 && !decide bad
  let d := { c with en := en, src := BitVec.ofNat 2 (fieldN v 1 2), periodic := v.getLsbD 3, level := BitVec.ofNat 3 (fieldN v 4 3) }
  let e := if en && !c.en then
      { d with late := false, skip := 0, overrun := 0, first := passed (s.cmpValue (fieldN v 1 2)) c.target }
    else d
  s.modFb (fun f => { f with cmp := f.cmp.set n e })

/-- A TARGET write (R54). -/
def State.writeCmpTarget (s : State) (n : Nat) (v : Dbl) : State :=
  s.modFb (fun f => { f with cmp := f.cmp.modify n (fun c => { c with target := v, first := false }) })

/-- An INCR write (R54, R476). -/
def State.writeCmpIncr (s : State) (n : Nat) (v : Dbl) : State :=
  if 2 ^ 47 ≤ v.toNat then s
  else s.modFb (fun f => { f with cmp := f.cmp.modify n (fun c => { c with incr := v, en := c.en && !(c.periodic && v = 0) }) })

/-- COMPARATOR_CTRL_WRITE (R476). -/
def execComparatorCtrlWrite (n : BitVec 6) (v : Cell) (s : State) : Answer := .next (s.writeCmpCtrl n.toNat v)
/-- COMPARATOR_TARGET_WRITE (R54). -/
def execComparatorTargetWrite (n : BitVec 6) (v : Dbl) (s : State) : Answer := .next (s.writeCmpTarget n.toNat v)
/-- COMPARATOR_INCR_WRITE (R476). -/
def execComparatorIncrWrite (n : BitVec 6) (v : Dbl) (s : State) : Answer := .next (s.writeCmpIncr n.toNat v)

end Sys2Proof.Machine
end

