-- ==== Sys2Proof/Machine/DevRead.lean ====
section
/-! DEFINITION. What each device cell reads as, with no side effect (Tables 18.9 to 18.18), the two reads that have one
(R483), and the debug rights that hold (R407, R408). -/

namespace Sys2Proof.Machine

/-- The debug rights that the transport acts on: HALT, MEM, WATCH, BSCAN, CSTORE from bit 0 (R407, R408). -/
def State.rights (s : State) : BitVec 5 :=
  let u := s.hs.lanes.p
  if u.life = 2 ∨ u.life = 3 then (if u.unlocked then s.pil.tap.rights else 0) else 0x1F

/-- The code of a thread state (Table 12.3). -/
def TState.num : TState → Nat
  | .stopped => 0 | .ready => 1 | .waiting => 2 | .blocked => 3 | .halted => 4 | .frozen => 5

/-- The code of an entry kind (Table 18.9). -/
def EKind.num : EKind → Nat
  | .none => 0 | .event => 1 | .trap => 2 | .fault => 3 | .escalated => 4

/-- Cell +`k` of a thread's stack state (Table 18.9). -/
def Thread.cell (u : Thread) (k : Nat) : Cell :=
  match k with
  | 0 => BitVec.ofNat 24 (u.w + 64 * u.base + 256 * u.rsd + 8192 * u.rsp + 131072 * u.dirty.toNat)
  | 1 => BitVec.ofNat 24 u.spc
  | 2 => u.ctxa
  | 3 => u.dsbase
  | 4 => u.dslimit
  | 5 => u.pc.setWidth 24
  | 6 => BitVec.ofNat 24 u.st.num
  | 7 => u.status
  | _ => 0

/-- An arm as its cell holds it. -/
def Arm.cell (a : Arm) : Cell := BitVec.ofNat 24 (a.bit.toNat + 65536 * a.level.toNat + 524288 * b2n a.en)

/-- Cell +`k` of a fault record. -/
def FaultRec.cell (f : FaultRec) (k : Nat) : Cell :=
  match k with
  | 0 => BitVec.ofNat 24 (f.kind.num + 8 * f.vec.toNat + 256 * f.cls.toNat + 4096 * f.arm.toNat)
  | 1 => f.saddr.setWidth 24
  | 2 => f.oaddr
  | _ => 0

/-- The oldest entry of the event queue, 0 when it is empty (R214). -/
def Core.embqHead (k : Core) : Dbl := k.embq.headD 0

/-- CS_INFO (R185, Table 18.9). -/
def Core.csInfo (k : Core) : Dbl :=
  BitVec.ofNat 48 (Config.romId.toNat + 2 ^ 32 * b2n k.cs.patchIn + 2 ^ 33 * b2n k.cs.openIn + 2 ^ 34 * b2n k.rfail)

/-- Cell +`k` of a watchpoint. -/
def Watchpt.cell (w : Watchpt) (k : Nat) : Cell :=
  match k with | 0 => w.ctl | 1 => w.addr | 2 => w.amask | _ => w.count

/-- The cell at offset `o` of the core region of core `c` (Table 18.9). -/
def State.coreCell (s : State) (c : CoreId) (o : Nat) : Cell :=
  let k := s.core c
  let n := s.fb.cnt.get c.toNat
  if o < 0x80 then (k.th.get (o / 16)).cell (o % 16)
  else if o < 0xC0 then ((k.th.get ((o - 0x80) / 8)).arms.get (o % 8)).cell
  else if o < 0xE0 then (k.th.get ((o - 0xC0) / 4)).fr.cell (o % 4)
  else if o = 0xE0 then k.icLock.setWidth 24
  else if o = 0xE1 then k.mseq
  else if o = 0xE2 then loCell k.csInfo
  else if o = 0xE3 then hiCell k.csInfo
  else if o = 0xE4 ∨ o = 0xE6 then loCell k.embqHead
  else if o = 0xE5 ∨ o = 0xE7 then hiCell k.embqHead
  else if o = 0xE8 then BitVec.ofNat 24 k.embq.length
  else if 0x100 ≤ o ∧ o < 0x120 then (k.wp.get ((o - 0x100) / 4)).cell (o % 4)
  else if o = 0x120 then n.lockups
  else if o = 0x121 then n.eqOvf
  else if o = 0x122 then n.etrigIgn
  else if o = 0x123 then n.logBadh
  else 0

/-- CTRL of a comparator (Table 18.11). -/
def Compar.ctrl (c : Compar) : Cell :=
  BitVec.ofNat 24 (b2n c.en + 2 * c.src.toNat + 8 * b2n c.periodic + 16 * c.level.toNat + 128 * b2n c.late +
    256 * c.skip.toNat + 65536 * c.overrun.toNat)

/-- A cell of the phase mirror and the comparators (Tables 18.10 and 18.11), at offset `o` from 0x0F1000. -/
def State.phaseCell (s : State) (o : Nat) : Cell :=
  let m := s.fb.mir
  match o with
  | 0 => loCell m.course
  | 1 => hiCell m.course
  | 2 => loCell m.crank
  | 3 => hiCell m.crank
  | 4 => loCell m.tick
  | 5 => hiCell m.tick
  | 6 | 7 => m.status.setWidth 24
  | 8 => loCell m.odo
  | 9 => hiCell m.odo
  | _ =>
    let c := s.fb.cmp.get ((o - 0x100) / 8)
    match o % 8 with
    | 0 => c.ctrl
    | 2 => loCell c.target
    | 3 => hiCell c.target
    | 4 => loCell c.incr
    | 5 => hiCell c.incr
    | _ => 0

/-- A gauge or measured number in a field of `w` bits (R480, R481); the spec states none that does not fit (log entry 92). -/
def gauge (w n : Nat) : Cell := BitVec.ofNat 24 ((if n < 2 ^ w then n else Config.wideField w n) % 2 ^ w)

/-- A 32-bit counter in a D pair. -/
def half32 (x : BitVec 32) (hi : Bool) : Cell := if hi then hiCell (x.setWidth 48) else loCell (x.setWidth 48)

/-- A Pilot-relayed cell (Tables 18.14 to 18.16) at offset `o` from 0x0F3000. -/
def State.pilotCell (s : State) (o : Nat) : Cell :=
  let p := s.pil.ph
  let c := s.pil.cap
  let d := s.pil.dmp
  if o < 0x10 then p.cfg.get o
  else if o < 0x1E2 then memRead c.objs (0x0F3000 + o)
  else if o = 0x1E2 then s.gpioLevels.setWidth 24
  else if o = 0x200 then gauge 24 d.avail
  else if o = 0x201 then gauge 24 d.rsvM
  else if o = 0x202 then gauge 24 d.reserve
  else if o = 0x203 then gauge 16 d.cUsed
  else if o = 0x204 then gauge 16 d.v
  else if o = 0x205 then BitVec.ofNat 24 (b2n d.armed + 2 * b2n d.pfWarn + 4 * b2n d.huValid)
  else if o = 0x206 then gauge 12 s.hs.vault.wait.length
  else if 0x300 ≤ o ∧ o < 0x306 then (p.ang.get (o - 0x300)).rejects
  else if o = 0x306 then p.plausCnt
  else if o = 0x307 then p.camFault
  else if o = 0x308 ∨ o = 0x309 then half32 p.reverse (o = 0x309)
  else if 0x310 ≤ o ∧ o < 0x340 then c.lost.get (o - 0x310)
  else if o = 0x340 then c.canErr.get 0
  else if o = 0x341 then c.canErr.get 1
  else if o = 0x342 then s.pil.noteLost
  else if o = 0x343 then p.odoRefused
  else if o = 0x344 ∨ o = 0x345 then half32 p.pending (o = 0x345)
  else 0

/-- The highest block write count (R273). -/
def Vault.maxWrite (v : Vault) : BitVec 40 := v.wear.foldl (fun m x => if m < x.2 then x.2 else m) 0

/-- A Hearthstone-relayed cell (Table 18.17) at offset `o` from 0x0F4000. -/
def State.hearthCell (s : State) (o : Nat) : Cell :=
  let v := s.hs.vault
  let e := s.hs.se
  let d (n : Nat) (hi : Bool) : Cell := if hi then hiCell (BitVec.ofNat 48 n) else loCell (BitVec.ofNat 48 n)
  match o with
  | 0 => d v.hd.nextSeq false
  | 1 => d v.hd.nextSeq true
  | 2 => d e.nextCord false
  | 3 => d e.nextCord true
  | 4 => d e.nextLeaf false
  | 5 => d e.nextLeaf true
  | 6 => BitVec.ofNat 24 (e.queue.length % 8 + 8 * b2n e.stopped + 16 * b2n e.nextReady + 32 * b2n s.hs.trng.latched + 64 * b2n v.unclean)
  | 8 => BitVec.ofNat 24 v.spares
  | 9 => BitVec.ofNat 24 v.bad.length
  | 10 => BitVec.ofNat 24 s.liveJ
  | 11 => BitVec.ofNat 24 s.freeStage
  | 12 => d v.maxWrite.toNat false
  | 13 => d v.maxWrite.toNat true
  | 16 => v.torn
  | 17 => v.ue
  | _ => 0

/-- A common Firebox cell (Table 18.18) at offset `o` from 0x0F5000. -/
def State.commonCell (s : State) (o : Nat) : Cell :=
  let t := s.fb.trace
  match o with
  | 0 => t.ctl
  | 1 => BitVec.ofNat 24 (b2n t.full + 2 * t.wptr.toNat)
  | 2 => t.drop
  | 16 => s.fb.hearth.errors
  | 17 => s.fb.plink.errors
  | 18 => s.fb.hearth.retrains
  | 19 => s.fb.plink.retrains
  | _ => 0

/-- The device cell at `a` as core `c` reads it, with no side effect (R470, R471, R483). -/
def State.devCell (s : State) (c : CoreId) (a : Nat) : Cell :=
  if a < 0x0F1000 then s.coreCell c (a - 0x0F0000)
  else if a < 0x0F2000 then s.phaseCell (a - 0x0F1000)
  else if a < 0x0F3000 then (s.fb.rings.get ((a - 0x0F2000) / 128)).cell ((a - 0x0F2000) % 128)
  else if a < 0x0F4000 then s.pilotCell (a - 0x0F3000)
  else if a < 0x0F5000 then s.hearthCell (a - 0x0F4000)
  else s.commonCell (a - 0x0F5000)

/-- The cell at `a` as core `c` reads it anywhere in cell space, with no side effect. -/
def State.cellQuiet (s : State) (c : CoreId) (a : Nat) : Cell := if isDev a then s.devCell c a else s.cellMem c a

/-- The side effect of a read of `a` (R483): EMBQ loses its oldest entry, PH_STATUS clears the JUMP fields. -/
def State.readEffect (s : State) (c : CoreId) (a : Nat) : State :=
  if a = 0x0F00E4 then s.modCore c (fun k => { k with embq := k.embq.drop 1 })
  else if a = 0x0F1006 then (s.modPh (fun p => { p with jumpCourse := false, jumpCrank := false })).modFb
    (fun f => { f with mir := { f.mir with status := f.mir.status &&& 0x1CFF } })
  else s

end Sys2Proof.Machine
end

