-- ==== Sys2Proof/Machine/DevWrite.lean ====
section
/-! DEFINITION. What a store to a device cell does (sections 18.8 to 18.12), and the commands that name one such
store. -/

namespace Sys2Proof.Machine

/-- A write of an arm (R145, R474): EN stays 0 with a BIT outside core bit RAM and event bits, or with LEVEL 0. -/
def armOf (v : Cell) : Arm :=
  let b := fieldN v 0 16
  let l := fieldN v 16 3
  { bit := BitVec.ofNat 16 b, level := BitVec.ofNat 3 l,
    en := v.getLsbD 19 && decide (0x80 ≤ b) && decide (b < 0x1400) && decide (l ≠ 0) }

/-- A write of arm `i` of thread `t`. -/
def State.writeArm (s : State) (c : CoreId) (t : ThId) (i : Nat) (v : Cell) : State :=
  s.modTh c t (fun u => { u with arms := u.arms.set i (armOf v) })

/-- A write of the I-cache cell (R73, R75, R473). -/
def State.writeIcache (s : State) (c : CoreId) (v : Cell) : State :=
  let s1 := s.modCore c (fun k => { k with icLock := v.setWidth 2 })
  if v.getLsbD 8 then (s1.modCore c Core.inval).refetch c else s1

/-- A write of the MSEQ_FAULT cell: VALID is cleared by a 1 (R177, R473). -/
def State.clearMseq (s : State) (c : CoreId) (v : Cell) : State :=
  if v.getLsbD 23 then s.modCore c (fun k => { k with mseq := setBit k.mseq 23 false }) else s

/-- A watchpoint's first cell written: ACTION HALT or TRACE only by the debugger (R418, R473). -/
def wpCtl (old v : Cell) (dbg : Bool) : Cell :=
  let x := v &&& 0x00FF3F
  if !dbg && v.getLsbD 5 then setField x 4 2 (fieldN old 4 2) else x

/-- A write of cell `k` of watchpoint `i` (R418, R473). -/
def State.writeWp (s : State) (c : CoreId) (i k : Nat) (v : Cell) (dbg : Bool) : State :=
  s.modCore c (fun q => { q with wp := q.wp.modify i (fun w =>
    match k with
    | 0 => { w with ctl := wpCtl w.ctl v dbg }
    | 1 => { w with addr := v }
    | 2 => { w with amask := v }
    | _ => { w with count := v }) })

/-- A write of TRACE_CTL: EN only with the WATCH right; a SYNC record marks the enable (R420, R482). -/
def State.writeTraceCtl (s : State) (v : Cell) : State :=
  let x := setBit (v &&& 0x07FFFF) 0 (v.getLsbD 0 && s.rights.getLsbD 2)
  s.modFb (fun f =>
    let t := { f.trace with ctl := x }
    { f with trace := if x.getLsbD 0 && !f.trace.ctl.getLsbD 0 then { (t.put (syncRec x f.mir.tick)) with since := 0 } else t })

/-- A write of TRACE_STATUS: FULL is cleared by a 1, and a STOP-mode trace restarts at record 0 (R482). -/
def State.clearTraceFull (s : State) (v : Cell) : State :=
  if v.getLsbD 0 then
    s.modFb (fun f => { f with trace := { f.trace with full := false, wptr := if f.trace.ctl.getLsbD 1 then 0 else f.trace.wptr } })
  else s

/-- A write of a ring's RELEASE cell (R220). -/
def State.releaseRing (s : State) (i : Nat) (v : Cell) : State :=
  if v.getLsbD 0 then s.modRing i EmRing.release else s

/-- A one-cell store to device cell `a` by core `c`, or by the debugger for it (R470). Read-only cells ignore it. -/
def State.devStore (s : State) (c : CoreId) (a : Nat) (v : Cell) (dbg : Bool) : State :=
  if 0x0F0080 ≤ a ∧ a < 0x0F00C0 then s.writeArm c (BitVec.ofNat 3 ((a - 0x0F0080) / 8)) (a % 8) v
  else if a = 0x0F00E0 then s.writeIcache c v
  else if a = 0x0F00E1 then s.clearMseq c v
  else if 0x0F0100 ≤ a ∧ a < 0x0F0120 then s.writeWp c ((a - 0x0F0100) / 4) (a % 4) v dbg
  else if 0x0F1100 ≤ a ∧ a < 0x0F1300 then (if a % 8 = 0 then s.writeCmpCtrl ((a - 0x0F1100) / 8) v else s)
  else if 0x0F2000 ≤ a ∧ a < 0x0F2800 then
    (if a % 128 = 0x60 then s.releaseRing ((a - 0x0F2000) / 128) v
     else s.writeRingCell ((a - 0x0F2000) / 128) (a % 128) v)
  else if 0x0F31E0 ≤ a ∧ a < 0x0F31E3 then s.writeGpio (a - 0x0F31E0) v
  else if 0x0F3000 ≤ a ∧ a < 0x0F4000 then (match objAt a with | some (o, k) => s.writeObjCell o k v | none => s)
  else if a = 0x0F5000 then s.writeTraceCtl v
  else if a = 0x0F5001 then s.clearTraceFull v
  else s

/-- A double-cell store to the device pair at `a`: only TARGET and INCR take one (R470, R476). -/
def State.devStore2 (s : State) (a : Nat) (v : Dbl) : State :=
  if 0x0F1100 ≤ a ∧ a < 0x0F1300 then
    (if a % 8 = 2 then s.writeCmpTarget ((a - 0x0F1100) / 8) v
     else if a % 8 = 4 then s.writeCmpIncr ((a - 0x0F1100) / 8) v else s)
  else s

/-- ARM_WRITE (R145, R474). -/
def execArmWrite (c : CoreId) (t : ThId) (i : BitVec 3) (v : Cell) (s : State) : Answer := .next (s.writeArm c t i.toNat v)
/-- RING_CELL_WRITE (R198, R199, R477). -/
def execRingCellWrite (r : BitVec 4) (off : BitVec 7) (v : Cell) (s : State) : Answer :=
  .next (if off = 0x60 then s.releaseRing r.toNat v else s.writeRingCell r.toNat off.toNat v)
/-- RELEASE (R220). -/
def execRelease (r : BitVec 4) (v : Cell) (s : State) : Answer := .next (s.releaseRing r.toNat v)

/-- The address of a capture object's cell (Table 18.15). -/
def capAddr : CapObj → Nat
  | .channel n k => 0x0F3010 + 2 * n.toNat + k.toNat
  | .spi n k => 0x0F3080 + 8 * n.toNat + k.toNat
  | .can i k => 0x0F3140 + 8 * i.toNat + k.toNat
  | .trig p => 0x0F3150 + p.toNat
  | .th j k => 0x0F3160 + 4 * j.toNat + k.toNat
  | .cf f k => 0x0F31A0 + 8 * f.toNat + k.toNat
  | .gpio k => 0x0F31E0 + k.toNat

/-- The operand names a cell that the table has. -/
def capNamed : CapObj → Bool
  | .channel n _ => decide (n.toNat < 48)
  | .spi n k => decide (n.toNat < 24) && decide (k.toNat < 7)
  | .can _ k => decide (k.toNat < 7)
  | .trig _ => true
  | .th _ k => decide (k.toNat < 3)
  | .cf _ k => decide (k.toNat < 5)
  | .gpio k => decide (k.toNat < 3)

/-- CAPTURE_OBJECT_WRITE (R479). -/
def execCaptureObjectWrite (o : CapObj) (v : Cell) (s : State) : Answer :=
  .next (if capNamed o then s.devStore 0 (capAddr o) v false else s)
/-- ICACHE_INVAL (R75, R473). -/
def execIcacheInval (c : CoreId) (v : Cell) (s : State) : Answer := .next (s.writeIcache c v)
/-- MSEQ_FAULT_CLEAR (R473). -/
def execMseqFaultClear (c : CoreId) (v : Cell) (s : State) : Answer := .next (s.clearMseq c v)
/-- WATCHPOINT_WRITE by a thread (R418). -/
def execWatchpointWrite (c : CoreId) (i : BitVec 3) (k : BitVec 2) (v : Cell) (s : State) : Answer :=
  .next (s.writeWp c i.toNat k.toNat v false)
/-- TRACE_CTL_WRITE (R482). -/
def execTraceCtlWrite (v : Cell) (s : State) : Answer := .next (s.writeTraceCtl v)
/-- TRACE_FULL_CLEAR (R482). -/
def execTraceFullClear (v : Cell) (s : State) : Answer := .next (s.clearTraceFull v)

end Sys2Proof.Machine
end

