-- ==== Sys2Proof/Machine/MemSyl.lean ====
section
/-! DEFINITION. Memory, tine and double-cell operations, FENCE, locked sequences and TLI (sections 4.7, 4.10, 4.11). -/

namespace Sys2Proof.Machine

/-- The size that a load reads. -/
def LoadKind.size (k : LoadKind) (a : Cell) : SSize :=
  match k with
  | .cell | .post => .cell
  | .dbl => .dbl
  | .tineS | .tineU => .tine (a.getLsbD 0)
/-- The cell address that a load reads; for a tine operation the operand is a tine address (R106). -/
def LoadKind.cellAddr (k : LoadKind) (a : Cell) : Nat :=
  match k with
  | .tineS | .tineU => tineCell a
  | _ => a.toNat
/-- The X1 fault of a load (R105, R106). -/
def LoadKind.fault (k : LoadKind) (s : State) (mlvl : Bool) (a : Cell) : Option FClass :=
  match k with
  | .cell | .post => accFault s mlvl a.toNat .cell false
  | .dbl => accFault s mlvl a.toNat .dbl false
  | .tineS | .tineU => tineFault s mlvl a false
/-- The cells that a load of kind `k` at operand `a` pushes, given the bits it read (R105). -/
def LoadKind.pushes (k : LoadKind) (a : Cell) (v : Dbl) : List Cell :=
  match k with
  | .cell => [loCell v]
  | .dbl => [loCell v, hiCell v]
  | .tineS => [(v.setWidth 12).signExtend 24]
  | .tineU => [(v.setWidth 12).setWidth 24]
  | .post => [loCell v, a + 1]

/-- What a load reads from local, shared or Ember memory. -/
def State.memBits (s : State) (c : CoreId) (k : LoadKind) (a : Cell) : Dbl :=
  let b := k.cellAddr a
  match k with
  | .dbl => mkDbl (s.cellMem c b) (s.cellMem c (b + 1))
  | .tineS | .tineU => BitVec.ofNat 48 (fieldN (s.cellMem c b) (12 * b2n (a.getLsbD 0)) 12)
  | _ => (s.cellMem c b).setWidth 48

/-- A load of thread `t` is served with the bits `v`: its operand is replaced by what it pushes. -/
def State.serveLoad (s : State) (c : CoreId) (t : ThId) (k : LoadKind) (a : Cell) (v : Dbl) : State :=
  s.modTh c t (fun u => u.popPush 1 (k.pushes a v))

/-- The two data cells that a watchpoint sees (R417). -/
def watchCells (f : Nat → WAddr) (k : Acc) (a : Nat) : List WAddr :=
  match k with
  | .dbl => [f a, f (a + 1)]
  | _ => [f a]

/-- A load syllable (R77, R80, R82, R105): served at once from the store buffer or from local memory, else the thread
is BLOCKED until LOAD_COMPLETE; a store-buffer entry that overlaps it otherwise has to drain first. -/
def loadOp (c : CoreId) (t : ThId) (code net : Nat) (k : LoadKind) (s : State) : Answer :=
  let u := s.th c t
  let a := u.top 0
  let b := k.cellAddr a
  let look := sbLook (s.core c).sb b (k.size a)
  let f := k.fault s (lvlOf u.status) a
  let slot := match look with | .hit _ => false | _ => region b != .local_
  .next (issue c t
    { word := opW code, need := 1, net := net,
      slot := f.isNone && slot,
      fault := f.map (fun x => (x, a)),
      watch := watchCells .load (if k = .dbl then .dbl else .cell) b,
      effect := fun r =>
        match look with
        | .hit v => r.serveLoad c t k a v
        | .miss =>
          if region b = .local_ then r.serveLoad c t k a (r.memBits c k a)
          else r.modTh c t (fun v => { v with st := .blocked, why := .load k a u.pc 0 })
        | .wait n => r.modTh c t (fun v => { v with st := .blocked, why := .load k a u.pc n }) } s)

/-- LD ( a -- x ), R105, R106. -/
def execLd (c : CoreId) (t : ThId) (s : State) : Answer := loadOp c t 0x40 0 .cell s
/-- LDT ( ta -- n ), sign-extended, R105, R106. -/
def execLdt (c : CoreId) (t : ThId) (s : State) : Answer := loadOp c t 0x42 0 .tineS s
/-- LDTU ( ta -- u ), zero-extended, R105, R106. -/
def execLdtu (c : CoreId) (t : ThId) (s : State) : Answer := loadOp c t 0x43 0 .tineU s
/-- LD2 ( a -- d ), R105, R106. -/
def execLd2 (c : CoreId) (t : ThId) (s : State) : Answer := loadOp c t 0x45 1 .dbl s
/-- LDP ( a -- x a+1 ), R105, R106. -/
def execLdp (c : CoreId) (t : ThId) (s : State) : Answer := loadOp c t 0x49 1 .post s

/-- A store syllable (R81, R83, R105): `pops` cells popped, `xs` pushed, one entry into the store buffer. -/
def storeOp (c : CoreId) (t : ThId) (code need pops : Nat) (f : Option FClass) (oaddr : Cell) (k : Acc) (b : Nat)
    (z : SSize) (v : Dbl) (xs : List Cell) (s : State) : Answer :=
  .next (issue c t
    { word := opW code, need := need, net := xs.length - pops,
      waits := f.isNone && decide (16 ≤ (s.core c).sb.length),
      fault := f.map (fun x => (x, oaddr)),
      watch := watchCells .store k b,
      effect := fun r => r.modCore c (fun q =>
        (q.pushStore t (BitVec.ofNat 24 b) z v).modTh t (fun u => u.popPush pops xs)) } s)

/-- ST ( x a -- ), R105, R106. -/
def execSt (c : CoreId) (t : ThId) (s : State) : Answer :=
  let u := s.th c t
  let a := u.top 0
  storeOp c t 0x41 2 2 (accFault s (lvlOf u.status) a.toNat .cell true) a .cell a.toNat .cell ((u.top 1).setWidth 48) [] s

/-- STT ( x ta -- ), stores x[11:0], R105, R106. -/
def execStt (c : CoreId) (t : ThId) (s : State) : Answer :=
  let u := s.th c t
  let ta := u.top 0
  storeOp c t 0x44 2 2 (tineFault s (lvlOf u.status) ta true) ta .tine (tineCell ta) (.tine (ta.getLsbD 0))
    (((u.top 1).setWidth 12).setWidth 48) [] s

/-- ST2 ( d a -- ), R105, R106. -/
def execSt2 (c : CoreId) (t : ThId) (s : State) : Answer :=
  let u := s.th c t
  let a := u.top 0
  storeOp c t 0x46 3 3 (accFault s (lvlOf u.status) a.toNat .dbl true) a .dbl a.toNat .dbl (u.topD 1) [] s

/-- STP ( x a -- a+1 ), R105, R106. -/
def execStp (c : CoreId) (t : ThId) (s : State) : Answer :=
  let u := s.th c t
  let a := u.top 0
  storeOp c t 0x4A 2 2 (accFault s (lvlOf u.status) a.toNat .cell true) a .cell a.toNat .cell ((u.top 1).setWidth 48) [a + 1] s

/-- LDD ( a -- ): SR_LL := the cell at `a`, on completion (R80, R82, R88). A local load, or one that the store buffer
serves, is read at once and completes behind the thread's earlier deferred loads (log entry 7). -/
def execLdd (c : CoreId) (t : ThId) (s : State) : Answer :=
  let u := s.th c t
  let a := u.top 0
  let b := a.toNat
  let look := sbLook (s.core c).sb b .cell
  let f := accFault s (lvlOf u.status) b .cell false
  let slot := match look with | .hit _ => false | _ => region b != .local_
  .next (issue c t
    { word := opW 0x47, need := 1, noLock := true,
      waits := f.isNone && decide (2 ≤ u.dl.length),
      slot := f.isNone && slot,
      fault := f.map (fun x => (x, a)),
      watch := [.load b],
      effect := fun r => r.modTh c t (fun v =>
        let w := v.popPush 1 []
        let read (x : Cell) : Thread :=
          if v.dl.isEmpty then { w with ll := x } else { w with dl := v.dl ++ [{ a := a, v := some x }] }
        match look with
        | .hit d => read (loCell d)
        | .miss => if region b = .local_ then read (s.cellMem c b) else { w with dl := v.dl ++ [{ a := a }] }
        | .wait n => { w with dl := v.dl ++ [{ a := a, upto := n }], st := .blocked, why := .deferred n }) } s)

/-- PUSHLL ( -- x ), SR_LL: in LOOSE an early read sets E; in STRICT it waits for the thread's deferred loads (R88). -/
def execPushll (c : CoreId) (t : ThId) (s : State) : Answer :=
  .next (issue c t
    { word := opW 0x48, net := 1,
      effect := fun r => r.modTh c t (fun v =>
        if v.dl.isEmpty then v.popPush 0 [v.ll]
        else if strictOf v.status then { v with st := .blocked, why := .pushll }
        else { (v.popPush 0 [v.ll]) with status := setBit v.status 5 true }) } s)

/-- FENCE: the thread is BLOCKED until the store-buffer entries present and its own deferred loads are complete (R85). -/
def execFence (c : CoreId) (t : ThId) (s : State) : Answer :=
  .next (issue c t
    { word := opW 0x4B,
      effect := fun r =>
        let k := r.core c
        if k.sb.isEmpty && (r.th c t).dl.isEmpty then r
        else r.modTh c t (fun v => { v with st := .blocked, why := .fence k.sbNext }) } s)

/-- LCK ( a -- ): opens a locked sequence on the line of `a` and waits for its grant (R113, R114). -/
def execLck (c : CoreId) (t : ThId) (s : State) : Answer :=
  let a := (s.th c t).top 0
  .next (issue c t
    { word := opW 0x4C, need := 1, noLock := true,
      fault := if region a.toNat = .shared then none else some (.buserr, a),
      effect := fun r =>
        (r.modTh c t (fun v => { (v.popPush 1 []) with lockN := some 1, st := .blocked, why := .grant (lockLine a.toNat) })).modFb
          (fun f => { f with wants := f.wants ++ [{ line := lockLine a.toNat, core := c, th := t }] }) } s)

/-- ULK: closes the thread's locked sequence; ILLEGAL outside one (R113). -/
def execUlk (c : CoreId) (t : ThId) (s : State) : Answer :=
  .next (issue c t
    { word := opW 0x4D, illegal := (s.th c t).lockN.isNone, effect := fun r => r.endLock c t } s)

/-- A cell that TLI reads lies in the region of the table's base (R117). -/
def tliIn (base a : Nat) : Bool := region a = region base && (region a = .local_ || region a = .shared)

/-- The cells that TLI reads and what it gives (R117, R118): the addresses in order, the result and V. The sample is
`x`; the memory is that of core `c`. -/
def State.tli (s : State) (c : CoreId) (x : Cell) (base : Nat) : List Nat × Cell × Bool :=
  let n := (s.cellMem c base).toNat
  let x0 := (s.cellMem c (base + 1)).toInt
  let sh := (s.cellMem c (base + 2)).toNat
  let hd := [base, base + 1, base + 2]
  let tab (k : Nat) : Int := (s.cellMem c (base + 3 + k)).toInt
  if n < 2 ∨ 4096 < n ∨ 23 < sh then (hd, 0, true)
  else
    let r := x.toInt - x0
    if r < 0 then (hd ++ [base + 3], BitVec.ofInt 24 (tab 0), true)
    else
      let i := r.toNat / 2 ^ sh
      let f := r - (i : Int) * 2 ^ sh
      if n - 1 ≤ i then (hd ++ [base + 3 + (n - 1)], BitVec.ofInt 24 (tab (n - 1)), decide ((n - 1) * 2 ^ sh < r.toNat))
      else (hd ++ [base + 3 + i, base + 3 + i + 1],
            BitVec.ofInt 24 (tab i + ((tab (i + 1) - tab i) * f).fdiv (2 ^ sh)), false)

/-- TLI ( x base -- y ), R117 to R119. A store-buffer entry, or a line that another core holds, that overlaps a cell it
reads makes it wait (R113, R119). -/
def execTli (c : CoreId) (t : ThId) (s : State) : Answer :=
  let u := s.th c t
  let base := (u.top 0).toNat
  let p := s.tli c (u.top 1) base
  let f : Option (FClass × Cell) :=
    if isDev base && !lvlOf u.status then some (.priv, u.top 0)
    else (p.1.find? (fun a => !tliIn base a)).map (fun a => (.buserr, BitVec.ofNat 24 a))
  let busy := p.1.any (fun a => tliIn base a && (!(overCells (s.core c).sb a 1).isEmpty || s.lineHeldByOther c a))
  .next (issue c t
    { word := opW 0x39, need := 2, noLock := true, waits := busy, fault := f,
      effect := fun r => r.modTh c t (fun v =>
        { (v.popPush 2 [p.2.1]) with status := flagsZNCV v.status p.2.1 false p.2.2 }) } s)

end Sys2Proof.Machine
end

