-- ==== Sys2Proof/Machine/CoreEvents.lean ====
section
/-! DEFINITION. The events of a core that are no syllables: loads, fills and stores that complete, lock grants, the
Bellows, wakes, event entries, lockup reports, stops and halts (chapters 03, 05, 06, 15). An event whose condition does
not hold has no effect. -/

namespace Sys2Proof.Machine

/-- The link that an access to `a` crosses is declared down, so that the access never completes (R470). -/
def State.linkDead (s : State) (a : Nat) : Bool :=
  match region a with
  | .devP => s.fb.plink.down
  | .devH => s.fb.hearth.down
  | _ => false
/-- An access to `a` has to wait: its link retrains (R15), or its line is locked by another core (R113). -/
def State.accWaits (s : State) (c : CoreId) (a : Nat) : Bool :=
  (match region a with
    | .devP => s.fb.plink.training
    | .devH => s.fb.hearth.training
    | _ => false) || s.lineHeldByOther c a

/-- The bits that a load of kind `k` reads now. -/
def State.loadBits (s : State) (c : CoreId) (k : LoadKind) (a : Cell) : Dbl :=
  let b := k.cellAddr a
  if isDev b then (if k = .dbl then mkDbl (s.devCell c b) (s.devCell c (b + 1)) else (s.devCell c b).setWidth 48)
  else s.memBits c k a

/-- A wait of thread `t` has ended with its effect `f` on the thread; its window and its line are looked at again, and
whatever waits for a resource of the core tries again. -/
def State.waitOver (s : State) (c : CoreId) (t : ThId) (f : Thread → Thread) : State :=
  s.modCore c (fun k => ((k.modTh t (fun u => ({ (f u) with why := .none }).settle)).testXfer t).retry)

/-- The load that thread `t` waits for completes (R77, R82, R470, R483). It reads memory at its completion (log entry
103). -/
def State.loadDone (s : State) (c : CoreId) (t : ThId) : State :=
  match (s.th c t).why with
  | .load k a pc upto =>
    let b := k.cellAddr a
    if !s.fclkOn || !drained (s.core c).sb upto then s
    else if s.linkDead b then ((s.modTh c t (fun u => { u with why := .none })).raise c t .buserr pc a).modCore c Core.retry
    else if s.accWaits c b then s
    else (s.waitOver c t (fun u => u.popPush 1 (k.pushes a (s.loadBits c k a)))).readEffect c b
  | _ => s

/-- LOAD_COMPLETE (R77). -/
def execLoadComplete (c : CoreId) (t : ThId) (s : State) : Answer := .next (s.loadDone c t)

/-- Thread `t` waits for a load of cell address `a`. -/
def State.loadsCell (s : State) (c : CoreId) (t : ThId) (a : Nat) : Bool :=
  match (s.th c t).why with
  | .load k x _ _ => k.cellAddr x = a
  | _ => false

/-- EMBQ_READ: the LD2 of EMBQ completes and pops the oldest entry (R214). -/
def execEmbqRead (c : CoreId) (t : ThId) (s : State) : Answer :=
  .next (if s.loadsCell c t 0x0F00E4 then s.loadDone c t else s)
/-- PH_STATUS_READ: the load of PH_STATUS completes and clears the JUMP fields (R475). -/
def execPhStatusRead (c : CoreId) (t : ThId) (s : State) : Answer :=
  .next (if s.loadsCell c t 0x0F1006 then s.loadDone c t else s)

/-- Threads whose STRICT PUSHLL waits for their deferred loads go on once these are complete (R88). -/
def Core.pushlls (k : Core) (t : ThId) : Core :=
  let u := k.th.get t.toNat
  if u.why = .pushll && u.dl.isEmpty then
    (k.modTh t (fun v => ({ (v.popPush 0 [v.ll]) with why := .none }).settle)).testXfer t
  else k

/-- DEFERRED_LOAD_COMPLETE: the oldest deferred load of a thread writes SR_LL, or 0 when its link has gone down (R88,
R470). -/
def execDeferredLoadComplete (c : CoreId) (t : ThId) (s : State) : Answer :=
  .next (match (s.th c t).dl with
    | [] => s
    | d :: r =>
      let b := d.a.toNat
      if !s.fclkOn || s.accWaits c b || !drained (s.core c).sb d.upto then s
      else
        let v : Cell := if s.linkDead b then 0 else loCell (s.loadBits c .cell d.a)
        let p := latchRead v r
        let s1 := s.modCore c (fun k => ((((k.modTh t (fun u => { u with ll := p.1, dl := p.2 })).pushlls t).fences).retry))
        (if s.linkDead b then s1 else s1.readEffect c b).swapsAsk c)

/-- LINE_FILL_COMPLETE: a line fill that holds a memory slot completes (R74, R80). -/
def execLineFillComplete (c : CoreId) (line : BitVec 16) (s : State) : Answer :=
  .next (if s.fclkOn && (s.core c).fills.contains line then s.fillLine c line else s)

/-- The memory change of a store-buffer entry that drains (R81, R470). -/
def State.applyStore (s : State) (c : CoreId) (e : SEntry) : State :=
  let a := e.a.toNat
  if s.linkDead a then s
  else
    match e.size with
    | .cell => if isDev a then s.devStore c a (loCell e.v) e.dbg else s.putCellMem c a (loCell e.v)
    | .dbl => if isDev a then s.devStore2 a e.v else (s.putCellMem c a (loCell e.v)).putCellMem c (a + 1) (hiCell e.v)
    | .tine h => s.putCellMem c a (setField (s.cellMem c a) (12 * b2n h) 12 e.v.toNat)

/-- STORE_DRAIN: the head entry of a core's store buffer drains (R81, R84, R113). -/
def execStoreDrain (c : CoreId) (s : State) : Answer :=
  .next (match (s.core c).sb with
    | [] => s
    | e :: r =>
      if !s.fclkOn || s.accWaits c e.a.toNat then s
      else
        let s1 := (s.applyStore c e).modCore c (fun k => ({ k with sb := r }).fences.retry)
        (s1.releaseLines c).swapsAsk c)

/-- The want whose turn on a line it is: round-robin by core number after the last holder (R116). A line that no core has
held yet starts at core 0 (log entry 30). -/
def State.turnOf (s : State) (line : BitVec 18) : Option Hold :=
  let last := match s.fb.lastHold.find? (fun p => p.1 = line) with | some p => p.2.toNat | none => 15
  let at_ (i : Nat) (h : Hold) : Bool := h.line = line && h.core.toNat = (last + 1 + i) % 16
  match firstIdx (fun i => s.fb.wants.any (at_ i)) 16 with
  | some i => s.fb.wants.find? (at_ i)
  | none => none

/-- The want that the line is granted to now: the one whose turn it is, once no other core holds the line (R113, R116). -/
def State.nextHold (s : State) (line : BitVec 18) : Option Hold :=
  match s.turnOf line with
  | some h => if s.fb.holds.any (fun x => x.line = line && x.core ≠ h.core) then none else some h
  | none => none

/-- LOCK_GRANT (R113, R116). -/
def execLockGrant (line : BitVec 18) (s : State) : Answer :=
  .next (match s.nextHold line with
    | none => s
    | some h =>
      if !s.fclkOn then s
      else
      let s1 := s.modFb (fun f =>
        { f with wants := f.wants.filter (fun x => !(x.line = line && x.core = h.core && x.th = h.th)), holds := f.holds ++ [h],
                 lastHold := (line, h.core) :: f.lastHold.filter (fun p => p.1 ≠ line) })
      s1.waitOver h.core h.th id)

/-- The operation at the head of the Bellows' queue may start (R129, R132, R140). -/
def State.bellReady (s : State) (c : CoreId) (o : BellOp) : Bool :=
  match o with
  | .xfer t =>
    let u := s.th c t
    (match u.xfer with
      | some x =>
        if x.kind = .fill then s.cellsFree c (u.dsbase.toNat + u.spc - 8) 8 else !s.linesHeld c (u.dsbase.toNat + u.spc) 8
      | none => false)
  | .swap t =>
    let u := s.th c t
    (match u.why with
      | .swap a _ => s.cellsFree c u.ctxa.toNat 64 && s.cellsFree c a.toNat 64
      | _ => false)

/-- BELLOWS_START: the oldest operation asked for starts and takes a memory slot (R129), or waits its turn for one (R80). -/
def execBellowsStart (c : CoreId) (s : State) : Answer :=
  .next (match (s.core c).bell, (s.core c).bq with
    | none, o :: r =>
      if !s.fclkOn || !s.bellReady c o then s
      else if (s.core c).maySlot .bell then s.modCore c (fun k => { (k.unask .bell) with bell := some o, bq := r })
      else s.modCore c (fun k => k.askSlot .bell)
    | _, _ => s)

/-- A transfer of thread `t` is over with the change `f` to the thread; it may call for the next one (R127), unless an
MTS to its spill area waits (R131). A SWAPCTX of the thread may go on (R140). -/
def State.xferOver (s : State) (c : CoreId) (t : ThId) (f : Thread → Thread) : State :=
  (s.modCore c (fun k =>
    let q := { (k.modTh t (fun u => { (f u) with xfer := none })) with bell := none }
    (if (q.th.get t.toNat).why = .area then q else q.testXfer t).retry)).swapsAsk c

/-- SPILL_COMPLETE (R125), once no other core holds a line of the spill area (R132). A voided spill leaves free values in
the spill area; the cells of a spill come there at its completion (R124, log entry 104). -/
def execSpillComplete (c : CoreId) (s : State) : Answer :=
  .next (match (s.core c).bell with
    | some (.xfer t) =>
      let u := s.th c t
      match u.xfer with
      | some x =>
        let a := u.dsbase.toNat + u.spc
        if !s.fclkOn || x.kind ≠ .spill || s.linesHeld c a 8 then s
        else if x.voided then
          ((s.putCellsMem c a ((List.range 8).map (fun p => Config.freeSpill s.free p))).draw).xferOver c t id
        else
          (s.putCellsMem c a ((List.range 8).map (fun p => u.win.get (8 * x.grp + p)))).xferOver c t
            (fun v => { v with w := v.w - 8, spc := v.spc + 8, base := (v.base + 1) % 4 })
      | none => s
    | _ => s)

/-- Eight cells put into group `g` of a window. -/
def Thread.putGroup (u : Thread) (g : Nat) (l : List Cell) : Thread :=
  { u with win := (List.range 8).foldl (fun (w : Tab Cell 32) p => w.set (8 * g + p) (l.getD p 0)) u.win }

/-- FILL_COMPLETE (R126), once no other core holds a line of the cells it reads (R132). -/
def execFillComplete (c : CoreId) (s : State) : Answer :=
  .next (match (s.core c).bell with
    | some (.xfer t) =>
      let u := s.th c t
      match u.xfer with
      | some x =>
        let a := u.dsbase.toNat + u.spc - 8
        if !s.fclkOn || x.kind ≠ .fill || s.linesHeld c a 8 then s
        else
          let l := s.areaCells c a
          let s1 := if l = s.cellsMem c a 8 then s else s.draw
          s1.xferOver c t (fun v =>
            { (v.putGroup x.grp l) with base := x.grp, w := v.w + 8, spc := v.spc - 8, dirty := setBit v.dirty x.grp true })
      | none => s
    | _ => s)

/-- SWAPCTX_COMPLETE: the running context is saved, the context at `a` is loaded and the thread resumes (R140, R141), once
no other core holds a line of the two blocks (R132). -/
def execSwapctxComplete (c : CoreId) (s : State) : Answer :=
  .next (match (s.core c).bell with
    | some (.swap t) =>
      let u := s.th c t
      match u.why with
      | .swap a _ =>
        if !s.fclkOn || s.linesHeld c u.ctxa.toNat 64 || s.linesHeld c a.toNat 64 then s
        else
          let s1 := s.saveCtx c u
          ((s1.modCore c (fun k => { k with bell := none })).waitOver c t
            (fun v => v.loadCtx a (s1.cellsMem c a.toNat 64))).fetchLine c t
      | _ => s
    | _ => s)

/-- The bits on which a WAITING thread waits: the first and how many (R148). -/
def Thread.waitsOn (u : Thread) : Option (Nat × Nat) :=
  match u.st, u.why with
  | .waiting, .bits false => some ((u.top 0).toNat, 1)
  | .waiting, .bits true => some ((u.top 1).toNat, (u.top 0).toNat)
  | _, _ => none

/-- The WAIT or WAITN of a thread completes with the offset `i` (R148, R149). -/
def Thread.wake (u : Thread) (i : Nat) : Thread :=
  let v := if u.why = .bits true then u.popPush 2 [BitVec.ofNat 24 i] else u.popPush 1 []
  { v with pc := u.pc + 1, st := .ready, why := .none }

/-- EVENT_BIT_WAKE: a WAITING thread wakes on one of its bits (R149), unless an entry, a stop or a halt comes first
(R151). -/
def execEventBitWake (c : CoreId) (t : ThId) (s : State) : Answer :=
  .next (let u := s.th c t
    match u.waitsOn with
    | some (a, n) =>
      (match s.lowBit c u a n with
        | some i =>
          if s.coresRun && !s.boundaryTaken c u then
            (s.modCore c (fun k => (k.modTh t (fun v => v.wake i)).testXfer t)).fetchLine c t
          else s
        | none => s)
    | none => s)

/-- A thread is at an issue boundary now (R151): READY with its line, or WAITING, on a core that can issue. -/
def State.atIssue (s : State) (c : CoreId) (t : ThId) : Bool :=
  let u := s.th c t
  (u.st = .ready || u.st = .waiting) && u.want.isNone && u.atBoundary && s.coreFree c && (s.core c).noOtherLock t

/-- EVENT_ENTRY: the entry of the pending level P above MASK (R151, R152). -/
def execEventEntry (c : CoreId) (t : ThId) (s : State) : Answer :=
  .next (let u := s.th c t
    let p := s.pendLevel c u
    if s.atIssue c t && !u.stopReq && !u.haltReq && u.step != some true && decide (maskOf u.status < p) then
      s.enter c t
        { kind := .event, vec := 23 + p, arm := s.pendArm c u, pushPc := u.pc, saddr := u.pc, mask := some p }
    else s)

/-- The threads of `mask` have all ended their work for a stop (R339). -/
def Core.stopsDone (k : Core) (mask : Nat) : Bool :=
  (List.range 8).all (fun i => !mask.testBit i || (k.th.get i).st = .stopped || (k.th.get i).st = .frozen || (k.th.get i).st = .halted)
/-- The threads that are STOPPED, as a mask. -/
def Core.stoppedMask (k : Core) : Byte := BitVec.ofFnLE (fun i : Fin 8 => (k.th.get i.val).st = .stopped)

/-- THREAD_STOP commands whose threads are done complete (R339). -/
def State.stopRuns (s : State) : State :=
  s.fl.runs.foldl (fun (r : State) x =>
    match x.kind with
    | .threadStop c m true =>
      let k := r.cores.get c
      if k.stopsDone m then r.finish x.tag 0 [k.stoppedMask &&& BitVec.ofNat 8 m] else r
    | _ => r) s

/-- STOP_TAKES_EFFECT (R67). -/
def execStopTakesEffect (c : CoreId) (t : ThId) (s : State) : Answer :=
  .next (if s.atIssue c t && (s.th c t).stopReq then
      (s.modCore c (fun k =>
        ((k.modTh t (fun u => { u with st := .stopped, why := .none, stopReq := false })).unask (.thread t)).fillTurns)).stopRuns
    else s)

/-- THREAD_HALT: a halt asked for takes effect at the boundary; a WAITING thread halts at once (R413). -/
def execThreadHalt (c : CoreId) (t : ThId) (s : State) : Answer :=
  .next (let u := s.th c t
    if u.haltReq && s.fclkOn && (u.st = .waiting || s.atIssue c t) then
      ((s.modCore c (fun k =>
        ((k.modTh t (fun v => { v with st := .halted, why := .none, haltReq := false })).unask (.thread t)).fillTurns)).traceRec
        c t 5 u.pc 0).stopRuns
    else s)

/-- Everything that a locked-up core had started is complete (R161). -/
def Core.quiescent (k : Core) : Bool :=
  k.sb.isEmpty && k.bell.isNone && k.bq.isEmpty && k.fills.isEmpty && k.slotq.isEmpty && k.seq.isNone &&
  k.th.toList.all (fun u => u.dl.isEmpty && (match u.why with | .load _ _ _ _ | .swap _ _ => false | _ => true))

/-- LOCKUP_QUIESCENT (R165). -/
def execLockupQuiescent (c : CoreId) (s : State) : Answer :=
  .next (if (s.core c).quiescent then s.modCore c (fun k => { k with lockup := k.lockup.map (fun l => { l with quiet := true }) }) else s)

/-- The cores whose lockup has reached the Pilot, and LOCKUP_N with them (R163). -/
def Pilot.putLockups (p : Pilot) (m : BitVec 16) : Pilot := { p with lockups := m, lockupPin := m = 0 }

/-- LOCKUP_REPORT: the Pilot acknowledges the report of a lockup (R163, R164). -/
def execLockupReport (c : CoreId) (s : State) : Answer :=
  .next (if (s.core c).lockup.isSome && s.plinkUp then
      { s.modCore c (fun k => { k with lockup := k.lockup.map (fun l => { l with reported := true }) }) with
        pil := s.pil.putLockups (setBit s.pil.lockups c.toNat true) }
    else s)

/-- The eight cells of a thread in a machine note (Table 6.9). -/
def Thread.noteCells (u : Thread) : List Cell :=
  [u.pc.setWidth 24, u.status, BitVec.ofNat 24 (u.fr.kind.num + 8 * u.fr.vec.toNat + 256 * u.fr.cls.toNat),
   u.fr.saddr.setWidth 24, u.fr.oaddr, BitVec.ofNat 24 u.depth, BitVec.ofNat 24 (u.rsd + 32 * u.wasSt.num), 0]

/-- The payload of a machine note (Table 6.9). -/
def Core.note (k : Core) (c : CoreId) (l : Lockup) : List Byte :=
  packCells ([c.setWidth 24, BitVec.ofNat 24 (l.t.toNat + 8 * l.cause.toNat), l.what.setWidth 24,
    BitVec.ofNat 24 (l.dropped.length % 256)] ++ (List.range 4).map (fun i => (l.dropped.getD i 0).setWidth 24) ++
    (k.th.toList.map Thread.noteCells).flatten)

/-- A machine note can be written (R165, R281). -/
def State.noteOk (s : State) : Bool :=
  s.vaultOn && s.pw.life ≠ .pfail && !s.fb.hearth.down && s.life ≠ 4 && s.life ≠ 7

/-- FROZEN_STATE_ARRIVAL: the frozen state of a locked core reaches the Pilot, which writes the machine note (R165). -/
def execFrozenStateArrival (c : CoreId) (s : State) : Answer :=
  .next (match (s.core c).lockup with
    | some l =>
      if l.quiet && l.reported && !l.sent && s.plinkUp then
        let s1 := s.modCore c (fun k => { k with lockup := some { l with sent := true } })
        if s.noteOk then s1.pilotLog 0x81 ((s.core c).note c l)
        else { s1 with pil := { s1.pil with noteLost := satInc s1.pil.noteLost } }
      else s
    | none => s)

end Sys2Proof.Machine
end

