-- ==== Sys2Proof/Machine/Micro.lean ====
section
/-! DEFINITION. The sequencer and the open store (chapter 07): the masked microword, one cycle of a routine, a routine
from its dispatch to its end, and the commands that dispatch an open code and end its routine. ROM routines are the
syllables' own meanings (R169, R179). -/

namespace Sys2Proof.Machine

/-- An open dispatch entry (Table 7.5). -/
structure OpenEntry where
  nin : Nat
  nout : Nat
  mOnly : Bool
  first : Nat

/-- The entry of an open code, none when it is not valid or no bundle is installed (R180, R188). -/
def CtlStore.entry (s : CtlStore) (k : Nat) : Option OpenEntry :=
  let e := s.disp.get k
  if s.openIn && e.getLsbD 31 then
    some { nin := fieldN e 28 3, nout := fieldN e 25 3, mOnly := e.getLsbD 24, first := 0xC00 + fieldN e 0 10 }
  else none

/-- The word that the sequencer executes at address `ua` (R167, R178): of the open store, of the patch RAM, or of the
vendor ROM, there the word at the TARGET of the lowest-numbered enabled match point whose MATCH it is. -/
def CtlStore.word (s : CtlStore) (ua : Nat) : BitVec 96 :=
  if 0xC00 ≤ ua then memRead s.openw ua
  else if 0xA00 ≤ ua then memRead s.patch ua
  else
    match firstIdx (fun i => (s.points.get i).getLsbD 31 && fieldN (s.points.get i) 16 12 = ua) 32 with
    | some i => memRead s.patch (fieldN (s.points.get i) 0 12)
    | none => Config.vendorRom (BitVec.ofNat 12 ua)

/-- How a routine ends its cycles. `done` names its END word. `held`: a load waits for a store-buffer entry, or for a line
that another core has locked (R113, R182). -/
inductive MEnd where
  | done (ua : Nat) (outs : List Cell) (status : Cell) (writes : List (Cell × Cell))
  | seqFault (cause ua : Nat)
  | memFault (a : Cell)
  | fifthStore
  | waitTimeout (ua : Nat)
  | tooLong (ua : Nat)
  | held (ua : Nat)
deriving DecidableEq, Repr

/-- The sequencer's registers (R171, R174): the word's address, scratch, results, loop counter, memory data, the load
in flight with the cycle its data comes, SR_STATUS with the flags captured, write queue, micro-stack, cycles used and
consecutive cycles held by a WAIT. -/
structure MState where
  ua : Nat
  t : Tab Cell 4
  u : Tab Cell 8 := Tab.fill 8 0
  o : Tab Cell 4 := Tab.fill 4 0
  uc : BitVec 12 := 0
  mdr : Cell := 0
  ld : Option (Nat × Cell) := none
  loaded : Bool := false
  st : Cell
  wq : List (Cell × Cell) := []
  stk : List Nat := []
  cyc : Nat := 0
  hold : Nat := 0

/-- A source code is reserved (Table 7.3). -/
def srcReserved (k : Nat) : Bool := (decide (5 ≤ k) && decide (k < 8)) || (decide (0x14 ≤ k) && decide (k < 0x20))
/-- A destination code is reserved. -/
def dstReserved (k : Nat) : Bool := (decide (5 ≤ k) && decide (k < 8)) || (decide (0x11 ≤ k) && decide (k < 0x18))

/-- The value of a source; vendor sources read 0 (R171). -/
def MState.src (m : MState) (konst k : Nat) : Cell :=
  if k = 0 then 0
  else if k < 5 then m.t.get (k - 1)
  else if 8 ≤ k ∧ k < 16 then m.u.get (k - 8)
  else if k = 0x10 then (BitVec.ofNat 12 konst).signExtend 24
  else if k = 0x11 then BitVec.ofNat 24 konst
  else if k = 0x12 then m.mdr
  else if k = 0x13 then m.uc.setWidth 24
  else 0

/-- A result with Z and N, and C and V cleared (R171). -/
def outPass (st r : Cell) : Cell × Cell := (r, flagsZNCV st r false false)

/-- The ALU (Table 7.3): the result and SR_STATUS with the flags it sets, as the syllable of the same name sets them. -/
def microAlu (op : Nat) (a b : Cell) (shf : Nat) (st : Cell) : Cell × Cell :=
  let one (x : AluOut) : Cell × Cell := (x.1.headD 0, x.2)
  let p := a.toInt * b.toInt
  let n : Cell := BitVec.ofNat 24 shf
  match op with
  | 0x00 => outPass st a
  | 0x01 => outPass st b
  | 0x02 => one (outZNCV st (addc a b false))
  | 0x03 => one (outZNCV st (subb a b false))
  | 0x04 => one (outZNCV st (addc a b (carryOf st)))
  | 0x05 => one (outZNCV st (subb a b (!carryOf st)))
  | 0x06 => one (outZN st (a &&& b))
  | 0x07 => one (outZN st (a ||| b))
  | 0x08 => one (outZN st (a ^^^ b))
  | 0x09 => one (outZN st (a &&& ~~~b))
  | 0x0A => one (outShift shlC st a n)
  | 0x0B => one (outShift shrC st a n)
  | 0x0C => one (outShift sarC st a n)
  | 0x0D => one (outShift rolC st a n)
  | 0x0E => one (outZN st (minS a b))
  | 0x0F => one (outZN st (maxS a b))
  | 0x10 => one (outZN st (if b.ult a then b else a))
  | 0x11 => one (outZN st (if a.ult b then b else a))
  | 0x12 => outPass st (BitVec.ofInt 24 p)
  | 0x13 => outPass st (BitVec.ofInt 24 (p.fdiv (2 ^ 24)))
  | 0x14 => one (outSat st (a.toInt + b.toInt))
  | 0x15 => one (outSat st (a.toInt - b.toInt))
  | _ => (0, st)

/-- L maximum of a class in FCLK cycles at code `n` (Table 3.5, R182): 2 for local memory, 30 ns for shared and 40 ns
for Ember memory, FCLK being 25 × n MHz. -/
def loadCycles (a n : Nat) : Nat :=
  match region a with
  | .shared => (30 * n + 39) / 40
  | .ember => (40 * n + 39) / 40
  | _ => 2

/-- The flags that FLW captures; E never (R172, R176). -/
def captureFlags (st new : Cell) (r : Cell) (flw : Nat) : Cell :=
  let z := if flw.testBit 5 then setBit st 0 (new.getLsbD 0) else st
  let n := if flw.testBit 4 then setBit z 1 (new.getLsbD 1) else z
  let c := if flw.testBit 3 then setBit n 2 (new.getLsbD 2) else n
  let v := if flw.testBit 2 then setBit c 3 (new.getLsbD 3) else c
  if flw.testBit 1 then setBit v 4 (r != 0) else v

/-- A destination is written (R171). -/
def MState.put (m : MState) (k : Nat) (v : Cell) : MState :=
  if 1 ≤ k ∧ k < 5 then { m with o := m.o.set (k - 1) v }
  else if 8 ≤ k ∧ k < 16 then { m with u := m.u.set (k - 8) v }
  else if k = 0x10 then { m with uc := v.setWidth 12 }
  else m

/-- The condition of a word and UC after it (Table 7.3). `new` are the flags of the word's ALU result. -/
def MState.cond (m : MState) (k : Nat) (new : Cell) : Bool × BitVec 12 :=
  match k with
  | 0 => (true, m.uc)
  | 1 => (new.getLsbD 0, m.uc)
  | 2 => (new.getLsbD 1, m.uc)
  | 3 => (new.getLsbD 2, m.uc)
  | 4 => (new.getLsbD 3, m.uc)
  | 5 => (m.uc - 1 != 0, m.uc - 1)
  | 6 => (m.loaded && m.ld.isNone, m.uc)
  | 7 => (decide (4 ≤ m.wq.length), m.uc)
  | _ => (false, m.uc)

/-- The load of a word: the data and the cycles it takes, or why it cannot be had (R106, R113, R182). -/
def MState.load (m : MState) (s : State) (c : CoreId) (a : Cell) : MEnd ⊕ (Nat × Cell) :=
  match region a.toNat with
  | .local_ | .shared | .ember =>
    match m.wq.reverse.find? (fun x => x.1 = a) with
    | some x => .inr (2, x.2)
    | none =>
      if (overCells (s.core c).sb a.toNat 1).isEmpty && !s.lineHeldByOther c a.toNat then
        .inr (loadCycles a.toNat s.fb.fclk, s.cellMem c a.toNat)
      else .inl (.held m.ua)
  | _ => .inl (.memFault a)

/-- The next address (Table 7.4), or the cause of the fault: 2 micro-stack, 6 past 0xFFF. `a` is the A operand. -/
def MState.next (m : MState) (seq naddr : Nat) (cond : Bool) (a : Cell) : Nat ⊕ (Nat × List Nat) :=
  let br := 0xC00 + naddr % 0x400
  let inc : Nat ⊕ (Nat × List Nat) := if m.ua + 1 < 4096 then .inr (m.ua + 1, m.stk) else .inl 6
  match seq with
  | 1 => .inr (br, m.stk)
  | 2 => if cond then .inr (br, m.stk) else inc
  | 3 => if 4 ≤ m.stk.length then .inl 2 else .inr (br, (m.ua + 1) :: m.stk)
  | 4 => (match m.stk with | [] => .inl 2 | x :: r => if x < 4096 then .inr (x, r) else .inl 6)
  | 5 => .inr (br / 16 * 16 + a.toNat % 16, m.stk)
  | _ => inc

/-- One sequencer cycle of an open-store word (R171 to R176, R182): the routine's end, or the state after the cycle. -/
def microCycle (s : State) (c : CoreId) (m0 : MState) : MEnd ⊕ MState :=
  let m := match m0.ld with
    | some (n, v) => if n ≤ m0.cyc then { m0 with mdr := v, ld := none } else m0
    | none => m0
  let w := (s.core c).cs.word m.ua
  let seq := fieldN w 93 3
  let cc := fieldN w 75 6
  let fin := w.getLsbD 73
  let asel := fieldN w 67 6
  let bsel := fieldN w 61 6
  let alu := fieldN w 56 5
  let shf := fieldN w 51 5
  let dst := fieldN w 46 5
  let mem := fieldN w 29 3
  let madr := fieldN w 24 5
  let konst := fieldN w 12 12
  let a := m.src konst asel
  let b := m.src konst bsel
  let x := m.src konst madr
  let r := microAlu alu a b (if shf = 31 then b.toNat % 32 else shf) m.st
  if srcReserved asel || srcReserved bsel || srcReserved madr || dstReserved dst || decide (0x15 < alu) ||
      (decide (25 ≤ shf) && shf != 31) || (decide (8 ≤ cc) && decide (cc < 0x20)) then .inl (.seqFault 5 m.ua)
  else if seq = 7 && !fin then .inl (.seqFault 1 m.ua)
  else
    let cd := m.cond cc r.2
    let hit := cd.1 != w.getLsbD 74
    if seq = 6 && !hit then
      let n := { m with uc := cd.2, cyc := m.cyc + 1, hold := m.hold + 1 }
      if 8192 ≤ n.cyc then .inl (.tooLong m.ua)
      else if 4096 ≤ n.hold then .inl (.waitTimeout m.ua)
      else .inr n
    else if mem = 1 && m.ld.isSome then
      if 8192 ≤ m.cyc + 1 then .inl (.tooLong m.ua) else .inr { m with cyc := m.cyc + 1 }
    else if mem = 2 && decide (4 ≤ m.wq.length) then .inl .fifthStore
    else
      match m.next seq (fieldN w 81 12) hit a, fin with
      | .inl cause, false => .inl (.seqFault cause m.ua)
      | nx, _ =>
        let st := captureFlags m.st r.2 r.1 (fieldN w 32 6)
        let uc := if seq = 2 ∨ seq = 6 then cd.2 else m.uc
        let m1 := ({ m with st := st, uc := uc, hold := 0, cyc := m.cyc + 1 }).put dst r.1
        let m2 : MEnd ⊕ MState :=
          if mem = 1 then
            (match m.load s c x with
              | .inl e => .inl e
              | .inr (n, v) => .inr { m1 with ld := some (m.cyc + n, v), loaded := true })
          else if mem = 2 then
            (match region x.toNat with
              | .local_ | .shared => .inr { m1 with wq := m1.wq ++ [(x, b)] }
              | _ => .inl (.memFault x))
          else .inr m1
        match m2 with
        | .inl e => .inl e
        | .inr m3 =>
          if fin then .inl (.done m.ua m3.o.toList m3.st m3.wq)
          else if 8192 ≤ m3.cyc then .inl (.tooLong m.ua)
          else match nx with
            | .inl _ => .inr m3
            | .inr (ua, stk) => .inr { m3 with ua := ua, stk := stk }

/-- A routine's cycles, at most `n` of them. -/
def microRun (s : State) (c : CoreId) : Nat → MState → MEnd
  | 0, m => .tooLong m.ua
  | n + 1, m =>
    match microCycle s c m with
    | .inl e => e
    | .inr m1 => microRun s c n m1

/-- The sequencer at a routine's dispatch (R171, R174): T0 to T3 hold the declared operands. -/
def Thread.microStart (u : Thread) (e : OpenEntry) : MState :=
  { ua := e.first, t := Vector.ofFn (fun i : Fin 4 => if i.val < e.nin then u.top i.val else 0), st := u.status }

/-- How the running routine of core `c` ends. Its loads read memory as it stands at its end (log entry 31). -/
def State.routineEnd (s : State) (c : CoreId) (r : Routine) : MEnd :=
  match (s.core c).cs.entry r.code.toNat with
  | some e => microRun s c 8193 ((s.th c r.t).microStart e)
  | none => .held 0

/-- OPEN_CODE: an open code is dispatched (R120, R180, R181, R183). -/
def execOpenCode (c : CoreId) (t : ThId) (k : BitVec 6) (s : State) : Answer :=
  let u := s.th c t
  let e := (s.core c).cs.entry k.toNat
  .next (issue c t
    { word := opW (0xC0 + k.toNat), need := (e.map (·.nin)).getD 0, net := (e.map (fun x => x.nout - x.nin)).getD 0,
      noLock := true, illegal := e.isNone || decodeStrict u.status,
      fault := match e with | some x => if x.mOnly && !lvlOf u.status then some (.priv, 0) else none | none => none,
      effect := fun r => r.modCore c (fun q => { q with seq := some { t := t, pc := u.pc, code := k } }) } s)

/-- A sequencer fault is recorded in MSEQ_FAULT (R177). -/
def mseqCell (t : ThId) (cause ua : Nat) : Cell := BitVec.ofNat 24 (ua + 4096 * cause + 65536 * t.toNat + 2 ^ 23)

/-- The routine of core `c` faults: nothing of it remains, the fault is raised against its syllable (R176, R177). -/
def State.routineFault (s : State) (c : CoreId) (r : Routine) (f : FClass) (oaddr : Cell) (rec : Option (Nat × Nat)) : State :=
  let s1 := s.modCore c (fun k =>
    { k with seq := none, mseq := match rec with | some (cause, ua) => mseqCell r.t cause ua | none => k.mseq })
  (s1.raise c r.t f r.pc oaddr).modCore c Core.retry

/-- ROUTINE_END: END commits the routine in one step once the store buffer has room (R176); a fault on the way ends it
without effect (R173, R174, R177, R182). -/
def execRoutineEnd (c : CoreId) (s : State) : Answer :=
  .next (match (s.core c).seq with
    | none => s
    | some r =>
      if !s.fclkOn then s
      else
      match s.routineEnd c r, (s.core c).cs.entry r.code.toNat with
      | .done _ outs st wq, some e =>
        if 16 < (s.core c).sb.length + wq.length then s
        else
          s.modCore c (fun k =>
            let k1 := wq.foldl (fun (q : Core) x => q.pushStore r.t x.1 .cell (x.2.setWidth 48)) k
            (({ (k1.modTh r.t (fun u =>
                { (u.popPush e.nin (outs.take e.nout)) with status := (u.status &&& ~~~0x1F) ||| (st &&& 0x1F) })) with
                seq := none }).testXfer r.t).retry)
      | .seqFault cause ua, _ => s.routineFault c r .illegal 0 (some (cause, ua))
      | .memFault a, _ => s.routineFault c r .buserr a none
      | .fifthStore, _ => s.routineFault c r .illegal 0 none
      | _, _ => s)

/-- MICRO_WAIT_TIMEOUT: a WAIT has held for 4,096 cycles (R175). -/
def execMicroWaitTimeout (c : CoreId) (s : State) : Answer :=
  .next (match (s.core c).seq with
    | none => s
    | some r =>
      if !s.fclkOn then s
      else
      match s.routineEnd c r with
      | .waitTimeout ua => s.routineFault c r .buserr 0 (some (3, ua))
      | _ => s)

/-- ROUTINE_LENGTH_LIMIT: a routine has reached 8,192 cycles (R175): those of its words, of a load that waits for a
store-buffer entry (R182), or of an END that waits for room in the store buffer (R176). -/
def execRoutineLengthLimit (c : CoreId) (s : State) : Answer :=
  .next (match (s.core c).seq with
    | none => s
    | some r =>
      let late (ua : Nat) : State := s.routineFault c r .illegal 0 (some (4, ua))
      if !s.fclkOn then s
      else
        match s.routineEnd c r with
        | .tooLong ua | .held ua => late ua
        | .done ua _ _ wq => if 16 < (s.core c).sb.length + wq.length then late ua else s
        | _ => s)

end Sys2Proof.Machine
end

