-- ==== Sys2Proof/Machine/LogSyl.lean ====
section
/-! DEFINITION. The log commands of a thread and ETRIG (R205, R216, R232 to R239, Table 4.12), and the completion of an
append. The checks of a command are taken in the order: handle, state, link, argument, the ring's refusals, size,
staging (log entry 33). -/

namespace Sys2Proof.Machine

/-- The log slot that handle `h` names on core `c` (R233, R237). -/
def State.handle (s : State) (c : CoreId) (h : Cell) : Option Nat :=
  let l := s.hs.slots.get (fieldN h 0 6)
  if fieldN h 14 10 = 0 && l.state != .invalid && l.core = c && l.gen = BitVec.ofNat 8 (fieldN h 6 8) then some (fieldN h 0 6)
  else none

/-- The bytes that a body segment counts for LOGSIZE: what it placed, or the most that it can place (R237). -/
def Seg.size (g : Seg) : Nat := if g.fin then g.bytes.length else g.most
/-- The header and the body of a log (Table 9.5). -/
def LogSlot.size (l : LogSlot) : Nat := 64 + (l.segs.map Seg.size).sum

/-- A command on a log is refused with a code (R237, R238). -/
def State.refuseLog (s : State) (i code : Nat) : State := s.modSlot i (fun l => { l with last := BitVec.ofNat 4 code })

/-- A reservation of `n` bytes by log slot `i` can be made (R232). -/
def State.canReserve (s : State) (i n : Nat) : Bool :=
  let l := s.hs.slots.get i
  decide (({ l with resv := l.resv + n }).units - l.units ≤ s.freeStage)

/-- A segment joins the body of log slot `i` with its reservation. -/
def State.addSeg (s : State) (i : Nat) (g : Seg) : State :=
  s.modSlot i (fun l => { l with segs := l.segs ++ [g], resv := l.resv + g.resv })

/-- A committing log whose segments are all final goes to the Damper (R236). -/
def State.logReady (s : State) (i : Nat) : State :=
  let l := s.hs.slots.get i
  if l.state = .committing && l.segs.all (·.fin) then s.submit (.slot i) else s

/-- The log that a command with handle `h` works on, or the refusal: BADH, STATE, VAULT (R237). -/
def State.onLog (s : State) (c : CoreId) (h : Cell) (f : Nat → State → State) : State :=
  match s.handle c h with
  | none => s.modCnt c (fun n => { n with logBadh := satInc n.logBadh })
  | some i =>
    if (s.hs.slots.get i).state ≠ .open_ then s.refuseLog i 7
    else if s.fb.hearth.down then s.refuseLog i 0xB
    else f i s

/-- The header that LOPEN latches (R225, R226, Table 9.2). -/
def State.openHdr (s : State) (v : Cell) : Hdr :=
  let m := s.fb.mir
  { cls := v.setWidth 8, ptype := BitVec.ofNat 8 (fieldN v 8 8), course := m.course, crank := m.crank, tick := m.tick,
    odo := odoField (m.status.getLsbD 12) m.odo,
    flags := openFlags (m.status.getLsbD 12) (m.status.getLsbD 8 || m.status.getLsbD 9)
      (m.status.getLsbD 10 || m.status.getLsbD 11) }

/-- A slot that LOPEN can take (R238). -/
def LogSlot.free (l : LogSlot) : Bool := l.state = .invalid || l.state = .durable || l.state = .dropped

/-- The free slot that was freed least recently (R233). -/
def State.freeLogSlot (s : State) : Option Nat :=
  let f (i : Nat) : Nat := (s.hs.slots.get i).freed
  firstIdx (fun i => (s.hs.slots.get i).free &&
    (List.range 64).all (fun j => !(s.hs.slots.get j).free || decide (f i ≤ f j))) 64

/-- The refusal code of LOPEN with class cell `v`, 0 when it is accepted (R227, R232, R233, R368, Table 9.5). -/
def State.openCode (s : State) (c : CoreId) (v : Cell) : Nat :=
  if 0x7F < fieldN v 0 8 ∨ fieldN v 16 8 ≠ 0 then 3
  else if s.life = 0 ∨ s.life = 4 ∨ s.life = 7 then 0xC
  else if s.fb.hearth.down || s.hs.vault.fault then 0xB
  else if s.freeLogSlot.isNone ||
    decide (16 ≤ (s.hs.slots.toList.filter (fun l => l.core = c && (l.state = .open_ || l.state = .committing))).length) then 1
  else if 0x40 ≤ fieldN v 0 8 ∧ s.freeStage < 32 then 2
  else 0

/-- LOPEN's work (R233, R239): the slot opens with its next generation; its DONE and SEALED bits are cleared. -/
def State.openLog (s : State) (c : CoreId) (v : Cell) (i : Nat) : State :=
  ((s.modSlot i (fun l => { state := .open_, gen := l.gen + 1, core := c, hdr := s.openHdr v, freed := l.freed })).putEv
    (0x1100 + i) false).putEv (0x1140 + i) false

/-- LOPEN ( class -- h ), R233. Like every log command it takes no memory slot (log entry 103). -/
def execLopen (c : CoreId) (t : ThId) (s : State) : Answer :=
  .next (issue c t
    { word := opW 0x70, need := 1, noLock := true, waits := s.fb.hearth.training,
      effect := fun r =>
        let v := (r.th c t).top 0
        let k := r.openCode c v
        match r.freeLogSlot with
        | some i =>
          if k = 0 then
            (r.openLog c v i).modTh c t (fun u =>
              u.popPush 1 [BitVec.ofNat 24 (i + 64 * ((r.hs.slots.get i).gen + 1).toNat)])
          else r.modTh c t (fun u => u.popPush 1 [BitVec.ofNat 24 (2 ^ 23 + k)])
        | none => r.modTh c t (fun u => u.popPush 1 [BitVec.ofNat 24 (2 ^ 23 + k)]) } s)

/-- The cells of an append, if it has any, lie wholly in local memory or wholly in shared memory (R234). -/
def appendPlace (a n : Nat) : Bool :=
  n = 0 || (region a = .local_ && region (a + (n - 1)) = .local_) || (region a = .shared && region (a + (n - 1)) = .shared)

/-- LAPP's work on log slot `i` (R232, R234, R237). -/
def State.lapp (c : CoreId) (a n : Cell) (i : Nat) (s : State) : State :=
  let m := n.toNat
  if m = 0 ∨ 4096 < m then s.refuseLog i 5
  else if 261120 < (s.hs.slots.get i).size + 3 * m then s.refuseLog i 6
  else if !s.canReserve i (3 * m) then s.refuseLog i 2
  else
    let up := (overCells (s.core c).sb a.toNat m).foldl (fun x e => max x (e.id + 1)) 0
    s.addSeg i { a := a, n := m, upto := up, resv := 3 * m, most := 3 * m }

/-- LAPP ( a n h -- ), R234. -/
def execLapp (c : CoreId) (t : ThId) (s : State) : Answer :=
  let u := s.th c t
  .next (issue c t
    { word := opW 0x71, need := 3, noLock := true, waits := s.fb.hearth.training,
      fault := if appendPlace (u.top 2).toNat (u.top 1).toNat then none else some (.buserr, u.top 2),
      effect := fun r =>
        (r.onLog c (u.top 0) (State.lapp c (u.top 2) (u.top 1))).modTh c t (fun v => v.popPush 3 []) } s)

/-- LEMB's work on log slot `i` (R216, R232, R237). -/
def State.lemb (ring : Cell) (i : Nat) (s : State) : State :=
  let k := ring.toNat
  let r := s.fb.rings.get k
  match (if 15 < k then none else r.oldest) with
  | none => s.refuseLog i 8
  | some w =>
    let l := s.hs.slots.get i
    let room := 3 * (w.d + r.post.toNat + 47)
    let size := if w.complete then 3 * (w.d + w.postw + 12 * b2n r.crec) else room
    if w.copying then s.refuseLog i 9
    else if 8 ≤ (l.segs.filter (fun g => g.copy.isSome)).length then s.refuseLog i 0xA
    else if 261120 < l.size + size then s.refuseLog i 6
    else if !s.canReserve i room then s.refuseLog i 2
    else
      let n := l.segs.length
      (s.addSeg i { copy := some { ring := k, half := w.half, crec := r.crec }, resv := room, most := size }).modFb (fun f =>
        { f with rings := f.rings.modify k (fun q => { q with wins := q.wins.map (fun x => if x = w then { x with copy := .inflight i n } else x) }),
                 copies := f.copies ++ [{ slot := i, ring := k, seg := n }] })

/-- LEMB ( ring h -- ), R216, R235. -/
def execLemb (c : CoreId) (t : ThId) (s : State) : Answer :=
  let u := s.th c t
  .next (issue c t
    { word := opW 0x72, need := 2, noLock := true, waits := s.fb.hearth.training,
      effect := fun r => (r.onLog c (u.top 0) (State.lemb (u.top 1))).modTh c t (fun v => v.popPush 2 []) } s)

/-- LCOMMIT ( h -- ): the log is COMMITTING, and goes to the Damper once its segments are complete (R236). -/
def execLcommit (c : CoreId) (t : ThId) (s : State) : Answer :=
  let u := s.th c t
  .next (issue c t
    { word := opW 0x73, need := 1, noLock := true, waits := s.fb.hearth.training,
      effect := fun r =>
        (r.onLog c (u.top 0) (fun i q => (q.modSlot i (fun l => { l with state := .committing })).logReady i)).modTh c t
          (fun v => v.popPush 1 []) } s)

/-- LDROP ( h -- ), R219, R236. -/
def execLdrop (c : CoreId) (t : ThId) (s : State) : Answer :=
  let u := s.th c t
  .next (issue c t
    { word := opW 0x74, need := 1, noLock := true, waits := s.fb.hearth.training,
      effect := fun r =>
        (r.onLog c (u.top 0) (fun i q => q.dropLog i)).modTh c t (fun v => v.popPush 1 []) } s)

/-- The code of a log's state (Table 9.6). -/
def LState.num : LState → Nat
  | .invalid => 0 | .open_ => 1 | .committing => 2 | .admitted => 3 | .durable => 4 | .dropped => 5

/-- What LSTAT returns of a log (Table 9.6). -/
def LogSlot.stat (l : LogSlot) : Cell :=
  let adm := l.state = .admitted || l.state = .durable
  BitVec.ofNat 24 (l.state.num + 16 * l.last.toNat + 256 * b2n (l.segs.any (fun g => !g.fin)) +
    512 * b2n (adm && l.denied) + 1024 * b2n l.sealed + (if adm then 4096 * (l.seq.toNat % 4096) else 0))

/-- LSTAT ( h -- x ): the state of the log; LAST is cleared (R238). While the hearth link is down the answer is INVALID
with LAST = VAULT, and for an invalid handle INVALID with LAST = BADH (log entry 33). -/
def execLstat (c : CoreId) (t : ThId) (s : State) : Answer :=
  let u := s.th c t
  .next (issue c t
    { word := opW 0x75, need := 1, noLock := true, waits := s.fb.hearth.training,
      effect := fun r =>
        let (q, x) : State × Cell :=
          match r.handle c (u.top 0) with
          | none => (r.modCnt c (fun n => { n with logBadh := satInc n.logBadh }), 0x40)
          | some i =>
            if r.fb.hearth.down then (r, 0xB0)
            else (r.modSlot i (fun l => { l with last := 0 }), (r.hs.slots.get i).stat)
        q.modTh c t (fun v => v.popPush 1 [x]) } s)

/-- ETRIG ( ring -- ), R205. It takes no memory slot (log entry 103). -/
def execEtrig (c : CoreId) (t : ThId) (s : State) : Answer :=
  let u := s.th c t
  .next (issue c t
    { word := opW 0x76, need := 1, noLock := true,
      effect := fun r =>
        let k := (u.top 0).toNat
        (if 15 < k || !(r.fb.rings.get k).trigsel.getLsbD 28 then
          r.modCnt c (fun n => { n with etrigIgn := satInc n.etrigIgn })
        else r.trigger k (r.mirTrig 28)).modTh c t (fun v => v.popPush 1 []) } s)

/-- APPEND_COMPLETE: the oldest append of a log that is still reading has read its cells, once no line of theirs is locked by
another core (R113, R234, R236). -/
def execAppendComplete (slot : BitVec 6) (s : State) : Answer :=
  .next (
    let i := slot.toNat
    let l := s.hs.slots.get i
    let ok (g : Seg) : Bool := g.copy.isNone && !g.fin
    match firstIdx (fun k => ok (l.segs.getD k {})) l.segs.length with
    | none => s
    | some k =>
      let g := l.segs.getD k {}
      if !(l.state = .open_ || l.state = .committing) || !s.hearthUp || !drained (s.core l.core).sb g.upto ||
          s.linesHeld l.core g.a.toNat g.n then s
      else
        let cs := s.cellsMem l.core g.a.toNat g.n
        (s.modSlot i (fun l => { l with segs := l.segs.set k { g with cells := cs, fin := true } })).logReady i)

end Sys2Proof.Machine
end

