-- ==== Sys2Proof/Machine/Capture.lean ====
section
/-! DEFINITION. The capture channels, the trigger sources and the copies of windows into logs (sections 8.1 to 8.7). A
scheduled instant is taken at its command's word (log entry 34). -/

namespace Sys2Proof.Machine

/-- A sample is lost: counted, and the channel's next entry carries G (R195). -/
def State.loseSample (s : State) (ch : Nat) : State :=
  s.modCap (fun c => { c with lost := c.lost.modify ch satInc, gap := setBit c.gap ch true })

/-- The stream buffer of a channel is full (R195). Its size, of at least one entry, is an implementation's
(log entry 44). -/
def Capture.streamFull (c : Capture) (ch : Nat) : Bool :=
  !decide ((c.stream.filter (fun e => e.ch = ch)).length < Config.streamDepth ch + 1)

/-- A sample leaves for the ring engine with its channel's G, or is lost because the pilot link carries nothing or the
channel's stream buffer is full (R195, R196). -/
def State.stream (s : State) (ch : Nat) (q : Bool) (cells : List (BitVec 16)) : State :=
  if !s.plinkUp || s.pil.cap.streamFull ch then s.loseSample ch
  else
    s.modCap (fun c => { c with stream := c.stream ++ [{ ch := ch, g := c.gap.getLsbD ch, q := q, cells := cells }],
                                gap := setBit c.gap ch false })

/-- Source `k` fires in this PLCLK sample (R206): a pulse on the wire of each group that selects it, with a record of
the lowest code that fires in the sample. -/
def State.fire (s : State) (k : Nat) : State :=
  let p := s.pil.ph
  (List.range 16).foldl (fun (q : State) i =>
    if !(q.fb.rings.get i).trigsel.getLsbD k then q
    else
      let here (x : Pulse) : Bool := x.ring = i && x.at_ = p.clk
      let low (x : Pulse) : Pulse := if here x then { x with src := min x.src k } else x
      if q.pil.cap.recs.any here || q.pil.cap.pulses.any here then
        q.modCap (fun c => { c with recs := c.recs.map low, pulses := c.pulses.map low })
      else
        q.modCap (fun c =>
          let x : Pulse := { id := c.pulseNext, at_ := p.clk, ring := i, src := k, tick := p.tick, course := p.course, crank := p.crank }
          { c with pulses := c.pulses ++ [x], recs := c.recs ++ [x], pulseNext := c.pulseNext + 1 })) s

/-- A 16-bit sample read as its channel's SIGNED says, and a limit likewise (R203). -/
def sampleInt (sg : Bool) (x : BitVec 16) : Int := if sg then x.toInt else (x.toNat : Int)

/-- Threshold comparator `j` judges a sample of channel `ch` (R203). -/
def State.judge (s : State) (ch : Nat) (x : BitVec 16) (j : Nat) : State :=
  let c := s.pil.cap
  let o : Obj := .th j
  if c.objField o 0 0 1 = 0 ∨ c.objField o 0 1 5 ≠ ch then s
  else
    let sg := (c.objCell (.channel ch) 0).getLsbD 1
    let v := sampleInt sg x
    let above := decide (sampleInt sg ((c.objCell o 1).setWidth 16) < v)
    let below := decide (v < sampleInt sg ((c.objCell o 2).setWidth 16))
    let m := c.objField o 0 6 2
    let meets := if m = 0 then above else if m = 1 then below else above || below
    let out := c.thOut.getLsbD j
    if meets = out then s.modCap (fun c => { c with thCnt := c.thCnt.set j 0 })
    else
      let n := c.thCnt.get j + 1
      if n < c.objField o 0 8 4 + 1 then s.modCap (fun c => { c with thCnt := c.thCnt.set j n })
      else
        let s1 := (s.modCap (fun c => { c with thOut := setBit c.thOut j meets, thCnt := c.thCnt.set j 0 })).putEv (0x10C4 + j) meets
        if meets then s1.fire (4 + j) else s1

/-- A sample of channel `ch` is judged by the threshold comparators and streamed (R195, R203). -/
def State.sampled (s : State) (ch : Nat) (q : Bool) (x : BitVec 16) : State :=
  ((List.range 16).foldl (fun (r : State) j => r.judge ch x j) s).stream ch q [x]

/-- An item with its PLCLK cycle enters a queue in the order of cycles, then of numbers (R191, R192). -/
def queueIn (x : Nat × Nat) : List (Nat × Nat) → List (Nat × Nat)
  | [] => [x]
  | y :: r => if x.2 = y.2 ∧ x.1 < y.1 then x :: y :: r else y :: queueIn x r

/-- HOLD_SENSE is sampled every 10 µs from the first PLCLK edge after PLCLK starts (R191). -/
def State.holdGrid (s : State) : State :=
  if (s.pil.ph.clk - s.pil.dmp.grid) % 1000 = 0 then s.modCap (fun c => { c with adcq := queueIn (0, s.pil.ph.clk) c.adcq })
  else s

/-- A discrete channel writes an entry of the present levels (R194, Table 8.1). -/
def State.discEntry (s : State) (ch : Nat) : State := s.stream ch false [s.discLevels.setWidth 16]

/-- A bit under a channel's MASK has changed since it saw the levels last (R194). -/
def State.discMoved (s : State) (ch : Nat) : Bool :=
  let c := s.pil.cap
  ((s.discLevels ^^^ c.discLast.get (ch - 34)) &&& (c.objCell (.channel ch) 1).setWidth 12) != 0
/-- A channel's last entry is 1 µs old (R194). -/
def State.discFree (s : State) (ch : Nat) : Bool :=
  match s.pil.cap.discAt.get (ch - 34) with | some t => decide (t + 100 ≤ s.pil.ph.clk) | none => true

/-- A discrete channel in CHANGE mode sees the levels (R194): a change under its MASK is written as soon as its last entry
is 1 µs old, with the levels of that time (DEDUCED, log entry 107). -/
def State.discSee (s : State) (ch : Nat) : State :=
  let k := ch - 34
  let pend := s.pil.cap.discPend.getLsbD k || s.discMoved ch
  let now := pend && s.discFree ch
  let s1 := s.modCap (fun c =>
    { c with discLast := c.discLast.set k s.discLevels, discPend := setBit c.discPend k (pend && !now),
             discAt := if now then c.discAt.set k (some s.pil.ph.clk) else c.discAt })
  if now then s1.discEntry ch else s1

/-- Every discrete channel in CHANGE mode sees the levels. -/
def State.discWatch (s : State) : State :=
  (List.range 14).foldl (fun (q : State) k => if q.pil.cap.changes (34 + k) then q.discSee (34 + k) else q) s

/-- CHANNEL_SAMPLE: the sampling instant of an enabled periodic channel (R190 to R192, Table 8.1). -/
def execChannelSample (ch : BitVec 6) (s : State) : Answer :=
  .next (
    let n := ch.toNat
    let c := s.pil.cap
    if !s.plclk || decide (47 < n) || !c.chanEn n then s
    else if n < 8 then s.modCap (fun c => { c with adcq := queueIn (n + 1, s.pil.ph.clk) c.adcq })
    else if n < 32 then
      let m := (n - 8) / 6
      let k := (n - 8) % 6
      if !s.pw.vddioB then s.loseSample n
      else
        let s1 := if (c.spiDue.get m).any (fun x => x.1 = k) then s.loseSample n else s
        s1.modCap (fun c => { c with spiDue := c.spiDue.modify m (fun l => queueIn (k, s.pil.ph.clk) (l.filter (fun x => x.1 ≠ k))) })
    else if n < 34 then s
    else if (c.objCell (.channel n) 0).getLsbD 2 then s
    else s.discEntry n)

/-- ADC_CONVERSION_DONE: the converter ends the conversion of the oldest instant, where that is one of channels 0 to 7
(R191, R196). -/
def execAdcConversionDone (code : BitVec 16) (s : State) : Answer :=
  .next (match s.pil.cap.adcq with
    | (n + 1, _) :: r =>
      if !s.plclk then s
      else (s.modCap (fun c => { c with adcq := r })).sampled n (code = 0 || code = 0xFFFF) code
    | _ => s)

/-- The bytes that a slot sends: TXLEN bytes of TXDATA, byte 0 first, then 0x00 up to LEN (R192, Table 18.15). -/
def Capture.spiBytes (c : Capture) (slot : Nat) : List Byte :=
  let o : Obj := .spi slot
  let tx : BitVec 32 := (c.objCell o 2).setWidth 8 ++ c.objCell o 1
  (List.range (c.objField o 0 12 3)).map (fun k => if k < c.objField o 0 15 3 then (tx >>> (8 * k)).setWidth 8 else 0)

/-- SPI_TRANSACTION: an idle master starts the slot that is due (R192); its mode decides the level at which SCLK idles
(Table 17.3, log entry 95). -/
def execSpiTransaction (m : BitVec 2) (s : State) : Answer :=
  .next (match s.pil.cap.spiRun.get m.toNat, s.pil.cap.spiDue.get m.toNat with
    | none, x :: r =>
      if !s.plclk then s
      else s.modCap (fun c =>
        { c with spiRun := c.spiRun.set m.toNat (some x.1), spiDue := c.spiDue.set m.toNat r,
                 spiTx := c.spiTx.set m.toNat (c.spiBytes (6 * m.toNat + x.1)),
                 sclkIdle := setBit c.sclkIdle m.toNat ((c.objCell (.spi (6 * m.toNat + x.1)) 0).getLsbD 4) })
    | _, _ => s)

/-- The received bits outside the sample, the first in bit 0 (R192, Table 18.15). Bit 47 of `rx` is the first received. -/
def spiStatus (rx : BitVec 48) (len ofs : Nat) : BitVec 32 :=
  let ks := (List.range (8 * len)).filter (fun k => !(decide (ofs ≤ k) && decide (k < ofs + 16)))
  BitVec.ofFnLE (fun j : Fin 32 => match ks[j.val]? with | some k => rx.getLsbD (47 - k) | none => false)

/-- The boundary register, or HIGHZ, has the output pins (R405). -/
def Tap.scanning (t : Tap) : Bool := t.ir = .extest || t.ir = .clamp || t.ir = .highz

/-- SPI_TRANSACTION_DONE: chip select is released; the sample is judged and streamed if its slot is still enabled (R192,
R203). While a scan instruction has the pins, it is lost (R405). -/
def execSpiTransactionDone (m : BitVec 2) (rx : BitVec 48) (s : State) : Answer :=
  .next (match s.pil.cap.spiRun.get m.toNat with
    | none => s
    | some k =>
      if !s.plclk then s
      else
        let slot := 6 * m.toNat + k
        let o : Obj := .spi slot
        let c := s.pil.cap
        let s1 := s.modCap (fun c => { c with spiRun := c.spiRun.set m.toNat none })
        if !c.chanEn (8 + slot) then s1
        else if s.pil.tap.scanning then s1.loseSample (8 + slot)
        else
          let ofs := c.objField o 0 18 6
          let st := spiStatus rx (c.objField o 0 12 3) ofs
          let mask : BitVec 32 := ((c.objCell o 4).setWidth 8 ++ c.objCell o 3)
          let val : BitVec 32 := ((c.objCell o 6).setWidth 8 ++ c.objCell o 5)
          s1.sampled (8 + slot) (st &&& mask != val) (BitVec.ofNat 16 (rx.toNat / 2 ^ (32 - ofs))))

/-- The Ember content of a CAN frame entry (R197, Table 8.5). -/
def canCells (f : CanFrame) : List (BitVec 16) :=
  let d := f.data.take 64
  let pairs := (List.range ((d.length + 1) / 2)).map (fun k =>
    BitVec.ofNat 16 ((d.getD (2 * k) 0).toNat + 256 * (d.getD (2 * k + 1) 0).toNat))
  let id := if f.ide then f.id.toNat else f.id.toNat % 2048
  [BitVec.ofNat 16 (0x1000 + 3 + pairs.length),
   BitVec.ofNat 16 (32768 * b2n f.brs + 16384 * b2n f.fdf + 8192 * b2n f.ide + id / 65536), BitVec.ofNat 16 id,
   BitVec.ofNat 16 (f.dlc.toNat + 16 * b2n f.esi + 32 * b2n f.rtr)] ++ pairs

/-- A frame's identifier as filters compare it. -/
def canIdent (f : CanFrame) : BitVec 29 := if f.ide then f.id else (f.id &&& 0x7FF)
/-- An IDE setting admits a frame's format: 0 STANDARD, 1 EXTENDED, 2 BOTH. -/
def ideFits (ide : Nat) (f : CanFrame) : Bool := ide = 2 || decide (ide = b2n f.ide)
/-- A 29-bit field in two cells of an object. -/
def Capture.id29 (c : Capture) (o : Obj) (k : Nat) : BitVec 29 := ((c.objCell o (k + 1)).setWidth 5 ++ c.objCell o k)

/-- CAN filter `j` fires on a frame of input `i` (R204). -/
def Capture.canHit (c : Capture) (i : Nat) (f : CanFrame) (j : Nat) : Bool :=
  let o : Obj := .cf j
  let inp := c.objField o 0 1 2
  c.objField o 0 0 1 = 1 && (inp = 2 || inp = i) && ideFits (c.objField o 0 3 2) f &&
  ((c.id29 o 1 ^^^ canIdent f) &&& c.id29 o 3) == 0 &&
  (match f.data with
    | [] => c.objField o 0 13 8 = 0
    | b :: _ => ((BitVec.ofNat 8 (c.objField o 0 5 8) ^^^ b) &&& BitVec.ofNat 8 (c.objField o 0 13 8)) == 0)

/-- A frame passes the store filter of input `i` (R193). -/
def Capture.canStored (c : Capture) (i : Nat) (f : CanFrame) : Bool :=
  let o : Obj := .can i
  ideFits (c.objField o 2 4 2) f && ((c.id29 o 3 ^^^ canIdent f) &&& c.id29 o 5) == 0

/-- CAN_FRAME: a frame at its validity point, or one that fails a check of the standard (R193, R204). -/
def execCanFrame (i : BitVec 1) (f : CanFrame) (valid : Bool) (s : State) : Answer :=
  .next (
    let n := i.toNat
    if !s.plclk || !s.pw.vddioA then s
    else if !valid then s.modCap (fun c => { c with canErr := c.canErr.modify n satInc })
    else
      let s1 := (List.range 8).foldl (fun (q : State) j => if q.pil.cap.canHit n f j then q.fire (20 + j) else q) s
      if s.pil.cap.chanEn (32 + n) && s.pil.cap.canStored n f then s1.stream (32 + n) f.esi (canCells f) else s1)

/-- DISCRETE_CHANGE: the GPIO pins take levels, and the discrete channels in CHANGE mode see them (R194). -/
def execDiscreteChange (gpio : BitVec 8) (s : State) : Answer :=
  .next (if !s.plclk then s
    else (if s.pw.vddioB then s.modCap (fun c => { c with gpioIn := gpio }) else s).discWatch)

/-- EMBER_ENTRY_WRITE: the oldest sample under way reaches the ring engine (R200). -/
def execEmberEntryWrite (s : State) : Answer :=
  .next (match s.pil.cap.stream with
    | [] => s
    | e :: r =>
      if !s.plinkUp then s
      else
        let s1 := s.modCap (fun c => { c with stream := r })
        if s.fireOn then (List.range 16).foldl (fun (q : State) i => q.ringEntry i e) s1 else s1)

/-- The filter of TRIG pin `n` (R202): the filtered level takes the pin's level that every sample for FILT has shown; a
change that matches EDGE is a trigger while EN = 1 (R213). -/
def State.trigFilter (s : State) (n : Nat) : State :=
  let c := s.pil.cap
  let level := c.trigPin.getLsbD n
  if c.trigLev.getLsbD n = level || decide (s.pil.ph.clk < c.trigAt.get n + c.objField (.trig n) 0 3 7) then s
  else
    let s1 := (s.modCap (fun c => { c with trigLev := setBit c.trigLev n level })).putEv (0x10C0 + n) level
    if c.objField (.trig n) 0 0 1 = 1 && isTooth (c.objField (.trig n) 0 1 2) level then s1.fire n else s1

/-- The pin of a TRIG input shows a level in the present PLCLK sample (R202). -/
def Capture.trigSample (c : Capture) (n : Nat) (level : Bool) (clk : Nat) : Capture :=
  if c.trigPin.getLsbD n = level then c else { c with trigPin := setBit c.trigPin n level, trigAt := c.trigAt.set n clk }

/-- TRIG_EDGE: a TRIG pin shows a level, and its filter judges it (R202). While PLCLK is stopped outside standby, the
pin alone changes. -/
def execTrigEdge (p : BitVec 2) (level : Bool) (s : State) : Answer :=
  .next (if !s.pw.vddioA || s.pw.life = .standby then s
    else
      let s1 := s.modCap (fun c => c.trigSample p.toNat level s.pil.ph.clk)
      if s.plclk then (s1.trigFilter p.toNat).discWatch else s1)

/-- A PLCLK cycle of the capture side: the filters, the discrete channels, the grid of HOLD_SENSE (R191, R194, R202). -/
def State.captureCycle (s : State) : State :=
  (((List.range 4).foldl (fun (q : State) n => q.trigFilter n) s).discWatch).holdGrid

/-- TRIGGER_PULSE: the oldest sideband pulses reach the engine; those of one PLCLK sample act together (R206, R207,
R213). -/
def execTriggerPulse (s : State) : Answer :=
  .next (match s.pil.cap.pulses with
    | [] => s
    | x :: _ =>
      let now := s.pil.cap.pulses.filter (fun y => y.at_ = x.at_)
      let s1 := s.modCap (fun c => { c with pulses := c.pulses.filter (fun y => y.at_ ≠ x.at_) })
      if !s.fireOn then s1
      else now.foldl (fun (q : State) y =>
        q.trigger y.ring (if q.fb.plink.down then q.mirTrig 0x1F else { q.mirTrig y.src with wait := some y.id })) s1)

/-- TRIGGER_RECORD: the oldest record whose pulse has arrived comes over the pilot link (R206, R213). -/
def execTriggerRecord (s : State) : Answer :=
  .next (match s.pil.cap.recs with
    | [] => s
    | x :: r =>
      if !s.plinkUp || s.pil.cap.pulses.any (fun y => y.id = x.id) then s
      else
        let s1 := s.modCap (fun c => { c with recs := r })
        if s.fireOn then
          s1.record x.ring x.id { src := x.src, tick := x.tick, course := x.course, crank := x.crank } false
        else s1)

/-- The window that copy `k` copies. -/
def State.copyWin (s : State) (k : Copy) : Option Win :=
  (s.fb.rings.get k.ring).wins.find? (fun w => w.copy = .inflight k.slot k.seg)

/-- The cells of a window written so far. -/
def Win.have_ (w : Win) : Nat := w.d + w.postw

/-- Cell `k` of a window, in ring order from its start (R217). -/
def Win.cell (w : Win) (m : Mem 24) (k : Nat) : Cell := memRead m (w.lo + (w.fp + w.size - w.d % w.size + k) % w.size)

/-- The cells that copy `k` has to send now (R217). -/
def State.copyRoom (s : State) (k : Copy) : Nat := match s.copyWin k with | some w => w.have_ - k.sent | none => 0

/-- COPY_BURST: of the copies that have cells to send, the one whose turn it is sends up to 64, and its next turn comes
after the others', which began in the order of the list (R217; DEDUCED, log entry 107). -/
def execCopyBurst (s : State) : Answer :=
  .next (match s.fb.copies.find? (fun k => decide (0 < s.copyRoom k)) with
    | none => s
    | some k =>
      match s.copyWin k with
      | none => s
      | some w =>
        if !s.hearthUp || !s.fireOn then s
        else
          let n := min 64 (s.copyRoom k)
          let cs := (List.range n).map (fun j => w.cell s.fb.ember (k.sent + j))
          (s.modFb (fun f => { f with copies := f.copies.erase k ++ [{ k with sent := k.sent + n }] })).modSlot k.slot
            (fun l => { l with segs := l.segs.modify k.seg (fun g => { g with cells := g.cells ++ cs }) }))

/-- The capture record of a window (Table 8.9). -/
def Win.capRec (w : Win) (ring : Nat) (missed : Nat) : List Cell :=
  [BitVec.ofNat 24 (w.src % 32 + 32 * ring + 512 * b2n w.half + 1024 * b2n w.shortPre + 2048 * b2n w.trunc),
   BitVec.ofNat 24 w.d, BitVec.ofNat 24 w.postw, loCell w.tick, hiCell w.tick, loCell w.course, hiCell w.course,
   loCell w.crank, hiCell w.crank, BitVec.ofNat 24 missed, 0, 0]

/-- The count and the list of missed triggers that a completed copy of window `w` attaches (R211, R218, R222). -/
def EmRing.missesOf (r : EmRing) (w : Win) : BitVec 16 × List Missed :=
  match w.old with | some o => (o.missed, o.list) | none => (r.missed, r.mlist)

/-- A ring whose copied window `w` is released with its missed triggers taken (R211, R218, R222). -/
def EmRing.copied (r : EmRing) (w : Win) : EmRing :=
  match w.old with
  | some o =>
    { r with wins := (r.wins.erase w).map (fun x =>
        match x.old with
        | some y => if y.gen = o.gen then { x with old := some { y with missed := 0, list := [] } } else x
        | none => x) }
  | none =>
    let q := { r with wins := r.wins.erase w, missed := 0, mlist := [],
                      waitMiss := if w.dead then r.waitMiss else r.waitMiss ++ r.mlist.filterMap (fun (m : Missed) => m.wait) }
    if w.dead then q.cleanup else q.freeHalf w.half

/-- COPY_COMPLETE: a copy whose window is complete and sent ends: its flags and the missed triggers go to the log, and
the window is released (R211, R217, R218). -/
def execCopyComplete (slot : BitVec 6) (s : State) : Answer :=
  .next (
    let i := slot.toNat
    let ended (k : Copy) : Bool := match s.copyWin k with | some w => w.complete && decide (w.have_ ≤ k.sent) | none => false
    match s.fb.copies.find? (fun k => k.slot = i && ended k) with
    | none => s
    | some k =>
      match s.copyWin k with
      | none => s
      | some w =>
        if !s.hearthUp || !s.fireOn then s
        else
          let r := s.fb.rings.get k.ring
          let miss := r.missesOf w
          let list := miss.2.map (fun m => if m.wait.isSome then (0x1F, (0 : Dbl)) else (m.src, m.tick))
          let fin (g : Seg) : Seg :=
            match g.copy with
            | some c =>
              { g with fin := true,
                       cells := (if c.crec then w.capRec k.ring miss.1.toNat else []) ++ g.cells,
                       copy := some { c with shortPre := w.shortPre, trunc := w.trunc, missed := miss.1.toNat, list := list } }
            | none => g
          let s1 := s.modFb (fun f => { f with copies := f.copies.filter (fun x => x ≠ k),
                                               rings := f.rings.modify k.ring (fun q => q.copied w) })
          ((s1.modSlot i (fun l => { l with segs := l.segs.modify k.seg fin })).logReady i).emberOffRuns)

end Sys2Proof.Machine
end

