-- ==== Sys2Proof/Machine/Damper.lean ====
section
/-! DEFINITION. The Damper (section 10.7): HOLD_SENSE, the measurement, the judging of waiting requests; the start of
the creation of the HSS key pair at the first admission (R370). -/

namespace Sys2Proof.Machine

/-- The capacitor voltage in millivolts that a HOLD_SENSE code shows (R276). -/
def HoldUp.mv (h : HoldUp) (code : Nat) : Nat := code * h.scale / 1000
/-- The odometer reserve in credits (Table 10.3). -/
def HoldUp.reserve (h : HoldUp) : Nat := if h.odoRes = 0 then 400 else h.odoRes
/-- The energy in credits between a voltage and HU_VMIN (R276). -/
def HoldUp.credits (h : HoldUp) (c v : Nat) : Nat :=
  if v ≤ h.vmin then 0 else c * (v * v - h.vmin * h.vmin) * h.eff / (2000000 * 256)

/-- A measurement (R276). -/
def Damper.measure (d : Damper) : Damper :=
  let v := match d.codes with
    | [] => 0
    | x :: r => d.hu.mv (r.foldl (fun m y => min m y.toNat) x.toNat)
  let c := match d.cBist with | some b => min d.hu.c b | none => d.hu.c
  { d with v := v, cUsed := c, avail := d.hu.credits c v, reserve := d.hu.reserve }

/-- A HOLD_SENSE conversion joins the last five; the warning comparator is armed by the first one above HU_VFAIL after a
WARM or COLD start (R276, R379). -/
def Damper.conversion (d : Damper) (code : BitVec 16) : Damper :=
  { d with codes := (code :: d.codes).take 5, armed := d.armed || (d.huValid && decide (d.hu.vfail < d.hu.mv code.toNat)) }

/-- One point more of a least-squares fit: `x` in 10 µs, `y` in microvolts (R399). -/
def Fit.add (f : Fit) (x y : Nat) : Fit := { n := f.n + 1, sx := f.sx + x, sy := f.sy + y, sxx := f.sxx + x * x, sxy := f.sxy + x * y }

/-- BIST item 21 fits the conversions of the instants from 2.5 to 22.5 ms and from 25 to 45 ms (R399). -/
def Bist.conversion (b : Bist) (scale at_ : Nat) (code : BitVec 16) : Bist :=
  let x := at_ - b.start
  let y := code.toNat * scale
  if b.items.head? ≠ some 21 ∨ at_ < b.start then b
  else if 250000 ≤ x ∧ x < 2250000 then { b with fitA := b.fitA.add (x / 1000) y }
  else if 2500000 ≤ x ∧ x < 4500000 then { b with fitB := b.fitB.add (x / 1000) y }
  else b

/-- HOLD_SENSE_CONVERSION: the converter ends the conversion of the oldest instant, where that is one of HOLD_SENSE
(R191, R276, R379, R399). -/
def execHoldSenseConversion (code : BitVec 16) (s : State) : Answer :=
  .next (match s.pil.cap.adcq with
    | (0, t) :: r =>
      if !s.plclk then s
      else
        let s1 := (s.modCap (fun c => { c with adcq := r })).modDmp (fun d => d.conversion code)
        { s1 with bist := s1.bist.conversion s.pil.dmp.hu.scale t code }
    | _ => s)

/-- The live-record limit of the journal (R266, R273). -/
def Vault.jLimit (v : Vault) : Nat := 960 - 32 * (v.badIn .journal).length

/-- The vault controller requests admission and the Damper may grant it (R242, R266, R267, R274, R368, R379, R430), a
power-fail warning apart. -/
def State.vaultTakes (s : State) : Bool :=
  let d := s.pil.dmp
  s.vaultOn && !s.pw.hostWait && !(s.life = 4 || s.life = 7) && d.huValid && d.hu.c ≠ 0 && d.armed && s.plinkUp &&
  s.hearthUp && !s.hs.vault.fault &&
  decide (s.hs.se.waiting.length < 1024) && decide (s.liveJ < s.hs.vault.jLimit)
/-- Normal admission goes on (R281). -/
def State.mayAdmit (s : State) : Bool := s.vaultTakes && !s.pil.dmp.pfWarn

/-- The REASON 5 checkpoint is judged when it arrives, against the last measurement and the whole of AVAIL (R279). -/
def State.judgeLast (s : State) : State :=
  let d := s.pil.dmp
  match s.hs.vault.wait with
  | c :: _ => if s.vaultTakes && decide (d.rsv + c.cost ≤ d.avail) then s.takeIn c else s
  | [] => s

/-- The lines, journal lines included, of the PROTECTED-class writes admitted and not durable (R263). -/
def Vault.protOut (v : Vault) : Nat := ((v.adm.filter (fun c => c.cls = .prot)).map (fun c => c.lines + 2)).sum

/-- The Damper judges the requests of one class in request order (R263, R278). The Boolean says that judging stops. A
PROTECTED write that R263 holds back has not been requested, and the writes behind it in its class wait with it; one of more
than 3,072 lines goes alone (DEDUCED, log entry 90). -/
def State.judgeClass : List Commit → State → State × Bool
  | [], s => (s, false)
  | c :: r, s =>
    let d := s.pil.dmp
    if c.cls = .prot ∧ 0 < s.hs.vault.protOut ∧ 3072 < s.hs.vault.protOut + c.lines + 2 then (s, false)
    else if !s.mayAdmit || decide (d.avail < d.rsv + c.cost + d.reserve) then (s, true)
    else (s.takeIn c).judgeClass r

/-- The waiting requests of a class. -/
def Vault.waiting (v : Vault) (k : WClass) : List Commit := v.wait.filter (fun c => c.cls = k)

/-- The judging of one measurement (R278). -/
def State.judgeAll (s : State) : State :=
  let a := s.judgeClass (s.hs.vault.waiting .system)
  if a.2 then a.1
  else
    let b := a.1.judgeClass (a.1.hs.vault.waiting .prot)
    if b.2 then b.1 else (b.1.judgeClass (b.1.hs.vault.waiting .rolling)).1

/-- A 256-bit output of the TRNG: 400 noise bits conditioned with SHA-256 (R374). -/
def trngEntry (n : Nat) : List Byte := sha256 ((List.range 50).map (Config.noise n))
/-- The next `n` bytes of the TRNG's output: whole entries of the FIFO, and further ones as they are conditioned (R374). -/
def State.trngBytes (s : State) (n : Nat) : List Byte :=
  let m := (n + 31) / 32
  let f := s.hs.trng.fifo
  ((f ++ (List.range (m - f.length)).map (fun i => trngEntry (s.free + i))).take m).flatten.take n
/-- The state once those bytes have been taken. -/
def State.trngTaken (s : State) (n : Nat) : State :=
  let m := (n + 31) / 32
  { s.modHs (fun h => { h with trng := { h.trng with fifo := h.trng.fifo.drop m } }) with free := s.free + (m - s.hs.trng.fifo.length) }
/-- One more entry enters the FIFO of 16 (R374). -/
def State.trngFill (s : State) : State :=
  let t := s.hs.trng
  if t.started && !t.latched && decide (t.fifo.length < 16) then
    s.draw.modHs (fun h => { h with trng := { h.trng with fifo := h.trng.fifo ++ [trngEntry s.free] } })
  else s
/-- The TRNG delivers output. -/
def State.trngOk (s : State) : Bool := s.hs.trng.started && !s.hs.trng.latched

/-- The seed and identifier of bottom tree `j` from its chain key, and the next chain key (R251). -/
def ckSeed (ck : List Byte) (j : Nat) : List Byte := hmac ck (0x01 :: leBytes 4 j)
def ckI (ck : List Byte) (j : Nat) : List Byte := (hmac ck (0x02 :: leBytes 4 j)).take 16
def ckNext (ck : List Byte) (j : Nat) : List Byte := hmac ck (0x03 :: leBytes 4 (j + 1))

/-- The creation of the HSS key pair starts (R370): 640 bits are drawn; tree 0 is the current tree and tree 1 the next
(R251). -/
def State.startKeys (s : State) : State :=
  if s.life = 1 && !s.hs.se.keyDone && !s.hs.se.keyRun && s.trngOk then
    let b := s.trngBytes 80
    let ck := b.drop 48
    let ck1 := ckNext ck 0
    (s.trngTaken 80).modSeal (fun e =>
      { e with keyRun := true, w8 := (s.hs.otp.value 5 3).getLsbD 0, topSeed := b.take 32, topI := (b.drop 32).take 16,
               seed := ckSeed ck 0, i := ckI ck 0, ck := ck1, seedN := ckSeed ck1 1, iN := ckI ck1 1, built := 0 })
  else s

/-- DAMPER_MEASUREMENT: the measurement, while PLCLK runs, then the judging, until a power-fail warning (R276, R278,
R281). -/
def execDamperMeasurement (s : State) : Answer :=
  .next (if !s.plclk then s
    else if s.pil.dmp.pfWarn then (s.modDmp Damper.measure).modDmp (fun d => { d with rsvM := d.rsv })
    else
      let s1 := s.modDmp Damper.measure
      let s2 := s1.judgeAll
      let s3 := s2.modDmp (fun d => { d with rsvM := d.rsv })
      if s3.hs.vault.adm.length = s.hs.vault.adm.length then s3 else s3.startKeys)

end Sys2Proof.Machine
end

