-- ==== Sys2Proof/Machine/Challenge.lean ====
section
/-! DEFINITION. The debug challenge (section 13.6, R406): the nonce, the judgement of an answer, and the commands that
carry them over the rings. -/

namespace Sys2Proof.Machine

/-- HU_C is blank: no hold-up is provisioned (R371). -/
def Otp.huBlank (o : Otp) : Bool := fieldN (o.value 5 0) 0 16 = 0

/-- The header of a log that the device writes for a command or a judgement, with the values the Firebox holds
(R225, R226, log entry 36). -/
def State.devHdr (s : State) (cls : Nat) : Hdr := { s.openHdr 0 with cls := BitVec.ofNat 8 cls }
/-- A device log as a commit's content. -/
def State.devLog (s : State) (cls : Nat) (payload : List Byte) : CKind := .hw (s.devHdr cls) payload false

/-- The number of debug tries left as a result byte. -/
def State.triesByte (s : State) : Byte := BitVec.ofNat 8 s.triesLeft

/-- A CHALLENGE_GET of either transport is served (R371): the Flue's with its tag and DPTR. It waits for the TRNG's startup
test (R374). -/
def State.getNonce (s : State) (who : Option (Nat × BitVec 64)) : State :=
  let done (q : State) (st : Byte) : State :=
    match who with
    | some (t, _) => q.finish t st [q.triesByte]
    | none => { q with pil := { q.pil with tap := { q.pil.tap with chalStatus := st } } }
  let clear (q : State) : State := q.modHs (fun h => { h with chal := { h.chal with nonce := none } })
  if s.hs.otp.blank 4 16 8 then done s 0x12
  else if s.hs.otp.huBlank then done s 0x04
  else if s.hs.trng.latched then done (clear s) 0x1A
  else if !s.hs.trng.started then s.modHs (fun h => { h with chal := { h.chal with waitGet := h.chal.waitGet ++ [who.map (·.1)] } })
  else
    let n := s.trngBytes 32
    let s1 := (s.trngTaken 32).modHs (fun h => { h with chal := { h.chal with nonce := some n, at_ := s.pil.ph.tick } })
    match who with
    | some (t, p) => (s1.modFl (fun f => f.emit (.write p n))).finish t 0x00 [s1.triesByte]
    | none => done s1 0x00

/-- A CHALLENGE_GET waits while an answer is judged, else it is served (R371). `none` is the TAP's. -/
def State.askNonce (s : State) (who : Option (Nat × BitVec 64)) : State :=
  match s.hs.chal.judging with
  | some _ => s.modHs (fun h => { h with chal := { h.chal with waitGet := h.chal.waitGet ++ [who.map (·.1)] } })
  | none => s.getNonce who

/-- The requests that waited for a judgement are served in order. -/
def State.serveGets (s : State) : State :=
  let ws := s.hs.chal.waitGet
  ws.foldl (fun (q : State) w =>
    match w with
    | none => q.getNonce none
    | some t =>
      match q.run? t with
      | some r => q.getNonce (some (t, match r.kind with | .chalGet p => p | _ => 0))
      | none => q) (s.modHs (fun h => { h with chal := { h.chal with waitGet := [] } }))

/-- The status of an answer over its transport (R373, R406). -/
def State.chalReply (s : State) (tag : Option Nat) (st : Byte) : State :=
  match tag with
  | some t => s.finish t st [s.triesByte]
  | none => { s with pil := { s.pil with tap := { s.pil.tap with chalStatus := st } } }

/-- An answer is complete (R373 steps 1 to 3). -/
def State.answerIn (s : State) (bytes : List Byte) (tap : Bool) (tag : Option Nat) : State :=
  let c := s.hs.chal
  match (if c.judging.isSome then none else some c.nonce) with
  | none => s.chalReply tag 0x17
  | some none => s.chalReply tag 0x18
  | some (some n) =>
    if s.triesLeft = 0 then s.chalReply tag 0x19
    else
      (s.modHs (fun h => { h with chal := { h.chal with judging := some { bytes := bytes, nonce := n, tap := tap, tag := tag } } })).submit
        (.tries (lifeEpoch s.hs.otp.thermo) (s.triesLeft - 1))

/-- The rights that an answer may request (Table 15.5). -/
def rightsMask (life : Nat) : Nat := if life = 2 then 0x17 else if life = 3 then 0x1F else 0

/-- The structure of an answer (R372, R407). -/
def answerOk (b : List Byte) (life : Nat) : Bool :=
  let r := (b.getD 6 0).toNat
  decide (64 ≤ b.length) && b.take 4 == [0x4D, 0x58, 0x44, 0x41] && decide (b.length = 64 + leAt b 4 2) && b.getD 7 0 == 0 &&
  decide (r = r &&& rightsMask life)

/-- The message that an answer signs (R372). -/
def State.answerMsg (s : State) (nonce : List Byte) (rights : Byte) : List Byte :=
  nonce ++ s.hs.otp.deviceId ++ leBytes 4 (lifeEpoch s.hs.otp.thermo) ++ [BitVec.ofNat 8 s.life, rights] ++ List.replicate 10 0

/-- The verdict on an answer (R373 step 4). -/
def State.judgeAnswer (s : State) (nonce b : List Byte) : Byte :=
  let pub := bytesAt b 8 56
  if !answerOk b s.life then 0x10
  else if s.hs.otp.blank 4 16 8 || s.hs.otp.field 4 16 8 != sha256 pub then 0x12
  else if !lmsVerify pub (s.answerMsg nonce (b.getD 6 0)) (b.drop 64) then 0x13
  else 0x00

/-- CHALLENGE_JUDGE: the try is durable; the answer is checked and the DEBUG log written (R373 steps 4 and 5). -/
def execChallengeJudge (s : State) : Answer :=
  .next (match s.hs.chal.judging with
    | some j =>
      if !j.tryDone || j.verdict.isSome then s
      else
        let n := j.nonce
        let st := s.judgeAnswer n j.bytes
        let pay := [if st = 0 then 1 else 2, BitVec.ofNat 8 (b2n j.tap), s.triesByte, st, j.bytes.getD 6 0, 0, 0, 0] ++ n ++
          (if st = 0x10 then List.replicate 32 0 else sha256 (bytesAt j.bytes 8 56))
        (s.modHs (fun h => { h with chal := { h.chal with judging := some { j with verdict := some st } } })).submit
          (s.devLog 0x85 pay)
    | none => s)

/-- The DEBUG log of a judgement is durable (R373 steps 5 and 6): the nonce is consumed, a granted answer sets
DBG_UNLOCK, and the waiting requests follow. -/
def State.chalDone (s : State) : State :=
  match s.hs.chal.judging with
  | some j =>
    match j.verdict with
    | some st =>
      let ok := decide (st = 0)
      let s1 := s.modHs (fun h => { h with chal :=
        { h.chal with nonce := none, judging := none, unlocked := h.chal.unlocked || ok,
                      rightsGiven := if ok then j.bytes.getD 6 0 else h.chal.rightsGiven } })
      let s2 := if ok then { s1 with pil := { s1.pil with tap := { s1.pil.tap with rights := (j.bytes.getD 6 0).setWidth 5 } } } else s1
      ((s2.laneSync.chalReply j.tag st).serveGets)
    | none => s
  | none => s

/-- NONCE_EXPIRY: 2²⁶ ticks after it was drawn a nonce is no longer outstanding (R371). An answer that is being judged keeps
the nonce that it answered. -/
def execNonceExpiry (s : State) : Answer :=
  .next (if s.hs.chal.at_.toNat + 2 ^ 26 ≤ s.pil.ph.tick.toNat then
      s.modHs (fun h => { h with chal := { h.chal with nonce := none } })
    else s)

/-- CHALLENGE_GET over the hearth link (R371). -/
def State.chalGet (s : State) (d : Desc) (t : Nat) : State :=
  if s.fb.hearth.down then s.finish t 0x0E
  else (s.modRun t (fun x => { x with kind := .chalGet d.dptr })).askNonce (some (t, d.dptr))

/-- CHALLENGE_GET (R15, R352, R371, Table 12.3). -/
def execChallengeGet (sq : BitVec 4) (s : State) : Answer :=
  .next (command sq { op := 0x80, size := fun d => decide (32 ≤ d.dlen), states := [1, 2, 3] }
    (fun d t r => r.acrossLink .hearth d t [] (fun q => q.chalGet d t)) s)

/-- CHALLENGE_ANSWER over the hearth link, with its answer bytes (R372, R373). -/
def State.chalAnswer (s : State) (t : Nat) (b : List Byte) : State :=
  if s.vaultGone then s.finish t 0x0E
  else (s.modRun t (fun x => { x with kind := .challenge })).answerIn b false (some t)

/-- CHALLENGE_ANSWER (R15, R352, R372, R373, Table 12.3). `buf` is what the read of the buffer returned. -/
def execChallengeAnswer (sq : BitVec 4) (buf : Option (List Byte)) (s : State) : Answer :=
  .next (command sq { op := 0x81, reads := true, size := fun d => decide (0 < d.dlen), states := [1, 2, 3] }
    (fun d t r =>
      match buf with
      | none => r.finish t 0x06
      | some b =>
        if r.vaultGone then r.finish t 0x0E
        else r.acrossLink .hearth d t b (fun q => q.chalAnswer t (bytesAt b 0 d.dlen))) s)

end Sys2Proof.Machine
end

