-- ==== Sys2Proof/Machine/Durable.lean ====
section
/-! DEFINITION. What a commit does when its COMMIT record is durable (R265, R266 and the rule of each kind), the
protected release (R270, R349), and the steps of a command that writes the vault (R329). -/

namespace Sys2Proof.Machine

/-- The acknowledgement of a protected log is recorded: its SEQ is at or below the recorded P_MARK of an EQ that exported it
(R311). -/
def State.ackRecorded (s : State) (l : VLog) : Bool :=
  l.exps.any (fun n => match (s.hs.vault.marks.get n).p with | some p => decide (l.seq ≤ p) | none => false)

/-- The logs in PROTECTED that are not freed, oldest first. -/
def Vault.protLogs (v : Vault) : List VLog := v.logs.filter (fun l => l.part = .prot && decide (v.relBound ≤ l.start))

/-- The logs that a release up to SEQ `param` frees (R349). -/
def State.releasable (s : State) (param : Nat) : List VLog :=
  s.hs.vault.protLogs.takeWhile (fun l => l.durable && decide (l.seq ≤ param) && s.ackRecorded l)

/-- The release boundary once the logs with the SEQ values `freed` are freed: the first line after it holds a protected
log, or a seal record with a protected log that is not freed (R269, R270). -/
def Vault.boundary (v : Vault) (freed : List Nat) : Nat :=
  let stays := (v.protLogs.filter (fun l => !freed.contains l.seq))
  let seals := v.seals.filter (fun x => x.part = .prot && decide (v.relBound ≤ x.start) && decide (0 < x.lines) &&
    x.leaves.any (fun f => stays.any (fun l => l.seq = f.seq)))
  (stays.map (·.start) ++ seals.map (·.start)).foldl min v.hd.prot.off

/-- The offset in PROTECTED of the line at which a boundary stands: the first line of what is placed there, or the head. -/
def Vault.boundPos (v : Vault) (bound : Nat) : Nat :=
  let ls := (v.logs.filter (fun l => l.part = .prot && l.start = bound)).map (·.at_) ++
    (v.seals.filter (fun x => x.part = .prot && x.start = bound && decide (0 < x.lines))).map (·.at_)
  match ls.flatten with
  | l :: _ => l - partFirst .prot
  | [] => v.hd.prot.pos

/-- PROTECTED_RELEASE goes on once its acknowledgements are recorded: the SERVICE log, then the boundary record with the
token (R349, Table 12.9). -/
def State.releaseStage (s : State) (t reason token param : Nat) : State :=
  let fs := s.releasable param
  let last := match fs.getLast? with | some l => l.seq | none => 0xFFFFFFFFFFFF
  let pay : List Byte := [3, 1] ++ leBytes 2 reason ++ leBytes 8 token ++ leBytes 6 param ++ leBytes 6 last ++ leBytes 4 fs.length ++ [0, 0, 0, 0]
  (s.modRun t (fun r => { r with kind := .service 3, todo := [.release (fs.map (fun l => BitVec.ofNat 48 l.seq)) token] })).submit
    (s.devLog 0x86 pay) (some t)

/-- The next step of command `t` after one of its vault writes: the next write, its own next stage, or its completion. -/
def State.runStep (s : State) (t : Nat) : State :=
  match s.run? t with
  | none => s
  | some r =>
    match r.todo with
    | k :: rest => (s.modRun t (fun x => { x with todo := rest })).submit k (some t)
    | [] =>
      match r.kind with
      | .relStage reason token param => s.releaseStage t reason token param
      | .imageRun id ths => ({ s with img := s.img.running id 2 ths }).finish t r.status r.result
      | .lifecycle => s.modHs (fun h => { h with life := h.life.map (fun l => { l with ready := true }) })
      | _ => s.finish t r.status r.result

/-- The Pilot takes a message that the pilot link brings (R37, R256, R342). -/
def Phase.take (p : Phase) (m : PilMsg) : Phase :=
  match m with
  | .config cells => p.configure (Vector.ofFn (fun i => cells.getD i.val 0)) true
  | .odo v => { p with odo := BitVec.ofNat 48 v }
  | .scale v => { p with cfg := p.cfg.set 14 (BitVec.ofNat 24 v) }

/-- A message for the Pilot: taken at once while the pilot link carries traffic, else when it does again (R15). -/
def State.tellPilot (s : State) (m : PilMsg) : State :=
  if s.plinkUp && s.pil.msgs.isEmpty then s.modPh (fun p => p.take m)
  else { s with pil := { s.pil with msgs := s.pil.msgs ++ [m] } }

/-- The messages that wait for the pilot link are taken in order. -/
def State.hearPilot (s : State) : State :=
  { s with pil := { s.pil with ph := s.pil.msgs.foldl Phase.take s.pil.ph, msgs := [] } }

/-- The COURSE_SCALE that the configuration record holds, or that is in force where there is none. -/
def State.recScale (s : State) : Cell :=
  match s.hs.vault.phaseRec with
  | some l => l.getD 14 0
  | none => s.pil.ph.cfg.get 14

/-- A record of the phase configuration is durable: the Pilot takes it (R37, R342). Outside FACTORY it does not change
COURSE_SCALE, also where a setting has become durable since the command began (R60). -/
def State.applyPhase (s : State) (cells : List Cell) : State :=
  let l := if s.life = 1 then cells else cells.set 14 s.recScale
  (s.modVault (fun v => { v with phaseRec := some l })).tellPilot (.config l)

/-- A setting log is durable (R60, R256): the odometer's value or the scale goes to the Pilot, and the configuration record
keeps the scale too (log entry 37). -/
def State.applySetting (s : State) (cls : Nat) (v : Nat) : State :=
  if cls = 0x82 then s.tellPilot (.odo v)
  else if cls = 0x83 then
    let cells := match s.hs.vault.phaseRec with | some l => l | none => s.pil.ph.cfg.toList
    (s.modVault (fun w => { w with phaseRec := some (cells.set 14 (BitVec.ofNat 24 v)) })).tellPilot (.scale v)
  else s

/-- A log is durable (R239, R241, R255, R256, R265, R305). -/
def State.logDurable (s : State) (c : Commit) (l : VLog) : State :=
  let s1 := s.modVault (fun v => { v with logs := v.logs.map (fun x => if x.seq = l.seq then { x with durable := true } else x) })
  let s2 := match l.slot with
    | some (i, g) =>
      if (s1.hs.slots.get i).gen = g && (s1.hs.slots.get i).state = LState.admitted then s1.freeSlot i .durable else s1
    | none => s1
  let s3 := (s2.leafIn c.id { seq := l.seq, cls := l.cls, flags := l.flags.setWidth 8, lh := l.lh }).exportDurable l.seq l.cls.toNat
  let s4 := s3.applySetting l.cls.toNat (leAt l.bytes 64 6)
  let s5 := match c.tag with
    | some t => s4.modRun t (fun r => match r.kind with | .service _ => { r with result := leBytes 6 l.seq } | _ => r)
    | none => s4
  if l.cls = 0x84 then s5.modHs (fun h => { h with life := h.life.map (fun x => { x with logSeq := some l.seq }) })
  else if l.cls = 0x85 then s5.chalDone
  else s5

/-- A bottom tree becomes the current one: the ratchet moves on (R251). -/
def SealSt.switch (e : SealSt) : SealSt :=
  let ck := ckNext e.ck (e.tree + 1)
  { e with tree := e.tree + 1, seed := e.seedN, i := e.iN, curPub := e.nextPub, curTopSig := e.nextTopSig, ck := ck,
           seedN := ckSeed ck (e.tree + 2), iN := ckI ck (e.tree + 2), nextReady := false, nextPub := [], nextTopSig := [],
           built := 0, building := decide (e.tree + 2 < 2 ^ 20) }

/-- The current tree is used up and the next one is ready: the switch is requested once (R251, R252). -/
def State.trySwitch (s : State) : State :=
  let e := s.hs.se
  if s.vaultOn && e.nextReady && e.run = .idle && decide (e.nextLeaf / 2 ^ 20 = e.tree + 1) &&
      !(s.hs.vault.wait ++ s.hs.vault.adm).any (fun c => match c.kind with | .treeSwitch => true | _ => false) then
    s.submit .treeSwitch
  else s

/-- The reservation of a leaf is durable (R249, R253): it is the next leaf's number that is kept. The last leaf of a tree
takes its stored seed with it; the engine keeps the working copy until it has signed. -/
def SealSt.reserved (e : SealSt) (leaf : Nat) : SealSt :=
  { e with nextLeaf := leaf + 1, run := if e.run = .reserving leaf then .reserved leaf else e.run,
           stopped := e.stopped || decide (2 ^ 40 ≤ leaf + 1) }

/-- A firmware slot's record (R385). -/
def Vault.putSlotRec (v : Vault) (b : Bool) (id svn len : Nat) : Vault :=
  let w := v.nextWcount
  let f (x : FwSlot) : FwSlot := { x with id := id, svn := svn, len := len, wcount := w, valid := true }
  if b then { v with slotB := f v.slotB } else { v with slotA := f v.slotA }

/-- The effect of a durable commit that is no log (R187, R249 to R252, R260, R265, R270, R311, R336, R337, R342, R349,
R373). -/
def State.kindDone (s : State) (k : CKind) : State :=
  match k with
  | .slot _ | .hw _ _ _ | .rewrite _ => s
  | .phaseCfg cells => s.applyPhase cells
  | .cordTime ms => s.modVault (fun v => { v with cordMs := ms })
  | .tokenId id => s.modVault (fun v => { v with tokenMax := some id })
  | .release seqs token =>
    s.modVault (fun v =>
      let b := v.boundary (seqs.map (·.toNat))
      { v with relBound := b, relPos := v.boundPos b, tokenMax := some token })
  | .marks n m => s.modVault (fun v => { v with marks := v.marks.set n m })
  | .svnFloor kd n =>
    s.modVault (fun v => if kd = 0 then { v with svnImg := max v.svnImg n } else if kd = 1 then { v with svnPatch := max v.svnPatch n }
      else { v with svnOpen := max v.svnOpen n })
  | .tries e n =>
    (s.modVault (fun v => { v with triesRec := some (e, n) })).modHs (fun h =>
      { h with chal := { h.chal with judging := h.chal.judging.map (fun j => { j with tryDone := true }) } })
  | .image b bytes =>
    (s.modVault (fun v => if b then { v with slotB := { v.slotB with bytes := bytes } } else { v with slotA := { v.slotA with bytes := bytes } })).setEv
      0x1181
  | .slotRec b id svn len => s.modVault (fun v => v.putSlotRec b id svn len)
  | .bundle o bytes => s.modVault (fun v => if o then { v with openB := bytes } else { v with patchB := bytes })
  | .index no =>
    s.modSeal (fun e => { e with queue := e.queue.map (fun (c : Cord) => if c.no = no then { c with indexed := true } else c) })
  | .sealRec no =>
    ((s.modVault (fun v => { v with seals := v.seals.map (fun (x : VSeal) => if x.cord = no then { x with durable := true } else x) })).modSeal
      (fun e => { e with queue := e.queue.filter (fun c => c.no ≠ no) })).cords
  | .reserve leaf => s.modSeal (fun e => e.reserved leaf)
  | .treeSwitch => s.modSeal SealSt.switch
  | .treeReady => (s.modSeal (fun e => { e with nextReady := true, building := false })).trySwitch
  | .progress n => s.modSeal (fun e => { e with built := n })
  | .keyPair => s.modSeal (fun e => { e with keyDone := true, keyRun := false, building := true, built := 0 })

/-- The secret signing state as bytes, each part after its length (R259, log entry 99). -/
def SealSt.secretBytes (e : SealSt) : List Byte :=
  ([e.topSeed, e.topI, e.ck, e.seed, e.i, e.seedN, e.iN].map (fun l => BitVec.ofNat 8 l.length :: l)).flatten

/-- The parts of `secretBytes`. -/
def secretParts : Nat → List Byte → List (List Byte)
  | 0, _ => []
  | n + 1, l => (l.drop 1).take (l.headD 0).toNat :: secretParts n (l.drop (1 + (l.headD 0).toNat))

/-- The Seal engine's working copies, from the secret signing state. -/
def SealSt.withSecrets (e : SealSt) (l : List Byte) : SealSt :=
  match secretParts 7 l with
  | [a, b, c, d, f, g, h] => { e with topSeed := a, topI := b, ck := c, seed := d, i := f, seedN := g, iN := h }
  | _ => e

/-- The secret fields are written to the SEAL record store, sealed under the seal-state key (R259). -/
def State.saveSecrets (s : State) (e : SealSt) : State :=
  let iv := (List.range 12).map (Config.sealIv s.free)
  let x := gcmSeal s.hs.keys.sealKey iv [] e.secretBytes
  s.draw.modVault (fun v => { v with secrets := some (iv, x.1, x.2) })

/-- The Seal engine reads its secret fields once the keys are derived (R259, R369). -/
def Hearth.openSecrets (h : Hearth) : Hearth :=
  match (if h.keys.valid then h.vault.secrets else none) with
  | some (iv, ct, tag) =>
    (match gcmOpen h.keys.sealKey iv [] ct tag with
      | some l => { h with se := h.se.withSecrets l }
      | none => h)
  | none => h

/-- A commit of the signing state has its secret fields written with it (R251 to R253, R370): the last leaf of a tree erases
its seed. -/
def State.keepSecrets (s : State) (k : CKind) : State :=
  let e := s.hs.se
  match k with
  | .treeSwitch | .treeReady | .progress _ | .keyPair => s.saveSecrets e
  | .reserve q => if q % 2 ^ 20 = 2 ^ 20 - 1 then s.saveSecrets { e with seed := [], i := [] } else s
  | _ => s

/-- A keyed record stands in its line, and the one it held before is gone (Table 10.1). -/
def Vault.keepRec (v : Vault) (c : Commit) : Vault :=
  match c.kind.key, c.at_ with
  | some k, l :: _ => { v with recs := v.recs.filter (fun r => r.line ≠ l) ++ [{ line := l, key := k, ord := c.id, kind := c.kind }] }
  | _, _ => v

/-- The Damper's credits come back with the COMMIT record, unless the hearth link is down (R278). -/
def State.giveBack (s : State) (c : Commit) : State :=
  if s.fb.hearth.down then s else s.modDmp (fun d => { d with rsv := d.rsv - c.cost })

/-- The COMMIT record of `c` is durable (R265 steps 5 and 6). -/
def State.commitDone (s : State) (c : Commit) : State :=
  let s1 := ((s.sysLines c 1).modVault (fun v =>
    { (v.keepRec c) with adm := v.adm.filter (fun x => x.id ≠ c.id), cur := none })).giveBack c
  let s2 := match s1.hs.vault.logs.find? (fun l => some l.seq = c.seq) with
    | some l => s1.logDurable c l
    | none => ((s1.modHs (fun h => h.jput (h.jOf .commit c))).kindDone c.kind).keepSecrets c.kind
  let s3 := if c.fromPilot then
      let q := (s2.setEv 0x1181).pilotNext 4
      if s.pil.dmp.pfWarn then q.judgeLast else q
    else s2
  (match c.tag with | some t => s3.runStep t | none => s3).grab.syncDstate

/-- COMMIT_DURABLE: the stream has run on, and the COMMIT record of the write that is complete next is durable (R261, R262,
R265); a class other than that write's has no commit that becomes durable now. -/
def execCommitDurable (k : WClass) (s : State) : Answer :=
  .next (
    let r := s.streamed
    match r.hs.vault.curWrite with
    | some c => if s.vaultOn && c.cls = k then r.commitDone c else s
    | none => s)

end Sys2Proof.Machine
end

