-- ==== Sys2Proof/Machine/SealEng.lean ====
section
/-! DEFINITION. The Seal engine (sections 9.5 to 9.8, R370): the cord timer, the signing of cords, trees and the key
pair; and the upkeep of the vault (R272, R273). -/

namespace Sys2Proof.Machine

/-- CORD_TIMER: the cord timer expires, CORD_TIME after the first leaf entered (R241). PLCLK has 100,000 cycles in a
millisecond (R25). -/
def execCordTimer (s : State) : Answer :=
  .next (
    match s.hs.se.timer with
    | none => s
    | some k =>
      if !s.vaultOn || s.pil.dmp.pfWarn || s.hs.se.openCord.isEmpty || decide (s.pil.ph.clk < k + 100000 * s.hs.vault.cordMs) then s
      else ((s.modSeal (fun e => { e with timer := none, due := match e.due with | some r => some r | none => some .timer })).cords).syncDstate)

/-- The vault and the Seal engine may work (R249, R253, R281, R368, R370, R377): the keys are derived, no power-fail
warning stands, sealing has not stopped. -/
def State.sealOn (s : State) : Bool :=
  let e := s.hs.se
  s.vaultOn && s.hs.keys.valid && !s.pil.dmp.pfWarn && e.keyDone && !e.stopped && s.life ≠ 4 && s.life ≠ 7

/-- The next cord to sign: the first in the queue whose seal has not been released. -/
def SealSt.nextCord? (e : SealSt) : Option Cord := e.queue.find? (fun c => !c.released)

/-- SEAL_START: the next unused leaf is reserved for the next queued cord (R249). It waits for a tree that still has to
be built, whose switch it asks for once it is (R252), and for the seal record of the cord before it, so that no cord can be
sealed again under a leaf later than its successor's (R248; DEDUCED, log entry 99). -/
def execSealStart (s : State) : Answer :=
  .next (
    let e := s.hs.se
    match e.nextCord? with
    | none => s
    | some _ =>
      if !s.sealOn || e.run ≠ .idle || e.queue.any (·.released) then s
      else if e.nextLeaf / 2 ^ 20 ≠ e.tree then s.trySwitch
      else (s.modSeal (fun e => { e with run := .reserving e.nextLeaf })).submit (.reserve e.nextLeaf))

/-- The logs of a released cord are sealed: their flags, and the SEALED bits of the slots that still hold them
(R238, R239). -/
def State.markSealed (s : State) (c : Cord) : State :=
  let mine (l : VLog) : Bool := c.leaves.any (fun f => f.seq = l.seq)
  let s1 := s.modVault (fun v => { v with logs := v.logs.map (fun l => if mine l then { l with sealed := true, cord := some c.no } else l) })
  (s.hs.vault.logs.filter mine).foldl (fun (q : State) l =>
    match l.slot with
    | some (i, g) =>
      let x := q.hs.slots.get i
      if x.gen = g && (x.state = LState.durable || x.state = LState.admitted) then
        (q.modSlot i (fun y => { y with sealed := true })).setEv (0x1140 + i)
      else q
    | none => q) s1

/-- SEAL_RELEASE: the signature under the reserved leaf is complete; the seal is released and its record requested
(R249, R253, R260, R305). -/
def execSealRelease (s : State) : Answer :=
  .next (
    let e := s.hs.se
    match e.run, e.nextCord? with
    | .reserved q, some c =>
      if !s.vaultOn || s.pil.dmp.pfWarn then s
      else
        let b := e.sealBytes c q
        let last := decide (q % 2 ^ 20 = 2 ^ 20 - 1)
        let s1 := s.modSeal (fun e =>
          { e with run := .idle, queue := e.queue.map (fun (x : Cord) => if x.no = c.no then { x with released := true } else x),
                   seed := if last then [] else e.seed, i := if last then [] else e.i })
        let rec_ : VSeal := { cord := c.no, count := c.leaves.length, sealBytes := b, leaves := c.leaves, part := .rolling }
        let s2 := (s1.modVault (fun v => { v with seals := v.seals ++ [rec_] })).markSealed c
        ((((s2.submit (.sealRec c.no)).exportSeal c.no c.leaves).trySwitch).cords).syncDstate
    | _, _ => s)

/-- TREE_BUILD_DONE: the next bottom tree is built and its public key signed with the next top leaf (R252). A throttling
Hearthstone pauses tree building (R456). -/
def execTreeBuildDone (s : State) : Answer :=
  .next (
    let e := s.hs.se
    if !s.sealOn || s.pw.throt.getLsbD 1 || !e.building || e.nextReady || !e.nextPub.isEmpty then s
    else
      let pub := treePub e.w8 e.seedN e.iN
      let sig := treeSign e.w8 e.topSeed e.topI (e.tree + 1) pub
      (s.modSeal (fun e => { e with nextPub := pub, nextTopSig := sig })).submit .treeReady)

/-- KEYPAIR_CREATED: the top tree and bottom tree 0 are built, the latter's public key is signed with top leaf 0, and
the complete key pair is recorded (R246, R370). -/
def execKeypairCreated (s : State) : Answer :=
  .next (
    let e := s.hs.se
    if !s.vaultOn || s.pw.throt.getLsbD 1 || s.pil.dmp.pfWarn || !e.keyRun || e.keyDone || !e.pub.isEmpty then s
    else
      let bot := treePub e.w8 e.seed e.i
      let top := treePub e.w8 e.topSeed e.topI
      (s.modSeal (fun e =>
        { e with curPub := bot, curTopSig := treeSign e.w8 e.topSeed e.topI 0 bot, pub := [0, 0, 0, 2] ++ top })).submit .keyPair)

/-- BUILD_PROGRESS_SAVE: another 4,096 leaves of a tree are built and the progress is saved (R252, R370). -/
def execBuildProgressSave (s : State) : Answer :=
  .next (
    let e := s.hs.se
    if !s.vaultOn || s.pw.throt.getLsbD 1 || s.pil.dmp.pfWarn || !(e.keyRun || e.building) then s
    else s.submit (.progress (e.built + 4096)))

/-- A write that still has lines to put into a block now bad goes on in the next good ones of its partition, past its head
(R273, log entry 99). -/
def State.skipBad (s : State) (b : Nat) : State :=
  let v := s.hs.vault
  if !v.bad.contains b then s
  else
    v.adm.foldl (fun (q : State) c =>
      let due := c.at_.drop c.pos
      let hit := (due.filter (fun l => decide (l / 32 = b))).length
      let p := partOfLine (32 * b)
      if hit = 0 || !(p = .prot || p = .rolling || p = .odometer) then q
      else
        let r := q.hs.vault.place p hit
        let ls := c.at_.take c.pos ++ due.filter (fun l => decide (l / 32 ≠ b)) ++ r.1
        q.modVault (fun _ =>
          { (r.2.modAdm c.id (fun x => { x with at_ := ls })) with
            logs := r.2.logs.map (fun l => if some l.seq = c.seq then { l with at_ := ls } else l),
            seals := r.2.seals.map (fun x => if c.kind = .sealRec x.cord then { x with at_ := ls } else x) })) s

/-- BLOCK_RETIRE: a block of which a line has failed its read-back three times, or whose counter has reached its end, is
retired into a spare, or marked bad when no spare is left (R273). -/
def execBlockRetire (b : BitVec 12) (s : State) : Answer :=
  .next (if !s.vaultOn then s else (s.modVault (fun v => v.retire b.toNat)).skipBad b.toNat)

/-- The write counters of block `n` once a spare stands in its place: the write cycles that self-tests have given the
spare (R273, R397). -/
def Vault.freshBlock (v : Vault) (n : Nat) : Mem 40 :=
  memWriteList (v.wear.filter (fun x => x.1 / 32 ≠ n)) (32 * n) (List.replicate 32 (BitVec.ofNat 40 v.spareCyc))

/-- BLOCK_COPY_DONE: the spare is mapped in the block's place (R273). -/
def execBlockCopyDone (b : BitVec 12) (s : State) : Answer :=
  .next (
    let n := b.toNat
    if !s.vaultOn || !s.hs.vault.retiring.contains n then s
    else s.modVault (fun v => { v with retiring := v.retiring.filter (· ≠ n), wear := v.freshBlock n }))

/-- VAULT_SCRUB: a line is read while the main rails are up, with `errs` bit errors (R257, R272). The ECC corrects up to 3,
and the line is rewritten through admission; 4 it detects: the line is uncorrectable from then on and counts (more than 4
are taken as detected too, log entry 99). -/
def execVaultScrub (line : BitVec 17) (errs : BitVec 10) (s : State) : Answer :=
  .next (
    if !s.vaultOn || s.pil.dmp.pfWarn || errs = 0 then s
    else if errs.toNat ≤ 3 then s.submit (.rewrite line.toNat)
    else s.modVault (fun v =>
      { v with ue := satInc v.ue,
               ueLines := if v.ueLines.contains line.toNat then v.ueLines else v.ueLines ++ [line.toNat] }))

end Sys2Proof.Machine
end

