-- ==== Sys2Proof/Machine/PowerFail.lean ====
section
/-! DEFINITION. The power-fail sequence, VAULT_SAFE, planned entries and standby (R280 to R282, R389 to R391). -/

namespace Sys2Proof.Machine

/-- A machine note waits for admission (R165). -/
def Commit.isNote (c : Commit) : Bool := match c.kind with | .hw h _ true => h.cls = 0x81 | _ => false

/-- The notes that have not been admitted can no longer be: NOTE_LOST rises by them, and they are gone (R165). -/
def State.loseNotes (s : State) : State :=
  let p := s.pil
  let q := p.logQ.filter (fun x => x.1.cls = 0x81)
  let n := (s.hs.vault.wait.filter Commit.isNote).length + q.length
  ({ s with pil := { p with noteLost := satAdd p.noteLost n, logQ := p.logQ.filter (fun x => x.1.cls ≠ 0x81) } }).modVault
    (fun v => { v with wait := v.wait.filter (fun c => !c.isNote) })

/-- The notes of lockups whose report the Pilot has, and whose frozen state can no longer reach it, are lost (R165). -/
def State.loseStates (s : State) : State :=
  let due (k : Core) : Bool := match k.lockup with | some l => l.reported && !l.sent | none => false
  let n := (s.cores.toList.filter due).length
  { s with
    cores := s.cores.map (fun k => if due k then { k with lockup := k.lockup.map (fun l => { l with sent := true }) } else k),
    pil := { s.pil with noteLost := satAdd s.pil.noteLost n } }

/-- OPEN and COMMITTING logs are lost (R281, Table 14.3); admitted ones stay. -/
def State.loseLogs (s : State) : State :=
  s.modHs (fun h => { h with slots := h.slots.map (fun l =>
    if l.state = .open_ ∨ l.state = .committing then { gen := l.gen, freed := l.freed } else l) })

/-- The power-fail sequence begins (R281): the requests that wait are never admitted, and the REASON 5 checkpoint is
judged. -/
def State.powerFail (s : State) : State :=
  let s1 := (s.loseNotes.modVault (fun v => { v with wait := [] })).loseLogs
  let s2 := ((({ s1 with pil := { s1.pil with logQ := [] } }).modDmp (fun d => { d with pfWarn := true })).checkpoint 5).judgeLast
  let s4 := s2.modSeal (fun e => { e with run := .idle })
  let s5 := (s4.modFb (fun f => { f with copies := [], relock := none })).modFl (fun f => { f with runs := [] })
  { (s5.modHs (fun h => { h with life := none, chal := { h.chal with waitGet := [] } })).modPw
      (fun p => { p with life := .pfail, plan := none }) with bist := {} }

/-- POWER_FAIL_WARNING: a main rail has fallen, or the capacitor, whose comparator raises the warning only once it is armed
(R280, R281, R379). A rail that falls in VAULT_SAFE or while VSTBY is out of range is out of range from then on. -/
def execPowerFailWarning (cause : PfCause) (s : State) : Answer :=
  .next (
    let s1 := if cause = .rail then s.modPw (fun p => { p with rails := false }) else s
    match s.pw.life with
    | .running => if cause = .rail || s.pil.dmp.armed then s1.powerFail else s
    | .starting =>
      if (cause = .rail && (s.pw.everRails || s.pw.start.s2)) || (cause = .cap && s.pil.dmp.armed) then s1.powerFail else s1
    | _ => s1)

/-- A planned entry goes on as far as it can (R390): commands completed, threads stopped, logs and rings closed, the
cord closed and sealed, the REASON 3 checkpoint. -/
def State.planStep (s : State) : State :=
  match s.pw.plan with
  | none => s
  | some k =>
    let at_ (q : State) (n : Nat) : State := q.modPw (fun p => { p with plan := some n })
    if s.pw.life ≠ .running then s
    else if k = 0 then
      if s.fl.runs.isEmpty then
        at_ { s with cores := s.cores.map (fun c => c.mapTh (fun u =>
          if u.st = .ready ∨ u.st = .waiting ∨ u.st = .blocked then { u with stopReq := true } else u)) } 1
      else s
    else if k = 1 then
      if s.cores.toList.all (fun c => c.th.toList.all (fun u => u.st = .stopped || u.st = .frozen || u.st = .halted)) then
        let closeLog (q : State) (i : Nat) : State :=
          let l := q.hs.slots.get i
          if l.state ≠ .open_ then q
          else if l.segs.isEmpty then q.dropLog i
          else (q.modSlot i (fun l => { l with state := .committing })).logReady i
        let s1 := (List.range 64).foldl closeLog s
        let s2 := (List.range 48).foldl (fun (q : State) n =>
          if q.pil.cap.chanEn n then q.applyObj (.channel n) (fun j => if j = 0 then q.pil.cap.objCell (.channel n) 0 &&& ~~~1 else q.pil.cap.objCell (.channel n) j)
          else q) s1
        at_ ((List.range 16).foldl (fun (q : State) i =>
          if (q.fb.rings.get i).en then q.modRing i EmRing.disable else q) s2) 2
      else s
    else if k = 2 then
      if s.hs.slots.toList.all (fun l => l.state ≠ .committing && l.state ≠ .admitted) then
        let s1 := if s.hs.se.openCord.isEmpty then s
          else (s.modSeal (fun e => { e with timer := none, due := match e.due with | some r => some r | none => some .timer })).cords
        at_ (if s.hs.se.building || s.hs.se.keyRun then s1.submit (.progress s.hs.se.built) else s1) 3
      else s
    else if k = 3 then
      if (s.hs.se.queue.isEmpty && s.hs.se.openCord.isEmpty) || !s.sealOn then at_ (s.checkpoint 3) 4 else s
    else s

/-- SHUTDOWN ends the journal (R281): a HEADS record that would be due after it is left to the recovery (log entry 45). -/
def Hearth.shutdown (h : Hearth) : Hearth := h.jraw { ty := .shutdown } h.vault.jhd

/-- The Flue after a reset of its endpoint and rings (R318, R462). What it has sent stays sent. -/
def State.resetFlue (s : State) : State :=
  s.modFl (fun f => { out := f.out, lastDstate := f.lastDstate })

/-- STANDBY_ENTRY: a main rail is below its minimum, and the device is in VAULT_SAFE, or 20 ms past the warning, or has
had no rail since the COLD reset (R389). -/
def execStandbyEntry (s : State) : Answer :=
  .next (
    if s.pw.life = .vaultSafe ∨ s.pw.life = .pfail ∨ (s.pw.life = .starting ∧ !s.pw.everRails ∧ !s.pw.start.s2) then
      let s1 := (s.modPh Phase.enterStandby).modWk Wake.enterStandby
      (s1.modCap (fun c => { c with adcq := [], spiDue := Tab.fill 4 [], spiRun := Tab.fill 4 none, stream := [], pulses := [], recs := [] })).modPw
        (fun p => { p with life := .standby, rails := false })
    else s)

/-- The STBY_REQ bit is written (R390, R465). During a start the entry goes on once the start has ended, and the boot ROM
then starts nothing (DEDUCED, log entry 71). -/
def State.stbyReqBit (s : State) (v : BitVec 32) : State :=
  if v.getLsbD 0 && (s.pw.life = .running || (s.pw.life = .starting && s.pw.start.s2)) && s.pw.plan.isNone then s.modPw (fun p => { p with plan := some 0 }) else s

end Sys2Proof.Machine
end

