-- ==== Sys2Proof/Machine/Bundle.lean ====
section
/-! DEFINITION. Bundles: their format, their checks and their installation (R185 to R189); the CORE reset with the
reinstall that ends it (R382, R383). -/

namespace Sys2Proof.Machine

/-- The little-endian field of `n` bytes at offset `i`. -/
def fld (b : List Byte) (i n : Nat) : Nat := leAt b i n

/-- A bundle is an open-store bundle (KIND 0x02). -/
def bundleOpen (b : List Byte) : Bool := fld b 6 1 = 2
/-- Bytes of the table at the head of a body of a kind (R186). -/
def bundleTable (o : Bool) : Nat := if o then 256 else 128
/-- The first word address and the words of a kind's region (R167, R186). -/
def bundleBase (o : Bool) : Nat := if o then 0xC00 else 0xA00
/-- The words of a kind's region. -/
def bundleSize (o : Bool) : Nat := if o then 1024 else 512

/-- Check 1 of R187. The parts have to be there whole. -/
def bundleFormat (b : List Byte) : Bool :=
  let o := bundleOpen b
  let slot := fld b 7 1
  let words := fld b 14 2
  let len := fld b 16 4
  b.take 4 == [0x4D, 0x58, 0x4D, 0x42] && fld b 4 2 = 1 && (fld b 6 1 = 1 || fld b 6 1 = 2) &&
  (if o then slot = 2 || slot = 3 else slot < 2) && fld b 8 4 = Config.romId.toNat && words ≤ bundleSize o &&
  len = bundleTable o + 12 * words && bytesAt b 48 16 == List.replicate 16 0 && 64 + len + 56 ≤ b.length

/-- The body as it is carried. -/
def bundleCipher (b : List Byte) : List Byte := bytesAt b 64 (fld b 16 4)
/-- The public key. -/
def bundlePub (b : List Byte) : List Byte := bytesAt b (64 + fld b 16 4) 56
/-- The signature. -/
def bundleSig (b : List Byte) : List Byte := b.drop (64 + fld b 16 4 + 56)

/-- Check 7 of R187 on the plaintext of a kind with `words` words: MATCH and TARGET of every match entry, enabled or not,
and OFFSET of the valid dispatch entries. -/
def bundleTableOk (o : Bool) (words : Nat) (p : List Byte) : Bool :=
  if o then
    (List.range 64).all (fun i =>
      let e : BitVec 32 := BitVec.ofNat 32 (fld p (4 * i) 4)
      fieldN e 10 14 = 0 && fieldN e 28 3 ≤ 4 && fieldN e 25 3 ≤ 4 && (!e.getLsbD 31 || decide (fieldN e 0 10 < words)))
  else
    (List.range 32).all (fun i =>
      let e : BitVec 32 := BitVec.ofNat 32 (fld p (4 * i) 4)
      fieldN e 12 4 = 0 && fieldN e 28 3 = 0 && fieldN e 16 12 ≤ 0x9FF && 0xA00 ≤ fieldN e 0 12 &&
      decide (fieldN e 0 12 < 0xA00 + words))

/-- The SVN floor of a kind (R187). -/
def Vault.floorOf (v : Vault) (o : Bool) : Nat := if o then v.svnOpen else v.svnPatch
/-- The bundle key of a kind (R369). -/
def Keys.bundleKey (k : Keys) (o : Bool) : List Byte := if o then k.openKey else k.patchKey

/-- Checks 1 to 3 of R187: the status of Table 12.2, 0 when they pass. -/
def State.bundleHead (s : State) (b : List Byte) : Byte :=
  if !bundleFormat b then 0x10
  else if fld b 12 2 < s.hs.vault.floorOf (bundleOpen b) then 0x11
  else if !s.hs.otp.keyFits (fld b 7 1) (bundlePub b) then 0x12
  else 0

/-- Checks 1 to 7 of R187: the status, 0 when they pass, and the plaintext. -/
def State.bundleCheck (s : State) (b : List Byte) : Byte × List Byte :=
  let h := s.bundleHead b
  if h ≠ 0 then (h, [])
  else if !lmsVerify (bundlePub b) (b.take 64 ++ bundleCipher b) (bundleSig b) then (0x13, [])
  else if !s.hs.keys.valid then (0x14, [])
  else
    match gcmOpen (s.hs.keys.bundleKey (bundleOpen b)) (bytesAt b 20 12) (b.take 20) (bundleCipher b) (bytesAt b 32 16) with
    | none => (0x14, [])
    | some p => if bundleTableOk (bundleOpen b) (fld b 14 2) p then (0, p) else (0x10, [])

/-- The words of a region from a plaintext: those carried, then words with SEQ = 0b111 (R186). -/
def bundleWords (o : Bool) (words : Nat) (p : List Byte) : Mem 96 :=
  (List.range (bundleSize o)).filterMap (fun i =>
    let w : BitVec 96 := if i < words then BitVec.ofNat 96 (fld p (bundleTable o + 12 * i) 12) else BitVec.ofNat 96 (7 * 2 ^ 93)
    if w = 0 then none else some (bundleBase o + i, w))

/-- A bundle's plaintext in a control store: its region, and its table taking effect (R186, R188). -/
def CtlStore.install (k : CtlStore) (o : Bool) (words : Nat) (p : List Byte) : CtlStore :=
  if o then
    { k with openw := bundleWords true words p, openIn := true,
             disp := Vector.ofFn (fun i => BitVec.ofNat 32 (fld p (4 * i.val) 4)) }
  else
    { k with patch := bundleWords false words p, patchIn := true,
             points := Vector.ofFn (fun i => BitVec.ofNat 32 (fld p (4 * i.val) 4)) }

/-- The states in which bundles are installed (R189). -/
def installState (life : Nat) : Bool := life = 1 || life = 2 || life = 3

/-- A core reinstalls the bundles of the last start (R189, R363): its control store, and whether that failed. -/
def State.reinstall (s : State) (c : CoreId) (k : Core) : Core :=
  let one (a : Core) (b : List Byte) : Core :=
    if b.isEmpty then a
    else
      let r := s.bundleCheck b
      if r.1 = 0 then { a with cs := a.cs.install (bundleOpen b) (fld b 14 2) r.2 } else { a with rfail := true }
  let a := one (one { k with reinst := false } s.img.instPatch) s.img.instOpen
  { a with rfail := a.rfail || !s.coreEnabled c }

/-- The pending appends of a core's committing logs read their cells before the core is swept (R234, R240). -/
def State.readAppends (s : State) (c : CoreId) : State :=
  (List.range 64).foldl (fun (q : State) i =>
    let l := q.hs.slots.get i
    if l.state = .committing && l.core = c && l.segs.any (fun g => g.copy.isNone && !g.fin) then
      (q.modSlot i (fun l => { l with segs := l.segs.map (fun g =>
        if g.copy.isNone && !g.fin then { g with cells := q.cellsMem c g.a.toNat g.n, fin := true } else g) })).logReady i
    else q) s

/-- A reset abandons BIST_RUN; no completion is written (R398, log entry 94). -/
def State.abandonBist (s : State) : State :=
  let mine (r : Run) : Bool := match r.kind with | .bist _ _ _ => true | _ => false
  { s.modFl (fun f =>
      { f with sqs := (f.runs.filter mine).foldl (fun q r => q.modify r.sq (fun x => x.finish r.ord)) f.sqs,
               runs := f.runs.filter (fun r => !mine r) }) with bist := {} }

/-- Steps 1 and 2 of a CORE reset begin (R383): no thread of the core issues, its open locked sequences are cut (R115), and
the routine of its sequencer is abandoned (R176). What the core has started goes on; a locked-up core is left to its
lockup (R166). -/
def State.haltCore (s : State) (c : CoreId) : State :=
  if (s.core c).lockup.isSome then s
  else
    ((List.range 8).foldl (fun (r : State) i => r.endLock c (BitVec.ofNat 3 i)) s).modCore c (fun k =>
      { (((List.range 8).foldl (fun (q : Core) i => q.unask (.thread (BitVec.ofNat 3 i))) k).mapTh (fun u =>
          { u with st := .stopped, stopReq := false, haltReq := false, step := none })) with seq := none })

/-- Step 3 of a CORE reset (R166, R240, R382, R383): its open logs drop, what is left in its store buffer drains, its lock
lines are released, everything in the core is swept; in the states that install bundles their reinstall follows. An
outstanding nonce is cleared (R371, R382). With the pilot link down the Pilot does not learn of the reset, and LOCKUP_N
keeps the core's lockup (R163, R164, log entry 105). -/
def State.resetCore (s : State) (c : CoreId) : State :=
  let s1 := (s.core c).sb.foldl (fun (q : State) e => q.applyStore c e) (s.abandonBist.dropOpen c)
  let s2 := (s1.readAppends c).modFb (fun f =>
    { f with holds := f.holds.filter (fun h => h.core ≠ c), wants := f.wants.filter (fun h => h.core ≠ c) })
  let s3 := s2.modCore c (fun k => { reinst := installState s.fLife, attached := k.attached })
  let s4 := s3.modHs (fun h => { h with chal := { h.chal with nonce := none } })
  (if s.fb.plink.down then s4
   else { s4 with pil := s4.pil.putLockups (setBit s4.pil.lockups c.toNat false) }).syncDstate

/-- A locked core's reset may sweep: its state has reached the Pilot, or the pilot link is down (R166). -/
def State.mayReset (s : State) (c : CoreId) : Bool :=
  match (s.core c).lockup with
  | some l => l.sent || s.fb.plink.down
  | none => true

/-- The CORE reset of command `t`, when it is its turn on the core (R327): the core issues no more, and is swept once it is
quiescent and its lockup is done with (R166, R383); without a reinstall the command completes at once (R189, R340). -/
def State.runReset (s : State) (t : Nat) (c : CoreId) : State :=
  if !s.coreTurn t c.toNat then s
  else
    let s0 := s.haltCore c
    if !s0.mayReset c || !(s0.core c).quiescent then s0
    else
    let s1 := (s0.resetCore c).modRun t (fun r => { r with kind := .coreReset c.toNat true })
    if (s1.core c).reinst then s1 else s1.finish t 0 [0]

/-- The CORE resets that waited for their core (R166, R383). -/
def State.resetRuns (s : State) : State :=
  s.fl.runs.foldl (fun (q : State) r =>
    match r.kind with
    | .coreReset c false => q.runReset r.tag (BitVec.ofNat 4 c)
    | _ => q) s

end Sys2Proof.Machine
end

