-- ==== Sys2Proof/Machine/Image.lean ====
section
/-! DEFINITION. The Sahsal image (section 12.3) and the commands that load images and bundles and start, stop and reset
threads and cores (sections 12.4 and 12.5). -/

namespace Sys2Proof.Machine

/-- Check 1 of R335: the header, and the sizes against the `len` bytes that are there (Table 12.6). -/
def imageFormat (b : List Byte) (len : Nat) : Bool :=
  b.take 4 == [0x4D, 0x58, 0x49, 0x4D] && fld b 4 2 = 1 && (fld b 6 1 = 2 || fld b 6 1 = 3) && fld b 7 1 = 0 &&
  fld b 12 2 ≤ 128 && bytesAt b 24 40 == List.replicate 40 0 && len = 120 + fld b 14 2 + fld b 16 4 && len ≤ 196608

/-- IMAGE_ID of an image. -/
def imageId (b : List Byte) : Nat := fld b 20 4
/-- SVN of an image. -/
def imageSvn (b : List Byte) : Nat := fld b 8 2
/-- The body of an image. -/
def imageBody (b : List Byte) : List Byte := b.drop (120 + fld b 14 2)

/-- A segment (R334). -/
structure ImgSeg where
  ty : Nat
  cores : BitVec 16
  addr : Nat
  count : Nat
  data : List Byte
deriving DecidableEq, Repr

/-- Bytes of a segment's data (R24, R334). -/
def segBytes (ty count : Nat) : Nat := if ty = 1 then (count + 1) / 2 * 3 else 3 * count
/-- A segment lies in its space and an odd program segment ends with a 0 syllable (R334). -/
def ImgSeg.ok (g : ImgSeg) : Bool :=
  decide (1 ≤ g.count) &&
  (match g.ty with
    | 1 => g.cores = 0 && decide (g.addr + g.count ≤ 0xC0000) &&
        (g.count % 2 = 0 || decide (leNat (g.data.drop (g.data.length - 3)) < 4096))
    | 2 => g.cores = 0 && decide (0x100000 ≤ g.addr) && decide (g.addr + g.count ≤ 0x200000)
    | 3 => decide (g.addr + g.count ≤ 0x4000)
    | _ => false)
/-- Two segments share a unit of one space (R334). -/
def ImgSeg.meets (g h : ImgSeg) : Bool :=
  g.ty = h.ty && decide (g.addr < h.addr + h.count) && decide (h.addr < g.addr + g.count) &&
  (g.ty ≠ 3 || g.cores &&& h.cores ≠ 0)

/-- `n` segments from a body's bytes, which they use up; `acc` are those before them. -/
def parseSegs : Nat → List Byte → List ImgSeg → Option (List ImgSeg)
  | 0, l, acc => if l.isEmpty then some acc.reverse else none
  | n + 1, l, acc =>
    let ty := fld l 0 1
    let count := fld l 8 4
    let len := segBytes ty count
    let g : ImgSeg := { ty := ty, cores := BitVec.ofNat 16 (fld l 2 2), addr := fld l 4 4, count := count, data := (l.drop 12).take len }
    if decide (l.length < 12 + len) || fld l 1 1 ≠ 0 || !g.ok || acc.any (fun h => g.meets h) then none
    else parseSegs n (l.drop (12 + len)) (g :: acc)

/-- A thread entry is well formed (Table 12.7). -/
def entryOk (e : List Byte) : Bool :=
  decide (fld e 0 1 < 128) && decide (fld e 1 1 < 8) && decide (fld e 2 3 < 2 ^ 20) && fld e 14 2 = 0
/-- `n` thread entries. -/
def parseEntries : Nat → List Byte → List (List Byte)
  | 0, _ => []
  | n + 1, l => l.take 16 :: parseEntries n (l.drop 16)

/-- Check 4 of R335: the thread entries and the segments of an image, none when its body is not well formed. -/
def imageParts (b : List Byte) : Option (List (List Byte) × List ImgSeg) :=
  let body := imageBody b
  let n := fld b 12 2
  let es := parseEntries n body
  if decide (body.length < 16 * n) || !es.all entryOk || decide (¬ (es.map (fun e => fld e 0 1)).Nodup) then none
  else (parseSegs (fld b 10 2) (body.drop (16 * n)) []).map (fun g => (es, g))

/-- Check 5 of R335. -/
def imageSigned (b : List Byte) : Bool :=
  lmsVerify (bytesAt b 64 56) (b.take 64 ++ imageBody b) (bytesAt b 120 (fld b 14 2))

/-- Checks 1 to 3 of R335, with check 4 after them: the status, 0 when they pass. -/
def State.imageHead (s : State) (b : List Byte) (len : Nat) : Byte :=
  if !imageFormat b len then 0x10
  else if imageSvn b < s.hs.vault.svnImg then 0x11
  else if !s.hs.otp.keyFits (fld b 6 1) (bytesAt b 64 56) then 0x12
  else if (imageParts b).isNone then 0x10
  else 0

/-- A segment is written (R336). -/
def State.putSeg (s : State) (g : ImgSeg) : State :=
  match g.ty with
  | 1 => s.modFb (fun f => { f with prog := memWriteList f.prog g.addr ((unpackSyls ((g.count + 1) / 2) g.data).take g.count) })
  | 2 => s.modFb (fun f => { f with shared := memWriteList f.shared g.addr (unpackCells g.count g.data) })
  | _ => (List.range 16).foldl (fun (q : State) i =>
      if g.cores.getLsbD i then
        q.modCore (BitVec.ofNat 4 i) (fun k => { k with lmem := memWriteList k.lmem g.addr (unpackCells g.count g.data) })
      else q) s

/-- I-caches and line buffers of every core are invalidated (R336). -/
def State.invalAll (s : State) : State := { s with cores := s.cores.map Core.inval }

/-- The segments of an image that is loaded to run (R336). -/
def State.putImage (s : State) (b : List Byte) : State :=
  match imageParts b with
  | some p => p.2.foldl State.putSeg s.invalAll
  | none => s.invalAll

/-- A failed load to RUN: the Sweep wipes program, shared and local memories, and no image runs (R336). -/
def State.wipeImage (s : State) : State :=
  { (s.modFb (fun f => { f with prog := [], shared := [] })) with
    cores := s.cores.map (fun k => { k.inval with lmem := [] }),
    img := { s.img with valid := false, id := 0, source := 0xFF, threads := [], runLoad := false } }

/-- The thread entries of an image that passed its checks. -/
def imageThreads (b : List Byte) : List (List Byte) := ((imageParts b).map (·.1)).getD []
/-- An image that passed its checks is the running image (R336). -/
def State.takeImage (s : State) (b : List Byte) (source : Nat) : State :=
  { s with img := s.img.running (BitVec.ofNat 32 (imageId b)) source (imageThreads b) }

/-- Every thread of every core is STOPPED or FROZEN (R336, R365). -/
def State.allStopped (s : State) : Bool :=
  s.cores.toList.all (fun k => k.th.toList.all (fun u => u.st = .stopped || u.st = .frozen))

/-- The writes of an image that is loaded to run, once no lock line is held (R113, R336); its verification follows (R335). -/
def State.tryImage (s : State) (tag : Nat) (b : List Byte) : State :=
  if !s.fb.holds.isEmpty then s else (s.modRun tag (fun y => { y with kind := .image 0 b })).putImage b

/-- IMAGE_LOAD: checks 1 to 4 and the copy (R335, R336). `buf` is what the read of the buffer returned. -/
def execImageLoad (sq : BitVec 4) (buf : Option (List Byte)) (s : State) : Answer :=
  .next (command sq { op := 0x10, reads := true, named := [0], range := fun d => decide (d.p 0 ≤ 2),
                      size := fun d => decide (64 ≤ d.dlen) && decide (d.dlen ≤ 196608), states := [1, 2, 3] }
    (fun d t r =>
      let run := d.p 0 = 0
      if r.exclusiveRuns t then r.finish t 0x07
      else if r.vaultGone then r.finish t 0x0E
      else if run ∧ !r.allStopped then r.finish t 0x08
      else
        let fail (q : State) (st : Byte) : State := (if run then q.wipeImage else q).finish t st
        match buf with
        | none => fail r 0x06
        | some x =>
          let b := bytesAt x 0 d.dlen
          let st := r.imageHead b d.dlen
          if st ≠ 0 then fail r st
          else
            if run then
              ({ (r.modRun t (fun y => { y with kind := .imageWait b })) with img := { r.img with runLoad := true } } : State).tryImage t b
            else r.modRun t (fun y => { y with kind := .image (d.p 0) b })) s)

/-- BUNDLE_LOAD: checks 1 to 3 (R337); the rest follows at VERIFICATION_END. -/
def execBundleLoad (sq : BitVec 4) (buf : Option (List Byte)) (s : State) : Answer :=
  .next (command sq { op := 0x11, reads := true, size := fun d => decide (64 ≤ d.dlen) && decide (d.dlen ≤ 16384), states := [1, 2, 3] }
    (fun d t r =>
      if r.exclusiveRuns t then r.finish t 0x07
      else if r.vaultGone then r.finish t 0x0E
      else match buf with
        | none => r.finish t 0x06
        | some x =>
          let b := bytesAt x 0 d.dlen
          let st := r.bundleHead b
          if st ≠ 0 then r.finish t st else r.modRun t (fun y => { y with kind := .bundle b })) s)

/-- An image or bundle load that waits for its verification. -/
def Run.verifying (r : Run) : Bool :=
  match r.kind with
  | .image _ _ | .bundle _ => true
  | _ => false

/-- The end of the verification of load `r` (R335 to R337). An image loaded to run becomes the running image with SUCCESS,
once the record of its SVN is durable. A failed slot image frees its staging. -/
def State.verified (s : State) (r : Run) : State :=
  match r.kind with
  | .image k b =>
    let res := leBytes 4 (imageId b)
    if k = 0 then
      if !imageSigned b then s.wipeImage.finish r.tag 0x13
      else
        if imageSvn b ≤ s.hs.vault.svnImg then (s.takeImage b 2).finish r.tag 0 res
        else
          (s.modRun r.tag (fun x =>
            { x with kind := .imageRun (BitVec.ofNat 32 (imageId b)) (imageThreads b), result := res })).submit
            (.svnFloor 0 (imageSvn b)) (some r.tag)
    else if !imageSigned b then (s.finish r.tag 0x13).setEv 0x1181
    else
      (s.modRun r.tag (fun x => { x with kind := .plain, result := res,
                                         todo := [.slotRec (k = 2) (imageId b) (imageSvn b) b.length] })).submit
        (.image (k = 2) b) (some r.tag)
  | .bundle b =>
    let st := (s.bundleCheck b).1
    if st ≠ 0 then s.finish r.tag st
    else
      let res := [BitVec.ofNat 8 (fld b 6 1), 0] ++ leBytes 2 (fld b 12 2)
      (s.modRun r.tag (fun x => { x with kind := .plain, result := res })).submit (.bundle (bundleOpen b) b) (some r.tag)
  | _ => s

/-- VERIFICATION_END (R335). -/
def execVerificationEnd (s : State) : Answer :=
  .next (match s.fl.runs.find? Run.verifying with
    | some r => s.verified r
    | none => s)

/-- The entry of a thread in the running image's thread table (R338). -/
def Image.entry (m : Image) (c : CoreId) (t : ThId) : Option (List Byte) :=
  m.threads.find? (fun e => fld e 0 1 = 8 * c.toNat + t.toNat)

/-- Work that a thread left in flight at its stop is complete (R137). -/
def Core.idleThread (k : Core) (t : ThId) : Bool :=
  let u := k.th.get t.toNat
  u.xfer.isNone && u.dl.isEmpty && k.sb.all (fun e => e.th ≠ t)

/-- A thread at a new entry point with the stack area and modes of its table entry, none without one (R137, R144,
R338). -/
def Thread.startAt (u : Thread) (pc : Nat) (e : Option (List Byte)) : Thread :=
  let f (i n : Nat) : Nat := match e with | some b => fld b i n | none => 0
  { u with st := .ready, why := .none, want := none, pc := BitVec.ofNat 20 pc,
           status := BitVec.ofNat 24 (0x840 + 0x1000 * ((f 1 1 / 2) % 2) + 0x2000 * ((f 1 1 / 4) % 2)),
           prod := 0, last := 0, pend := [], ll := 0, dl := [],
           dsbase := areaCell (BitVec.ofNat 24 (f 5 3)), dslimit := areaCell (BitVec.ofNat 24 (f 8 3)), ctxa := BitVec.ofNat 24 (f 11 3),
           w := 0, base := 0, spc := 0, dirty := 0xF, rsd := 0, rsp := 0, pacc := 0, pk := 0, lockN := none,
           arms := u.arms.map (fun a => { a with en := false }), buf := none, xfer := none, fresh := false,
           stopReq := false, haltReq := false, step := none, skipWp := none }

/-- A thread starts at a new entry point and its line is looked up. -/
def State.startThread (s : State) (c : CoreId) (t : ThId) (pc : Nat) (e : Option (List Byte)) : State :=
  (s.modTh c t (fun u => u.startAt pc e)).fetchLine c t

/-- A core whose reinstall failed; a disabled core counts as one (R189, R363). -/
def State.coreFailed (s : State) (c : CoreId) : Bool := (s.core c).rfail || !s.coreEnabled c

/-- A CORE_RESET of the core that began before command `tag` has not ended, or its reinstall has not (R189). -/
def State.coreBusy (s : State) (tag : Nat) (c : CoreId) : Bool :=
  (s.core c).reinst ||
  s.fl.runs.any (fun r => decide (r.tag < tag) && (match r.kind with | .coreReset k _ => k = c.toNat | _ => false))

/-- Self-test items 0 to 3 run on the core (R395). -/
def State.bistHolds (s : State) (c : CoreId) : Bool :=
  (match s.bist.items with | i :: _ => decide (i < 4) | [] => false) && s.bist.cores.getLsbD c.toNat

/-- THREAD_START as far as it can go now (R137, R327, R338, R395). -/
def State.tryStart (s : State) (tag : Nat) (c : CoreId) (t : ThId) (mode pc : Nat) : State :=
  let k := s.core c
  let u := s.th c t
  if !s.coreTurn tag c.toNat || s.coreBusy tag c || s.bistHolds c then s
  else if k.lockup.isSome then s.finish tag 0x09
  else if s.img.runLoad then s.finish tag 0x07
  else if s.coreFailed c || !s.img.valid then s.finish tag 0x0A
  else if u.st ≠ .stopped then s.finish tag 0x08
  else if mode = 0 then
    if u.fresh then s.finish tag 0x0B
    else ((s.modTh c t (fun v => { v with st := if v.want.isNone then .ready else .blocked })).fetchLine c t).finish tag 0
  else
    let e := s.img.entry c t
    if mode = 1 ∧ e.isNone then s.finish tag 0x0B
    else if !k.idleThread t then s
    else
      let at_ := if mode = 1 then fld (e.getD []) 2 3 else pc
      (s.startThread c t at_ e).finish tag 0

/-- A stop is asked of a thread that runs (R67). A HALTED one becomes STOPPED when the debugger releases it (R339). -/
def Thread.askStop (u : Thread) : Thread :=
  if u.st = .stopped ∨ u.st = .frozen then u else { u with stopReq := true }

/-- THREAD_STOP requests its stops when it is its turn on the core (R327, R339). -/
def State.tryStop (s : State) (tag c mask : Nat) : State :=
  if !s.coreTurn tag c then s
  else
    let q := (List.range 8).foldl (fun (q : State) i =>
      if mask.testBit i then q.modTh (BitVec.ofNat 4 c) (BitVec.ofNat 3 i) Thread.askStop else q) s
    (q.modRun tag (fun x => { x with kind := .threadStop c mask true })).stopRuns

/-- THREAD_QUERY answers when it is its turn on the core (R327, Table 12.3). -/
def State.tryQuery (s : State) (tag c : Nat) : State :=
  if !s.coreTurn tag c then s
  else s.finish tag 0 ((s.cores.get c).th.toList.map (fun u => BitVec.ofNat 8 u.st.num))

/-- The commands that wait for their turn on a core, for its threads or for lock lines go on (R113, R327). -/
def State.startRuns (s : State) : State :=
  s.fl.runs.foldl (fun (q : State) r =>
    match r.kind with
    | .threadStart c t m p => q.tryStart r.tag (BitVec.ofNat 4 c) (BitVec.ofNat 3 t) m p
    | .threadStop c m false => q.tryStop r.tag c m
    | .threadQuery c => q.tryQuery r.tag c
    | .imageWait b => q.tryImage r.tag b
    | .coreReset c false => q.runReset r.tag (BitVec.ofNat 4 c)
    | _ => q) s

/-- THREAD_START (R338). -/
def execThreadStart (sq : BitVec 4) (s : State) : Answer :=
  .next (command sq { op := 0x20, named := [0, 1, 2, 4, 5, 6],
                      range := fun d => decide (d.p 0 < 16) && decide (d.p 1 < 8) && decide (d.p 2 ≤ 2) && decide (d.p 6 < 16),
                      states := [1, 2, 3] }
    (fun d t r =>
      (r.modRun t (fun x => { x with kind := .threadStart (d.p 0) (d.p 1) (d.p 2) (d.pn 4 3) })).tryStart t
        (BitVec.ofNat 4 (d.p 0)) (BitVec.ofNat 3 (d.p 1)) (d.p 2) (d.pn 4 3)) s)

/-- THREAD_STOP (R339). -/
def execThreadStop (sq : BitVec 4) (s : State) : Answer :=
  .next (command sq { op := 0x21, named := [0, 1], range := fun d => decide (d.p 0 < 16), states := [0, 1, 2, 3, 4, 7] }
    (fun d t r => (r.modRun t (fun x => { x with kind := .threadStop (d.p 0) (d.p 1) false })).tryStop t (d.p 0) (d.p 1)) s)

/-- CORE_RESET (R340). -/
def execCoreReset (sq : BitVec 4) (s : State) : Answer :=
  .next (command sq { op := 0x22, named := [0], range := fun d => decide (d.p 0 < 16), states := [0, 1, 2, 3, 4, 7] }
    (fun d t r =>
      ((r.modRun t (fun x => { x with kind := .coreReset (d.p 0) false })).runReset t (BitVec.ofNat 4 (d.p 0))).stopRuns) s)

/-- BUNDLE_REINSTALL_DONE: the reinstall of a core ends, and with it its CORE_RESET (R189, R340). -/
def execBundleReinstallDone (c : CoreId) (s : State) : Answer :=
  .next (if !(s.core c).reinst || !s.fireOn then s
    else
      let s1 := s.modCore c (s.reinstall c)
      let res : List Byte := [if (s1.core c).rfail then 1 else 0]
      (s1.fl.runs.foldl (fun (q : State) r =>
        match r.kind with
        | .coreReset k true => if k = c.toNat then q.finish r.tag 0 res else q
        | _ => q) s1).startRuns)

/-- THREAD_QUERY (Table 12.3). -/
def execThreadQuery (sq : BitVec 4) (s : State) : Answer :=
  .next (command sq { op := 0x23, named := [0], range := fun d => decide (d.p 0 < 16), states := [0, 1, 2, 3, 4, 7] }
    (fun d t r => (r.modRun t (fun x => { x with kind := .threadQuery (d.p 0) })).tryQuery t (d.p 0)) s)

end Sys2Proof.Machine
end

