-- ==== Sys2Proof/Machine/Debug.lean ====
section
/-! DEFINITION. Debug (sections 15.4 to 15.8): the TAP, the debug challenge over it, the debug requests, and the end of
the debug rights. -/

namespace Sys2Proof.Machine

/-- The TAP works (R402). -/
def State.tapOn (s : State) : Bool := s.pw.life ≠ .off && s.pw.vddioB

/-- The instruction of an IR code; an unassigned one acts as BYPASS (Table 15.3). -/
def tapCode (v : Byte) : TapIr :=
  match v.toNat with
  | 0x00 => .extest | 0x01 => .idcode | 0x02 => .sample | 0x04 => .clamp | 0x05 => .highz | 0x10 => .dbgChal
  | 0x11 => .dbgAns | 0x20 => .dbgAccess | _ => .bypass

/-- The state and rights allow an instruction (Table 15.3). -/
def State.tapAllowed (s : State) (i : TapIr) : Bool :=
  let l := s.hs.lanes.p.life
  match i with
  | .extest | .clamp | .highz => (l ≠ 2 && l ≠ 3) || s.rights.getLsbD 3
  | .dbgChal | .dbgAns => l = 1 || l = 2 || l = 3
  | .dbgAccess => s.rights ≠ 0
  | .idcode | .sample | .bypass => true

/-- What the instruction register captures (R402). -/
def State.irCapture (s : State) : Byte :=
  BitVec.ofNat 8 (1 + 4 * b2n s.pil.tap.denied + 8 * b2n s.hs.lanes.p.unlocked)
/-- The value of the IDCODE register (Table 15.3). -/
def idcode : BitVec 32 := 0x1031654B

/-- TAP_INSTRUCTION: an Update-IR (R402, R403). -/
def execTapInstruction (ir : BitVec 8) (s : State) : Answer :=
  .next (if !s.tapOn then s
    else
      let i := tapCode ir
      if s.tapAllowed i then s.modTap (fun t => { t with ir := i, denied := false })
      else s.modTap (fun t => { t with ir := .bypass, denied := true }))

/-- BOUNDARY_UPDATE: an Update-DR of the boundary register (R404, R405). -/
def execBoundaryUpdate (bits : BitVec 73) (s : State) : Answer :=
  .next (if s.tapOn && (s.pil.tap.ir = .extest || s.pil.tap.ir = .sample) then s.modTap (fun t => { t with bnd := bits }) else s)

/-- What Capture-DR loads under DBG_CHAL (R406): the outstanding nonce, the tries left, the last status. -/
def State.chalCapture (s : State) : BitVec 272 :=
  BitVec.ofNat 272 (leAt ((s.hs.chal.nonce.getD []) ++ List.replicate (32 - (s.hs.chal.nonce.getD []).length) 0 ++
    [s.triesByte, s.pil.tap.chalStatus]) 0 34)

/-- The Update-DRs of the debug challenge reach the Hearthstone in order, once no link on the way is in training (R11, R15,
R406). -/
def State.tapRuns (s : State) : State :=
  if !s.vaultOn || s.fb.plink.down || s.fb.hearth.down then s.modTap (fun t => { t with chalQ := [] })
  else if s.fb.plink.training || s.fb.hearth.training then s
  else
    s.pil.tap.chalQ.foldl (fun (q : State) x =>
      match x with
      | none => q.askNonce none
      | some b => q.answerIn b true none) (s.modTap (fun t => { t with chalQ := [] }))

/-- DBG_CHAL: an Update-DR that asks for a new nonce (R406). -/
def execDbgChal (s : State) : Answer :=
  .next (if s.tapOn && s.pil.tap.ir = .dbgChal then (s.modTap (fun t => { t with chalQ := t.chalQ ++ [none] })).tapRuns else s)

/-- DBG_ANS: the Update-DR that ends an answer (R406). One that is no whole number of bytes fails FORMAT. -/
def execDbgAns (bits : Nat) (bytes : List Byte) (s : State) : Answer :=
  .next (if s.tapOn && s.pil.tap.ir = .dbgAns then
      (s.modTap (fun t => { t with chalQ := t.chalQ ++ [some (if bits = 8 * bytes.length then bytes else [])] })).tapRuns
    else s)

/-- The status, and the data, of a debug request (Table 15.6). -/
def State.dbgEnd (s : State) (st : BitVec 4) (data : Option Cell := none) : State :=
  s.modTap (fun t => { t with dbgStat := st, dbgData := data })
/-- What Capture-DR loads under DBG_ACCESS (R409, Table 15.6). -/
def Tap.dbgCapture (t : Tap) : BitVec 72 :=
  let r := t.dbgReq
  t.dbgStat ++ r.space ++ r.core ++ r.thread ++ (0 : BitVec 9) ++ r.addr ++ t.dbgData.getD r.data

/-- The Firebox serves debug requests: powered, out of reset, not in VAULT_SAFE (R410), and the pilot link is not down. -/
def State.dbgLive (s : State) : Bool := (s.fireOn || s.pw.life = .pfail) && !s.fb.plink.down

/-- The thread may be read, or written, over SPACE 3 (R410). -/
def TState.readable (t : TState) : Bool := t = .halted || t = .stopped || t = .frozen
/-- A thread that SPACE 3 may write. -/
def TState.writable (t : TState) : Bool := t = .halted || t = .stopped

/-- The cell at `k` of SPACE 3 (R410, Tables 4.13 and 5.3), none past its end. -/
def State.threadCell (s : State) (c : CoreId) (t : ThId) (k : Nat) : Option Cell :=
  let u := s.th c t
  if k < 16 then (u.ctxHead u.pc)[k]?
  else if k < 32 then some (u.rs.get (k - 16))
  else if k < 64 then some (u.win.get (k - 32))
  else if k < 0x49 then some (loCell (s.specialReg c t (k - 64)))
  else if k = 0x49 then some (BitVec.ofNat 24 u.st.num)
  else none

/-- A write of cell `k` of SPACE 3; none where the value is not well formed or the cell cannot be written. ESC keeps its
value (R143). -/
def Thread.putCtxCell (u : Thread) (k : Nat) (v : Cell) : Option Thread :=
  if k = 0 then some { u with status := setBit (v &&& 0x003FFF) 10 (escOf u.status) }
  else if k = 1 then some { u with pc := v.setWidth 20, buf := none, want := none }
  else if k = 2 then
    if fieldN v 0 6 ≤ 32 ∧ fieldN v 8 5 ≤ 16 then
      some { u with w := fieldN v 0 6, base := fieldN v 6 2, rsd := fieldN v 8 5, rsp := fieldN v 13 4 }
    else none
  else if k = 3 then some { u with dsbase := areaCell v }
  else if k = 4 then some { u with dslimit := areaCell v }
  else if k = 5 then some { u with spc := v.toNat / 8 * 8 }
  else if k ≤ 8 then some (u.mts (k - 5) v)
  else if k < 15 then some { u with bits := BitVec.ofNat 128 ((setField u.bits (24 * (k - 9)) 24 v.toNat).toNat) }
  else if k = 15 then some u
  else if k < 32 then some { u with rs := u.rs.set (k - 16) v }
  else if k < 64 then some { u with win := u.win.set (k - 32) v, dirty := setBit u.dirty ((k - 32) / 8) true }
  else if k < 0x49 then
    some (if k = 64 then { u with status := mtsStatus u.status v true } else u.mts (k - 64) v)
  else none

/-- What a debug read finds: its data, the status that refuses it, or a wait. -/
inductive DbgGot where
  | data (v : Cell)
  | fails (st : BitVec 4)
  | waits
deriving DecidableEq, Repr

/-- The cell at `a` as the core itself would read it: from its store buffer, or from memory once no overlapping entry and no
lock of another core is in the way (R82, R113, R410). -/
def State.dbgCell (s : State) (c : CoreId) (a : Nat) : DbgGot :=
  match sbLook (s.core c).sb a .cell with
  | .hit v => .data (loCell v)
  | .wait _ => .waits
  | .miss =>
    if isDev a then .data (s.devCell c a)
    else if s.lineHeldByOther c a then .waits
    else .data (s.cellMem c a)

/-- What a read of a space returns (R410, R411). The event queue and its quiet view read by halves; entry k of the dispatch
table stands at 0x4000 + 4 k of SPACE 4 (DESIGN CHOICE, log entry 106). -/
def State.dbgRead (s : State) (r : DbgReq) : DbgGot :=
  let c := r.core
  let t := r.thread
  let a := r.addr.toNat
  match r.space.toNat with
  | 0 =>
    if (accFault s true a .cell false).isSome && (devKind a ≠ .ld2 || !isDev a) && !(isDev a && devKind (a - 1) = .ld2) then .fails 4
    else s.dbgCell c a
  | 1 => if progMapped a then .data ((s.sylAt a).setWidth 24) else .fails 4
  | 2 => if 0x1400 ≤ a then .fails 4 else .data (BitVec.ofNat 24 (b2n (s.readBit c (s.th c t) a)))
  | 3 => if !(s.th c t).st.readable then .fails 3 else (match s.threadCell c t a with | some v => .data v | none => .fails 5)
  | 4 =>
    let k := (s.core c).cs
    if a < 0x4000 then
      let w : BitVec 96 := if 0xC00 ≤ a / 4 then memRead k.openw (a / 4) else 0
      .data (BitVec.ofNat 24 (fieldN w (24 * (a % 4)) 24))
    else if a < 0x4100 then .data (BitVec.ofNat 24 (fieldN (k.disp.get ((a - 0x4000) / 4)) (24 * (a % 4)) 24))
    else .fails 5
  | 5 =>
    if 4 * 4096 ≤ a ∨ a % 4 = 3 then .fails 5
    else .data (BitVec.ofNat 24 (fieldN (memRead s.fb.trace.recs (a / 4)) (24 * (a % 4)) 24))
  | _ => .fails 5

/-- The right that a read of a space needs: MEM, HALT, CSTORE, WATCH (R410). -/
def readRight (sp : BitVec 4) : Nat := match sp.toNat with | 3 => 0 | 4 => 4 | 5 => 2 | _ => 1
/-- The right that a write of a space needs. -/
def writeRight (sp : BitVec 4) : Nat := match sp.toNat with | 4 => 4 | 5 => 2 | _ => 1
/-- The right that a request needs (R410); NOP needs none. -/
def dbgRight (op : DbgOp) (r : DbgReq) : Option Nat :=
  match op with
  | .nop => none
  | .rd | .rdx => some (readRight r.space)
  | .wr => some (writeRight r.space)
  | .halt | .resume | .step | .attach | .inval => some 0

/-- The time that passes before a read of SR_CYCLE (log entry 5). -/
def State.beforeRead (s : State) (r : DbgReq) : State :=
  if r.space = 3 && r.addr = 0x46 then s.passCycles r.core 6 else s

/-- RD: a read of the quiet view; RDX: with its side effect (R411). -/
def State.dbgDoRead (s : State) (r : DbgReq) (effect : Bool) : State :=
  let q := s.beforeRead r
  match q.dbgRead r with
  | .data v => (if effect && r.space = 0 then q.readEffect r.core r.addr.toNat else q).dbgEnd 0 (some v)
  | .fails st => q.dbgEnd st
  | .waits => s.dbgEnd 1

/-- WR (R410). A cell write enters the core's store buffer once that has room (R81); a watchpoint's cell is written with the
debugger's rights (R418). -/
def State.dbgDoWrite (s : State) (r : DbgReq) : State :=
  let a := r.addr.toNat
  let c := r.core
  match r.space.toNat with
  | 0 =>
    if (accFault s true a .cell true).isSome then s.dbgEnd 4
    else if 16 ≤ (s.core c).sb.length then s.dbgEnd 1
    else (s.modCore c (fun k => k.pushStore r.thread r.addr .cell (r.data.setWidth 48) (s.rights.getLsbD 2))).dbgEnd 0
  | 1 =>
    if 0xC0000 ≤ a then s.dbgEnd 4
    else (s.modFb (fun f => { f with prog := memWrite f.prog a (r.data.setWidth 12) })).dbgEnd 0
  | 2 =>
    let b := r.data.getLsbD 0
    if (bitFault (if b then .set else .clr) a).isSome then s.dbgEnd 4 else (s.writeBit c r.thread a b).dbgEnd 0
  | 3 =>
    if !(s.th c r.thread).st.writable then s.dbgEnd 3
    else (match (s.th c r.thread).putCtxCell a r.data with
      | some u => (s.modTh c r.thread (fun _ => u)).dbgEnd 0
      | none => s.dbgEnd 5)
  | 4 => s.dbgEnd 2
  | _ => s.dbgEnd 5

/-- The threads of a core in a mask changed. -/
def State.modMask (s : State) (m : BitVec 8) (f : State → ThId → State) : State :=
  (List.range 8).foldl (fun (q : State) i => if m.getLsbD i then f q (BitVec.ofNat 3 i) else q) s
/-- The thread mask of a request. -/
def dbgMask (r : DbgReq) : BitVec 8 := r.data.setWidth 8

/-- HALT: the halt is asked for; it takes effect at the thread's boundary (R413). -/
def State.dbgDoHalt (s : State) (r : DbgReq) : State :=
  (s.modMask (dbgMask r) (fun q t => q.modTh r.core t (fun u =>
    if u.st = .ready ∨ u.st = .waiting ∨ u.st = .blocked then { u with haltReq := true } else u))).dbgEnd 0

/-- A HALTED thread goes on: READY, or STOPPED when a stop is asked for (R339, R414). -/
def Thread.resume (u : Thread) : Thread :=
  if u.stopReq then { u with st := .stopped, stopReq := false, haltReq := false }
  else { u with st := if u.want.isNone then .ready else .blocked, haltReq := false }

/-- RESUME (R414). -/
def State.dbgDoResume (s : State) (r : DbgReq) : State :=
  let c := r.core
  ((s.modMask (dbgMask r) (fun q t =>
    if (q.th c t).st = .halted then
      let q1 := q.modTh c t (fun u => { u.resume with brkHit := false })
      if (q1.th c t).st = .stopped then q1 else q1.fetchLine c t
    else q)).stopRuns).dbgEnd 0

/-- STEP: one HALTED thread makes one step; DATA[0] is MASKEV (R415). -/
def State.dbgDoStep (s : State) (r : DbgReq) : State :=
  let c := r.core
  let t := r.thread
  if (s.th c t).st ≠ .halted then s.dbgEnd 3
  else ((s.modTh c t (fun u =>
    { u.resume with step := if u.stopReq then none else some (r.data.getLsbD 0), brkHit := false })).fetchLine c t).dbgEnd 0

/-- The act of a request that has its right (R410 to R416). -/
def State.dbgAct (s : State) (op : DbgOp) (r : DbgReq) : State :=
  match op with
  | .nop => s.dbgEnd 0
  | .rd => s.dbgDoRead r false
  | .rdx => s.dbgDoRead r true
  | .wr => s.dbgDoWrite r
  | .halt => s.dbgDoHalt r
  | .resume => s.dbgDoResume r
  | .step => s.dbgDoStep r
  | .attach => (s.modCore r.core (fun k => { k with attached := r.data.getLsbD 0 })).dbgEnd 0
  | .inval => ((s.modCore r.core Core.inval).refetch r.core).dbgEnd 0

/-- The request that the register holds is served (R409, R410): DENIED without its right, OFF while the Firebox does not
run, PENDING while the pilot link is in training (R15) or the access waits. -/
def State.dbgServe (s : State) : State :=
  let t := s.pil.tap
  match dbgRight t.dbgOp t.dbgReq with
  | none => s.dbgEnd 0
  | some bit =>
    if !s.rights.getLsbD bit then s.dbgEnd 2
    else if !s.dbgLive then s.dbgEnd 6
    else if s.fb.plink.training then s.dbgEnd 1
    else s.dbgAct t.dbgOp t.dbgReq

/-- A request that waits is tried again. -/
def State.dbgRuns (s : State) : State := if s.pil.tap.dbgStat = 1 then s.dbgServe else s

/-- An Update-DR of DBG_ACCESS submits a request (R409). While one is PENDING any other is ignored, and a NOP leaves the
pending one as it is. -/
def State.dbgSubmit (s : State) (op : DbgOp) (r : DbgReq) : State :=
  if !s.tapOn || s.pil.tap.ir ≠ .dbgAccess || s.pil.tap.dbgStat = 1 then s
  else (s.modTap (fun t => { t with dbgOp := op, dbgReq := r })).dbgServe

/-- DBG_NOP (R409). -/
def execDbgNop (r : DbgReq) (s : State) : Answer := .next (s.dbgSubmit .nop r)
/-- DBG_RD: a read of the quiet view (R410, R411). -/
def execDbgRd (r : DbgReq) (s : State) : Answer := .next (s.dbgSubmit .rd r)
/-- DBG_RDX: a read with its side effect (R411). -/
def execDbgRdx (r : DbgReq) (s : State) : Answer := .next (s.dbgSubmit .rdx r)
/-- DBG_WR (R410). -/
def execDbgWr (r : DbgReq) (s : State) : Answer := .next (s.dbgSubmit .wr r)
/-- DBG_HALT: DATA is the thread mask (R413). -/
def execDbgHalt (r : DbgReq) (s : State) : Answer := .next (s.dbgSubmit .halt r)
/-- DBG_RESUME: DATA is the thread mask (R414). -/
def execDbgResume (r : DbgReq) (s : State) : Answer := .next (s.dbgSubmit .resume r)
/-- DBG_STEP (R415). -/
def execDbgStep (r : DbgReq) (s : State) : Answer := .next (s.dbgSubmit .step r)
/-- DBG_ATTACH: DATA[0] attaches or detaches (R416). -/
def execDbgAttach (r : DbgReq) (s : State) : Answer := .next (s.dbgSubmit .attach r)
/-- DBG_INVAL: the I-cache and the line buffers of a core are invalidated (R410). -/
def execDbgInval (r : DbgReq) (s : State) : Answer := .next (s.dbgSubmit .inval r)

/-- A watchpoint with action HALT or TRACE is disabled (R408). -/
def Watchpt.unarm (w : Watchpt) : Watchpt := if w.ctl.getLsbD 5 then { w with ctl := setBit w.ctl 0 false } else w

/-- The debug rights end (R408). -/
def State.endRights (s : State) : State :=
  let f (k : Core) : Core :=
    { (k.mapTh (fun u => { u with st := if u.st = .halted then .stopped else u.st, haltReq := false, step := none,
                                  stopReq := u.stopReq && u.st ≠ .halted, skipWp := none })) with
      attached := false, wp := k.wp.map Watchpt.unarm }
  (({ s with cores := s.cores.map f }).modFb (fun b => { b with trace := { b.trace with ctl := setBit b.trace.ctl 0 false } })).stopRuns

/-- What a change from `old` does to the debugger: its rights end when it loses one (R408). -/
def State.rightsFrom (s old : State) : State := if old.rights &&& ~~~s.rights = 0 then s else s.endRights

end Sys2Proof.Machine
end

