-- ==== Sys2Proof/Machine/Start.lean ====
section
/-! DEFINITION. Start and the resets (sections 14.1 to 14.4, 13.3, 10.4): what each reset does, the start steps of
Table 14.1, fuse lanes and keys, recovery, VAULT_SAFE and the boot ROM. -/

namespace Sys2Proof.Machine

/-- The counters of a link go and its state stays (R15, Table 18.19). -/
def Link.hostReset (l : Link) : Link := { training := l.training, fails := l.fails, replays := l.replays, down := l.down }

/-- The Firebox's shared part after a HOST reset, or after its rails returned (R22, R58, R380, R382, R484). The bits
that show the TRIG levels are written again by their sources; at a HOST reset the links stay as they are (R15), and the
mirror holds what the Pilot last sent. -/
def Fire.reset (f : Fire) (host : Bool) (lev : BitVec 4) : Fire :=
  let b : Fire := { ev := (lev.setWidth 1024) <<< 0xC0 }
  if host then { b with hearth := f.hearth.hostReset, plink := f.plink.hostReset, mir := f.mir } else b

/-- The capture objects after a HOST, WARM or COLD reset (R223, R382, R479); the pins keep their levels, and a HOST reset
keeps the counters (R484). -/
def Capture.reset (c : Capture) (host : Bool) : Capture :=
  let b : Capture := { trigLev := c.trigLev, trigPin := c.trigPin, trigAt := c.trigAt, gpioIn := c.gpioIn }
  if host then { b with lost := c.lost, canErr := c.canErr, sclkIdle := c.sclkIdle } else b

/-- A commit of the wait list or an admitted one is of a kind. -/
def Vault.has (v : Vault) (p : CKind → Bool) : Bool := (v.wait ++ v.adm).any (fun c => p c.kind)

/-- The Seal engine after a reset (R243, R249, R251, R253, R370): what was not durable is gone; a cord whose seal record
is not durable is to be sealed again. -/
def SealSt.reset (e : SealSt) (kept : List Nat) : SealSt :=
  { e with run := .idle, nextPub := if e.nextReady then e.nextPub else [], nextTopSig := if e.nextReady then e.nextTopSig else [],
           pub := if e.keyDone then e.pub else [],
           queue := e.queue.map (fun (c : Cord) => if kept.contains c.no then c else { c with released := false }) }

/-- The Seal engine's working copies are swept (R365, Table 14.3). A key pair that was under way goes on from what is
`saved`, or starts anew (R370). -/
def SealSt.sweep (e : SealSt) (saved : Bool) : SealSt :=
  { e with topSeed := [], topI := [], ck := [], seed := [], i := [], seedN := [], iN := [], keyRun := e.keyRun && saved }

/-- A lane user with DBG_UNLOCK cleared and no frame to pair with (R362, R373). -/
def LaneUser.relock (u : LaneUser) : LaneUser :=
  { lastGood := none, held := u.held.map (fun p => (p.1, match p.2 with | w :: r => setBit w 3 false :: r | [] => [])) }

/-- A log of a cord that is to be sealed again is not sealed (R243). -/
def SealSt.unseal (e : SealSt) (l : VLog) : VLog :=
  { l with sealed := l.sealed && !e.queue.any (fun c => !c.released && l.cord = some c.no) }

/-- The Hearthstone after a HOST reset, or after its rails returned (R267, R281, R360, R362, R374, R382, R484). The lane
users keep what their own dies hold. -/
def Hearth.reset (h : Hearth) : Hearth :=
  let v := h.vault
  let kept := (v.seals.filter (fun x => x.durable || v.adm.any (fun c => decide (c.kind = .sealRec x.cord)))).map (·.cord)
  let e := (h.se.reset kept).sweep v.secrets.isSome
  { vault := { v with wait := [], cur := none, lineClk := 0, sysAt := [], torn := 0, ue := 0,
                      logs := v.logs.map (fun l => e.unseal { l with slot := none }),
                      seals := v.seals.filter (fun x => kept.contains x.cord) },
    se := e,
    otp := { norm := h.otp.norm, strict := h.otp.strict },
    lanes := h.lanes }

/-- The lane users at a reset (R362, R373): those of lane F have their safe values; the Pilot keeps its values but for
DBG_UNLOCK, unless it has lost its supply. -/
def Lanes.reset (l : Lanes) (cold : Bool) : Lanes :=
  { genF := l.genF, genP := l.genP, sentF := l.sentF, sentP := l.sentP,
    p := if cold then {} else l.p.relock, pTrims := if cold then [] else l.pTrims }

/-- The cores that a reset does not sweep yet: at a HOST reset a locked one whose state the Pilot still has to get (R166). -/
def State.keepsCore (s : State) (k : SKind) (i : Nat) : Bool := k = .host && !s.mayReset (BitVec.ofNat 4 i)

/-- What every HOST, WARM and COLD reset does to the Firebox, to the capture objects and to the setup registers (R382, R462). No bit of DSTATE that it
changes is an event of the Flue that it resets (R313, log entry 100). -/
def State.resetFire (s : State) (k : SKind) : State :=
  let host := decide (k = SKind.host)
  let kept (i : Nat) : Bool := s.keepsCore k i
  let q : State := { s with
    cores := Vector.ofFn (fun i : Fin 16 => if kept i.val then s.cores.get i.val else {}),
    fb := s.fb.reset host s.pil.cap.trigLev,
    hs := { s.hs with lanes := s.hs.lanes.reset (k = SKind.cold) },
    fl := { out := s.fl.out },
    img := {}, bist := {},
    pw := { s.pw with bootSrc := 0xFF, statA := 0xFF, statB := 0xFF, ignored := 0, throttle := 0 },
    pil := { s.pil with cap := s.pil.cap.reset host, tap := { s.pil.tap with rights := 0 } }.putLockups
      (s.pil.lockups &&& BitVec.ofFnLE (fun i : Fin 16 => kept i.val)) }
  { q with fl := { q.fl with lastDstate := q.dstate } }

/-- What a reset does to the Hearthstone (R267, R382). Through a HOST reset the Pilot keeps the logs of its own that have not
been admitted, and submits them again (R165, R166; DEDUCED for checkpoints, log entry 100). -/
def State.resetHearth (s : State) (host : Bool) : State :=
  let mine := s.hs.vault.wait.filterMap (fun c => match c.kind with | .hw h p true => some (h, p) | _ => none)
  let q : State := { s with hs := s.hs.reset, pil := { s.pil with logQ := if host then mine ++ s.pil.logQ else [] } }
  if host then q else { q with fl := { q.fl with lastDstate := q.dstate } }

/-- What every WARM and COLD reset does to the three dies (R382). -/
def State.resetDies (s : State) (k : SKind) : State := (s.resetFire k).resetHearth false

/-- The counters and the ledger of the Pilot after a WARM reset (R379, R484). The hold-up parameters and c_bist stay
with their users (R362, R399), and the phase configuration stays in force until S8 (Table 14.3: at a COLD reset "Defaults,
then S8", at a WARM one "S8"; DEDUCED, log entry 98). -/
def Pilot.warm (p : Pilot) : Pilot :=
  { p with
    ph := { p.ph with ang := p.ph.ang.map (fun a => { a with rejects := 0 }), plausCnt := 0, camFault := 0, reverse := 0, odoRefused := 0 },
    dmp := { grid := p.dmp.grid, hu := p.dmp.hu, huValid := p.dmp.huValid, cBist := p.dmp.cBist } }

/-- The notes that a WARM reset loses: lockups reported whose frozen state never reached the Pilot (R165). -/
def State.notesLost (s : State) : Nat :=
  (s.cores.toList.filter (fun k => match k.lockup with | some l => l.reported && !l.sent | none => false)).length

/-- A WARM start begins (R381, R389, R392): at S1 after standby, else at S2; also at S1 where PLCLK has not locked yet. -/
def State.warmStart (s : State) : State :=
  let n := s.notesLost
  let p := s.pil.warm
  (({ s with pil := { p with noteLost := BitVec.ofNat 24 n } }).resetDies .warm).modPw (fun w =>
    { w with rails := true, everRails := true, life := .starting, start := { kind := .warm, s1 := s.plclk },
             hostWait := false, warmWait := false, plan := none })

/-- The levels of the pins, with which a COLD start begins. -/
def Phase.cold (p : Phase) : Phase := { ang := p.ang.map (fun a => { level := a.level }) }

/-- COLD_RESET: VSTBY has risen into range (R381, R382). -/
def execColdReset (s : State) : Answer :=
  .next (
    let s1 := ({ s with pil := { ph := s.pil.ph.cold, cap := s.pil.cap } }).resetDies .cold
    s1.modPw (fun p => { vstby := true, rails := p.rails, everRails := p.rails, vddioA := p.vddioA, vddioB := p.vddioB,
                         perst := p.perst, temp := p.temp }))

/-- VSTBY_LOSS: VSTBY leaves its range; the device is unpowered until the COLD reset (R282, R436). -/
def execVstbyLoss (s : State) : Answer :=
  .next ({ s with pw := { s.pw with vstby := false, life := .off }, pil := { s.pil with lockupPin := true, wakePin := true } })

/-- MAIN_RAILS_RESTORED: every main rail is back in range (R381, R389). A WARM start waits for the end of the power-fail
sequence. -/
def execMainRailsRestored (s : State) : Answer :=
  .next (match s.pw.life with
    | .standby | .vaultSafe => s.warmStart
    | .starting => s.modPw (fun p => { p with rails := true, everRails := true })
    | .pfail => s.modPw (fun p => { p with rails := true, warmWait := true })
    | .off => s.modPw (fun p => { p with rails := true })
    | .running => s)

/-- VAULT_SAFE: every admitted commit is durable, SHUTDOWN is written (R281). A planned entry that has reached its last
step sets STBY_READY (R390); a HOST reset that waited resets the endpoint and the rings alone, a WARM reset that waited
takes effect (R281, R381). A vault that the start had not recovered yet is left for the next recovery. -/
def execVaultSafe (s : State) : Answer :=
  .next (
    let planned := s.pw.life = .running && s.pw.plan = some 4 && s.hs.vault.wait.isEmpty
    if !(s.pw.life = .pfail || planned) || (s.vaultOn && !s.hs.vault.adm.isEmpty) then s
    else
      let s1 := if s.vaultOn then s.modHs Hearth.shutdown else s
      let s2 := if planned then s1.modWk (fun w => { w with ready := true }) else s1
      let s3 := s2.resetFlue.modPw (fun p => { p with life := .vaultSafe, plan := none, hostWait := false })
      if s3.pw.warmWait then s3.warmStart else s3)

/-- The Flue is ready to train the link: S2 is done and PERST_N is deasserted (S11 of R377). -/
def State.linkStart (s : State) : State :=
  if !s.pw.perst && s.fireOn then
    (s.modFl (fun f => { f with linkReady := true })).modPw (fun p => { p with start := { p.start with s11 := true } })
  else s

/-- A HOST reset begins (R166, R267, R381, R382): the Firebox, the Flue and the capture objects are reset at once, a locked
core and the Hearthstone later; the start waits for them. A WARM or COLD start that had not recovered the vault or loaded the
Pilot still does so. -/
def State.beginHost (s : State) : State :=
  let st := s.pw.start
  let new : Start := if st.kind = .host || (st.s7 && st.s8) then { kind := .host, s1 := true, s2 := true, s7 := true }
    else { kind := st.kind, s1 := true, s2 := true, s7 := st.s7, s8 := st.s8 }
  ((s.resetFire .host).modPw (fun p => { p with life := .starting, start := new, hostWait := true, plan := none })).linkStart.syncMirror

/-- A HOST reset is raised (R281, R381): during the power-fail sequence it waits, in VAULT_SAFE it resets the endpoint and the
rings alone. -/
def State.raiseHost (s : State) : State :=
  match s.pw.life with
  | .running => s.beginHost
  | .pfail => s.modPw (fun p => { p with hostWait := true })
  | .starting => if s.pw.start.s2 then s.beginHost else s
  | .vaultSafe => s.resetFlue
  | .off | .standby => s

/-- A write of RST_CTL: the reset key raises a HOST reset, and a FUSE_CMD under way is abandoned (R381, R464, R465). -/
def State.rstCtl (s : State) (v : BitVec 32) : State :=
  if v = 0x5AFE0316 then (s.modHs (fun h => { h with otp := { h.otp with busy := none, genWait := none } })).raiseHost else s

/-- PERST_N_FALL (R381): the endpoint is in reset while PERST_N is low, and a HOST reset is raised. -/
def execPerstNFall (s : State) : Answer :=
  .next (if s.pw.perst || s.pw.life = .off then s
    else ((s.modPw (fun p => { p with perst := true })).modFl (fun f => { f with linkReady := false })).raiseHost)

/-- PERST_N_RISE (R322, R377): PCIE_WAKE_N is released once the main rails have returned. -/
def execPerstNRise (s : State) : Answer :=
  .next (if !s.pw.perst || s.pw.life = .off then s
    else
      let s1 := s.modPw (fun p => { p with perst := false })
      (if s.pw.life = .standby then s1 else { s1 with pil := { s1.pil with wakePin := true } }).linkStart)

/-- Every locked core's frozen state has reached the Pilot, or the pilot link is down (R166). -/
def State.locksSent (s : State) : Bool := (List.range 16).all (fun i => s.mayReset (BitVec.ofNat 4 i))

/-- The index writes that the resets have lost are requested again (R260). -/
def State.reindex (s : State) : State :=
  s.hs.se.queue.foldl (fun (q : State) c =>
    if c.indexed || q.hs.vault.has (fun k => decide (k = .index c.no)) then q else q.submit (.index c.no)) s

/-- HOST_RESET_BEGIN: the waits of R166 and R267 are over, and what is left of the HOST reset follows: the Hearthstone, and
the cores that were locked up (R382). The start goes on at S3 (R381). -/
def execHostResetBegin (s : State) : Answer :=
  .next (
    if !s.pw.hostWait || s.pw.life ≠ .starting || (s.vaultOn && !s.hs.vault.adm.isEmpty) || !s.locksSent then s
    else
      let q : State := { s with cores := Tab.fill 16 {}, pil := s.pil.putLockups 0 }
      let s1 := (q.resetHearth true).modPw (fun p => { p with hostWait := false })
      (if s1.vaultOn then (s1.pilotNext 4).reindex.trySwitch.cords else s1).syncDstate)

/-- A start step after S2 may run now (R267, R377). -/
def State.stepsRun (s : State) : Bool := s.pw.life = .starting && s.pw.start.s2 && !s.pw.hostWait

/-- PLCLK starts at the capture side: the filtered levels take the pins' levels and make no trigger, and HOLD_SENSE's grid
begins (R191, R202). -/
def State.captureStart (s : State) : State :=
  let s1 := (s.modCap (fun c => { c with trigLev := c.trigPin })).modDmp (fun d => { d with grid := s.pil.ph.clk + 1 })
  (List.range 4).foldl (fun (q : State) i => q.putEv (0x10C0 + i) (s.pil.cap.trigPin.getLsbD i)) s1

/-- PLL_LOCK: the end of S1 (R377, R38, R63). -/
def execPllLock (s : State) : Answer :=
  .next (if s.pw.life = .starting && !s.pw.start.s1 then
      (s.modPh Phase.plclkStart).captureStart.modPw (fun p => { p with start := { p.start with s1 := true } })
    else s)

/-- RESET_RELEASE: the end of S2; the Firebox and the Hearthstone leave reset (R377). -/
def execResetRelease (s : State) : Answer :=
  .next (if s.pw.life = .starting && s.pw.start.s1 && s.pw.rails && !s.pw.start.s2 then
      (s.modPw (fun p => { p with start := { p.start with s2 := true } })).linkStart.syncMirror
    else s)

/-- The keys of Table 13.8 (R369): none once the vault epoch bit is burnt, in RETIRED or in INVALID. -/
def Otp.deriveKeys (o : Otp) : Keys :=
  let life := lifeOf o.thermo
  let e : List Byte := [0, 0, 0, 0]
  let drs := o.secret 8
  let pws := o.secret 9
  if o.epochBurnt ∨ life = 4 ∨ life = 7 then {}
  else
    { valid := true,
      vault := hmac drs ([0x56, 0x4B, 0x31] ++ e) ++ hmac drs ([0x56, 0x4B, 0x32] ++ e),
      sealKey := hmac drs ([0x53, 0x4B] ++ e),
      patchKey := hmac pws [0x50, 0x41, 0x54, 0x43, 0x48],
      openKey := hmac pws [0x4F, 0x50, 0x45, 0x4E] }

/-- S6 follows S3 and S5 (R369, R377). -/
def State.deriveWhenReady (s : State) : State :=
  let st := s.pw.start
  if st.s3 && st.s5 && !st.s6 then
    (s.modHs (fun h => ({ h with keys := h.otp.deriveKeys } : Hearth).openSecrets)).modPw (fun p => { p with start := { p.start with s6 := true } })
  else s

/-- Bits of a word programmed by up to four pulses each, with the outcome `o` (R358, R359, R360): a pulsed bit that
`o.unset` names stays as it was at normal margin, one that `o.weak` names stays 0 at strict margin. -/
def Otp.pulse (t : Otp) (a : Nat) (bits : BitVec 39) (o : FuseShot) : Otp :=
  let hit := bits &&& ~~~o.unset
  { t with norm := memWrite t.norm a (memRead t.norm a ||| hit),
           strict := memWrite t.strict a (memRead t.strict a ||| (hit &&& ~~~o.weak)) }

/-- The margins of a word differ. -/
def Otp.differs (t : Otp) (a : Nat) : Bool := memRead t.norm a ≠ memRead t.strict a
/-- The copies of the region 0 item that word `w` belongs to disagree with it (R360). -/
def Otp.disagrees (t : Otp) (w : Nat) : Bool :=
  let b := w / 3 * 3
  !(t.copy b = t.copy (b + 1) && t.copy b = t.copy (b + 2))
/-- The bits of copy `w` that the start read finishes (R360): of those whose majority is 1, the marginal ones and those that
read 0. -/
def Otp.toFinish (t : Otp) (w : Nat) : BitVec 39 :=
  ((((memRead t.norm w ^^^ memRead t.strict w).setWidth 32) ||| ~~~(t.copy w)) &&& t.item (w / 3 * 3)).setWidth 39

/-- The start read (R360): FUSE_STATUS and the repair of region 0. -/
def Otp.startRead (t : Otp) (o : FuseShot) : Otp :=
  let bad := (List.range 512).filter (fun a => t.differs a || (a < 9 && t.disagrees a))
  let t1 := { t with marginal := bad.length, lowest := bad.headD 0, done := true }
  if o.vfuse then (List.range 9).foldl (fun (u : Otp) w => u.pulse w (t.toFinish w) o) t1 else t1

/-- OTP_START_READ_DONE: the end of S3 (R360, R377). `o` is how the antifuses answer the repair. -/
def execOtpStartReadDone (o : FuseShot) (s : State) : Answer :=
  .next (if s.stepsRun && !s.pw.start.s3 then
      ((s.modHs (fun h => { h with otp := h.otp.startRead o })).laneSync.modPw
        (fun p => { p with start := { p.start with s3 := true } })).deriveWhenReady
    else s)

/-- The boot thread as S9 starts it: at the boot ROM's first address, at M level with MASK 7 and ESC set, arms disabled
(R384). -/
def Thread.boot (u : Thread) : Thread := { u with pc := 0xF0000, status := 0x000FC0, st := .ready, why := .none }

/-- S9 follows S4 and S5 (R377, R384): the boot thread starts on the lowest enabled core, unless a planned entry waits for
the end of the start (log entry 71). -/
def State.bootWhenReady (s : State) : State :=
  let st := s.pw.start
  if st.s4 && st.s5 && s.pw.life = .starting && s.pw.plan.isNone then
    match s.bootCore with
    | some c => (s.modTh (BitVec.ofNat 4 c) 0 Thread.boot).fetchLine (BitVec.ofNat 4 c) 0
    | none => s
  else s

/-- SWEEP_DONE: the end of S5 (R377). -/
def execSweepDone (s : State) : Answer :=
  .next (if s.stepsRun && !s.pw.start.s5 then
      (s.modPw (fun p => { p with start := { p.start with s5 := true } })).deriveWhenReady.bootWhenReady
    else s)

/-- A frame of a lane that is good: its GEN and its payload of `n` words (R362). -/
def goodFrame (lane n : Nat) (ws : List W32) : Option (Byte × List W32) :=
  match ws with
  | h :: r =>
    let pay := r.take n
    let bytes := ((h :: pay).map (fun w => leBytes 4 w.toNat)).flatten
    if r.length = n + 1 ∧ fieldN h 0 8 = 0xB4 ∧ fieldN h 8 4 = lane ∧ fieldN h 20 8 = n ∧ r.getLast? = some (crc32 bytes) then
      some (BitVec.ofNat 8 (fieldN h 12 8), pay)
    else none
  | [] => none

/-- A lane user sees a frame (R362): adoption by two that agree, safe values on a disagreement. -/
def LaneUser.see (u : LaneUser) (f : Option (Byte × List W32)) : LaneUser :=
  match f with
  | none => { u with lastGood := none }
  | some x =>
    if u.lastGood = some x then { lastGood := some x, held := some x }
    else
      match u.held with
      | some y => { lastGood := some x, held := if y.1 = x.1 ∧ y.2 ≠ x.2 then none else u.held }
      | none => { lastGood := some x, held := none }

/-- Payload word `w` of a held payload is marked invalid (Table 13.4). -/
def laneMarked (pay : List W32) (w : Nat) : Bool := (pay.headD 0).getLsbD (15 + w)

/-- The hold-up parameters that lane P carries (Table 10.3, Table 13.1); an invalid word leaves the safe value. -/
def laneHu (pay : List W32) : HoldUp :=
  if laneMarked pay 1 || laneMarked pay 2 || laneMarked pay 3 then {}
  else
    let x (i : Nat) : W32 := pay.getD i 0
    { c := fieldN (x 1) 0 16, vmin := fieldN (x 1) 16 16, vfail := fieldN (x 2) 0 16, scale := fieldN (x 2) 16 16,
      eff := fieldN (x 3) 0 8, odoRes := fieldN (x 3) 8 12 }

/-- The eight trims from payload word `w` on; one whose word is invalid stays at mid-scale (R361). -/
def laneTrims (pay : List W32) (w : Nat) : List (Option W32) :=
  (List.range 8).map (fun i => if laneMarked pay (w + i) then none else some (pay.getD (w + i) 0))

/-- What the users of a lane take from its held payload: the mask and the trims once in a start, the hold-up parameters
always (R274, R361, R362). -/
def State.adoptLanes (s : State) : State :=
  let l := s.hs.lanes
  let s1 := match l.f.held with
    | some x =>
      s.modHs (fun h => { h with lanes := { h.lanes with
        coreMask := some (l.coreMask.getD (if laneMarked x.2 1 then 0xFFFF else (x.2.getD 1 0xFFFF).setWidth 16)),
        fTrims := if l.coreMask.isNone then laneTrims x.2 2 else l.fTrims } })
    | none => s
  match l.p.held with
  | some x =>
    (s1.modHs (fun h => { h with lanes := { h.lanes with pTrims := if l.pTrims.isEmpty then laneTrims x.2 4 else l.pTrims } })).modDmp
      (fun d => { d with hu := laneHu x.2, huValid := true })
  | none => s1.modDmp (fun d => { d with hu := {}, huValid := false })

/-- FUSE_FRAME: the frame that the OTP controller sends on a lane arrives, with the bits of `errs` wrong; S4 ends once both
lanes are adopted, and S9 follows (R361, R362, R377). -/
def execFuseFrame (l : Lane) (errs : List (BitVec 32)) (s : State) : Answer :=
  .next (
    let on := match s.pw.life with | .running | .pfail | .vaultSafe => true | .starting => s.stepsRun && s.pw.start.s3 | _ => false
    if !on || s.sentFrame l = [] then s
    else
      let words := withErrors (s.sentFrame l) errs
      let s1 := match l with
        | .f => s.modHs (fun h => { h with lanes := { h.lanes with f := h.lanes.f.see (goodFrame 0 10 words) } })
        | .p => s.modHs (fun h => { h with lanes := { h.lanes with p := h.lanes.p.see (goodFrame 1 12 words) } })
      let s2 := s1.adoptLanes.rightsFrom s
      if s2.hs.lanes.coreMask.isSome && s2.hs.lanes.p.held.isSome && s2.pw.life = .starting && !s2.pw.start.s4 then
        (s2.modPw (fun p => { p with start := { p.start with s4 := true } })).bootWhenReady
      else s2)

/-- A start is under way; its boot ROM may have ended where it does not wait for the vault (R386). -/
def State.startOn (s : State) : Bool := s.pw.life = .starting || s.pw.life = .running

/-- A commit that a start finds without its COMMIT (R265, R268): one whose INTENT stands gets a TORN record and counts; one
that had not begun has left nothing. A torn seal record's cord is sealed again. -/
def State.tearCommit (s : State) (c : Commit) : State :=
  let s1 := if c.begun then
      (s.modHs (fun h => h.jput (h.jOf .torn c))).modVault (fun v => { v with torn := satInc v.torn })
    else s
  let s2 := s1.modVault (fun v => { v with logs := v.logs.filter (fun l => some l.seq ≠ c.seq) })
  match c.kind with
  | .sealRec no =>
    (s2.modSeal (fun e => { e with queue := e.queue.map (fun (x : Cord) => if x.no = no then { x with released := false } else x) })).modVault
      (fun v => { v with seals := v.seals.filter (fun x => x.cord ≠ no || x.durable) })
  | _ => s2
/-- Every commit that a start finds without its COMMIT, in the order of admission. -/
def State.tearCommits (s : State) : State := s.hs.vault.adm.foldl State.tearCommit s

/-- The newest journal record fails its CRC and is ignored (R268 step 1): an INTENT has not been written, and what it made
invalid stands; a LEAF leaves its log in no cord. A COMMIT that has been read back equal (R266) is no such record. -/
def State.badNewest (s : State) : State :=
  match s.hs.vault.journal.getLast? with
  | some r =>
    let drop (v : Vault) : Vault := { v with journal := v.journal.dropLast, jhd := v.jhd0 }
    match r.ty with
    | .intent =>
      s.modVault (fun v =>
        let u := (drop v).modAdm r.cid (fun c => { c with begun := false })
        { u with logs := u.goneL ++ u.logs, seals := u.goneS ++ u.seals, goneL := [], goneS := [] })
    | .leaf =>
      (s.modVault drop).modSeal (fun e =>
        { e with openCord := e.openCord.filter (fun l => some l.seq ≠ r.seq), waiting := e.openCord.filter (fun l => some l.seq = r.seq) ++ e.waiting })
    | .commit => s
    | .heads | .torn | .shutdown => s.modVault drop
  | none => s

/-- VAULT_RECOVERY: the end of S7 (R243, R252, R268, R377). `newestBad`: the newest journal record fails its CRC. -/
def execVaultRecovery (newestBad : Bool) (s : State) : Answer :=
  .next (if !(s.startOn && !s.pw.hostWait && s.pw.start.s3 && !s.pw.start.s7 && s.pw.start.kind ≠ .host) then s
    else
      let clean := !newestBad && (match s.hs.vault.journal.getLast? with | some r => decide (r.ty = .shutdown) | none => true)
      let s1 := (if newestBad then s.badNewest else s).tearCommits
      let s2 := (s1.modVault (fun v =>
        { v with hd := v.jhd, wait := [], adm := [], cur := none, goneL := [], goneS := [], retiring := [],
                 spares := v.spares + v.retiring.length, unclean := !clean })).modHs Hearth.jheads
      let s3 := (s2.modVault (fun v => { v with logs := v.logs.map s2.hs.se.unseal })).modSeal SealSt.recover
      ((s3.modPw (fun p => { p with start := { p.start with s7 := true } })).reindex.trySwitch.cords).syncDstate)

/-- The micrometres below a decimetre of the durable checkpoint with the highest ODO_DM, else 0 (R255, R378). -/
def Vault.remBest (v : Vault) : Nat :=
  let ls := v.logs.filter (fun l => l.durable && l.part = .odometer && leAt l.bytes 64 6 = v.odoBest)
  match ls.getLast? with
  | some l => if l.cls = 0x80 then leAt l.bytes 70 3 else 0
  | none => 0

/-- PILOT_START_LOAD: the end of S8 (R378). A HOST start changes nothing in the Pilot. -/
def execPilotStartLoad (s : State) : Answer :=
  .next (if !(s.startOn && s.pw.start.s7 && !s.pw.start.s8) then s
    else
      let s1 := s.modPw (fun p => { p with start := { p.start with s8 := true } })
      if s.pw.start.kind = .host then s1
      else
        let s1 := if s1.plinkUp then s1.hearPilot else s1
        let v := s.hs.vault
        let cells : Tab Cell 16 := match (if v.recSpoilt 0 then none else v.phaseRec) with
          | some l => Vector.ofFn (fun i => l.getD i.val 0)
          | none => s1.pil.ph.cfg
        let s2 := (s1.modPh (fun p => p.startLoad cells v.odoBest v.remBest)).syncMirror
        (s2.checkpoint (if s.pil.wk.req then 4 else 6)).modWk (fun w => { w with req := false }))

/-- A firmware slot as its record shows it; a record in a line with an uncorrectable error counts as none (R272, log entry
99). -/
def Vault.slotNow (v : Vault) (b : Bool) : FwSlot :=
  let f := if b then v.slotB else v.slotA
  { f with valid := f.valid && !v.ueLines.contains (0xD0 * 32 + b2n b) }

/-- The slots in the order in which the boot ROM tries them, true for slot B (R386). -/
def Vault.slotOrder (v : Vault) : List Bool :=
  let a := v.slotNow false
  let b := v.slotNow true
  let bFirst := b.valid && (!a.valid || decide (a.svn < b.svn) || (a.svn = b.svn && decide (a.wcount < b.wcount)))
  if bFirst then [true, false] else [false, true]

/-- The image bytes that the boot ROM reads from a slot (R386): LENGTH of a valid record, else as its header says. -/
def FwSlot.image (f : FwSlot) : List Byte :=
  f.bytes.take (if f.valid then f.len else 120 + fld f.bytes 14 2 + fld f.bytes 16 4)

/-- The lines from `first` on that `n` bytes take. -/
def lineRun (first n : Nat) : List Nat := (List.range (linesOf n)).map (fun i => first + i)

/-- The boot ROM's attempt at a slot (R272, R386): the status, and the state after the load. -/
def State.bootSlot (s : State) (b : Bool) : Byte × State :=
  let f := s.hs.vault.slotNow b
  let x := f.image
  let h := s.imageHead x x.length
  let st : Byte :=
    if s.hs.vault.spoilt (lineRun (if b then 0x60 * 32 else 0) x.length) then 0x0E
    else if f.valid && (f.id ≠ imageId x || f.len ≠ 120 + fld x 14 2 + fld x 16 4) then 0x10
    else if h ≠ 0 then h
    else if imageSigned x then 0 else 0x13
  if st ≠ 0 then (st, s.wipeImage)
  else
    let q := (s.putImage x).takeImage x (if b then 1 else 0)
    (0, if s.hs.vault.svnImg < imageSvn x then q.submit (.svnFloor 0 (imageSvn x)) else q)

/-- Step 3 of the boot ROM for one kind (R186 to R189, R386). -/
def State.bootBundle (s : State) (o : Bool) : State :=
  let b := if o then s.hs.vault.openB else s.hs.vault.patchB
  let r := s.bundleCheck b
  if r.1 ≠ 0 ∨ bundleOpen b ≠ o ∨ s.hs.vault.spoilt (lineRun (if o then 0xC8 * 32 else 0xC0 * 32) b.length) then s
  else
    let svn := fld b 12 2
    let s1 := { s with
      cores := s.cores.map (fun k => { k with cs := k.cs.install o (fld b 14 2) r.2 }),
      img := if o then { s.img with instOpen := b } else { s.img with instPatch := b } }
    if s.hs.vault.floorOf o < svn then s1.submit (.svnFloor (if o then 2 else 1) svn) else s1

/-- Step 4 of the boot ROM: both slots in their order until one runs (R386). -/
def State.bootSlots (s : State) : List Bool → State
  | [] => s
  | b :: r =>
    let x := s.bootSlot b
    let q := x.2.modPw (fun p => if b then { p with statB := x.1 } else { p with statA := x.1 })
    if x.1 = 0 then q else q.bootSlots r

/-- Step 5 of the boot ROM: the AUTOSTART entries (R386). -/
def State.bootThreads (s : State) : State :=
  s.img.threads.foldl (fun (q : State) e =>
    let c : CoreId := BitVec.ofNat 4 (fld e 0 1 / 8)
    let t : ThId := BitVec.ofNat 3 (fld e 0 1)
    if fld e 1 1 % 2 = 0 then q
    else if q.coreFailed c then q.modPw (fun p => { p with ignored := satInc p.ignored })
    else q.startThread c t (fld e 2 3) (some e)) s

/-- The boot thread once the boot ROM has ended: STOPPED (R386). -/
def Thread.halted (u : Thread) : Thread := { u with st := .stopped, why := .none, want := none, pk := 0, pacc := 0 }

/-- BOOT_ROM: S9 runs to its end, and the boot thread is STOPPED (R384 to R386, R388). -/
def execBootRom (s : State) : Answer :=
  .next (
    let st := s.pw.start
    let install := installState s.fLife
    let ready := s.pw.life = .starting && st.s2 && st.s4 && st.s5 && (!install || (st.s6 && (st.kind = .host || st.s7)))
    if !ready then s
    else
      match s.bootCore, s.pw.plan with
      | none, _ => s.bootEnds
      | some c, some _ => (s.modTh (BitVec.ofNat 4 c) 0 Thread.halted).bootEnds
      | some c, none =>
        let s1 := (s.modTh (BitVec.ofNat 4 c) 0 Thread.halted).modPw (fun p => { p with bootSrc := 0xFF, statA := 0xFF, statB := 0xFF, ignored := 0 })
        let s2 := if install then
            let q := ((s1.bootBundle false).bootBundle true).bootSlots s1.hs.vault.slotOrder
            q.bootThreads
          else s1
        ((s2.modPw (fun p => { p with bootSrc := s2.img.source })).bootEnds).syncDstate)

/-- RST_CTL_WRITE (R381, R464, R465). -/
def execRstCtlWrite (v : BitVec 32) (s : State) : Answer := .next (if s.barOn then s.rstCtl v else s)

end Sys2Proof.Machine
end

