-- ==== Sys2Proof/Machine/Rings.lean ====
section
/-! DEFINITION. Polling, descriptor fetch, completions' shadow writes and messages, and the export rings (sections 11.3
to 11.7, R319). -/

namespace Sys2Proof.Machine

/-- The Flue may issue reads and writes now (R286, R321, R377). -/
def State.flueTalks (s : State) : Bool := s.flueOn && s.fl.canTalk

/-- POLL: a poll starts (R296). -/
def execPoll (s : State) : Answer :=
  .next (
    let p := s.fl.poll
    let tick := s.fb.mir.tick
    if !s.flueTalks || !p.en || p.reading || !passed tick p.target then s
    else
      s.modFl (fun f =>
        { f with poll := { p with reading := true, target := tick + BitVec.ofNat 48 (if p.idleMode then p.idle.toNat else p.act.toNat) },
                 stats := f.stats.modify 0 (· + 1), l1 := false }))

/-- The part of the doorbell page that a poll compares (R292, R298): GEN and the indices. -/
def pageKey (b : List Byte) : List Byte := bytesAt b 0 4 ++ bytesAt b 0x10 0x50
/-- A 16-bit index of the page. -/
def pageIdx (b : List Byte) (off i : Nat) : BitVec 16 := BitVec.ofNat 16 (leAt b (off + 2 * i) 2)

/-- A host index is valid (R290): the occupancy is at most the size, and it moved forward by no more than the size. -/
def idxOk (size : BitVec 4) (prod cons old new : BitVec 16) : Bool :=
  decide ((prod - cons).toNat ≤ ringSize size) && decide ((new - old).toNat ≤ ringSize size)

/-- SQ `n` takes its tail from a poll (R290). -/
def State.pollSq (s : State) (b : List Byte) (n : Nat) : State :=
  let q := s.fl.sqs.get n
  let t := pageIdx b 0x10 n
  if !q.en || q.err then s
  else if idxOk q.size t q.head q.tail t then s.modFl (fun f => { f with sqs := f.sqs.set n { q with tail := t } })
  else s.ringErr (fun f => { f with sqs := f.sqs.set n { q with err := true } })

/-- CQ `n` takes its head from a poll. -/
def State.pollCq (s : State) (b : List Byte) (n : Nat) : State :=
  let q := s.fl.cqs.get n
  let h := pageIdx b 0x30 n
  if !q.en || q.err then s
  else if idxOk q.size q.tail h q.head h then s.modFl (fun f => { f with cqs := f.cqs.set n { q with head := h } })
  else s.ringErr (fun f => { f with cqs := f.cqs.set n { q with err := true } })

/-- BQ `n` takes its tail from a poll. -/
def State.pollBq (s : State) (b : List Byte) (n : Nat) : State :=
  let q := s.fl.eqs.get n
  let t := pageIdx b 0x50 n
  if !q.en || q.bqErr then s
  else if idxOk q.bqSize t q.bqHead q.bqTail t then s.modEq n (fun e => { e with bqTail := t })
  else s.ringErr (fun f => { f with eqs := f.eqs.set n { q with bqErr := true } })

/-- The records that a head passes are acknowledged (R311). A seal record's acknowledgement is kept with `prot` false. -/
def EqRing.ack (e : EqRing) (h : BitVec 16) : EqRing :=
  let past (x : ExpRec) : Bool := decide ((x.idx - e.head).toNat < (h - e.head).toNat)
  { e with head := h, recs := e.recs.filter (fun x => !past x),
           acked := e.acked ++ (e.recs.filter past).map (fun x => (x.prot && !x.isSeal, x.isSeal, x.val)) }

/-- EQ `n` takes its head from a poll (R290, R311). -/
def State.pollEq (s : State) (b : List Byte) (n : Nat) : State :=
  let q := s.fl.eqs.get n
  let h := pageIdx b 0x58 n
  if !q.en || q.err then s
  else if idxOk q.size q.tail h q.head h then (s.modEq n (fun e => e.ack h)).moveMarks n
  else s.ringErr (fun f => { f with eqs := f.eqs.set n { q with err := true } })

/-- A successful poll (R290, R298, R311). -/
def State.pollGood (s : State) (b : List Byte) : State :=
  let key := pageKey b
  let gen : BitVec 32 := BitVec.ofNat 32 (leAt b 0 4)
  let s1 := s.modFl (fun f =>
    let p := f.poll
    let g :=
      if p.prev = some key then
        { f with stats := f.stats.modify 1 (· + 1),
                 poll := { p with count := p.count + 1, idleMode := p.idleMode || decide (p.empty.toNat ≤ p.count + 1) } }
      else goActive f s.fb.mir.tick
    { g with gecho := gen, shadowDirty := f.shadowDirty || decide (gen ≠ f.gecho),
             poll := { g.poll with fails := 0, reading := false, prev := some key } })
  let s2 := (List.range 16).foldl (fun (q : State) n => (q.pollSq b n).pollCq b n) s1
  (List.range 4).foldl (fun (q : State) n => (q.pollBq b n).pollEq b n) s2

/-- A failed poll (R299). -/
def State.pollBad (s : State) : State :=
  let s1 := s.modFl (fun f =>
    let g := goActive f s.fb.mir.tick
    let n := f.poll.fails + 1
    { g with stats := f.stats.modify 2 (· + 1),
             poll := { g.poll with fails := n, reading := false, en := f.poll.en && decide (n < 8),
                                   halt := f.poll.halt || decide (8 ≤ n) } })
  s1.syncDstate

/-- POLL_COMPLETE: the poll's read ends (R298, R299). -/
def execPollComplete (r : Option (List Byte)) (s : State) : Answer :=
  .next (if !s.fl.poll.reading || !s.flueOn then s
    else match r with
      | some b => s.pollGood b
      | none => s.pollBad)

/-- The completion slots of CQ `n` that fetched commands hold (R303). -/
def State.reserved (s : State) (n : Nat) : Nat :=
  (s.fl.sqs.toList.map (fun q => if q.cq.toNat = n then
    q.fetched.length + q.begun.length + (match q.rd with | some x => x.2.1 | none => 0) else 0)).sum
/-- The commands fetched and not completed, over all SQs (R303). -/
def State.inFlight (s : State) : Nat :=
  (s.fl.sqs.toList.map (fun q => q.fetched.length + q.begun.length + (match q.rd with | some x => x.2.1 | none => 0))).sum

/-- The descriptors that a burst of SQ `n` would fetch now (R303). -/
def State.burst (s : State) (n : Nat) : Nat :=
  let q := s.fl.sqs.get n
  let c := s.fl.cqs.get q.cq.toNat
  if !q.en || q.err || q.rd.isSome || !c.en || c.err then 0
  else
    let avail := (q.tail - q.head).toNat
    let atEnd := ringSize q.size - q.head.toNat % ringSize q.size
    let room := ringSize c.size - ((c.tail - c.head).toNat + s.reserved q.cq.toNat)
    min 16 (min avail (min atEnd (min room (128 - s.inFlight))))

/-- The SQ whose turn it is (R303). -/
def State.sqTurn (s : State) : Option Nat :=
  (firstIdx (fun i => 0 < s.burst ((s.fl.rrSq + 1 + i) % 16)) 16).map (fun i => (s.fl.rrSq + 1 + i) % 16)

/-- DESCRIPTOR_FETCH: the burst of the SQ whose turn it is (R303). A planned entry fetches none (R390). -/
def execDescriptorFetch (sq : BitVec 4) (s : State) : Answer :=
  .next (
    let n := sq.toNat
    if !s.flueTalks || s.pw.plan.isSome || s.sqTurn ≠ some n then s
    else
      s.modFl (fun f =>
        { f with sqs := f.sqs.modify n (fun q => { q with rd := some (q.head, s.burst n, false) }), rrSq := n, l1 := false }))

/-- The descriptors in the bytes of a burst. -/
def parseDescs : Nat → Nat → List Byte → List Desc
  | 0, _, _ => []
  | n + 1, ord, b => { bytes := bytesAt b 0 32, ord := ord } :: parseDescs n (ord + 1) (b.drop 32)

/-- DESCRIPTOR_READ_COMPLETE (R291, R303, R307). -/
def execDescriptorReadComplete (sq : BitVec 4) (r : Option (List Byte)) (s : State) : Answer :=
  .next (
    let n := sq.toNat
    let q := s.fl.sqs.get n
    match q.rd, r with
    | some (i, k, _), some b =>
      if q.rdHeld && !s.fl.canTalk then s
      else s.modFl (fun f =>
        { f with shadowDirty := true,
                 sqs := f.sqs.set n { q with rd := none, rdHeld := false, head := i + BitVec.ofNat 16 k, nextOrd := q.nextOrd + k,
                                             fetched := q.fetched ++ parseDescs k q.nextOrd b } })
    | some (i, k, false), none =>
      s.modFl (fun f => { f with sqs := f.sqs.set n { q with rd := some (i, k, true), rdHeld := !f.canTalk } })
    | some (_, _, true), none =>
      if q.rdHeld && !s.fl.canTalk then s
      else s.ringErr (fun f => { f with sqs := f.sqs.set n { q with rd := none, rdHeld := false, err := true } })
    | none, _ => s)

/-- The log with a SEQ, as an export reads it. -/
def Vault.logPart (v : Vault) (seq : Nat) : List ExpPart :=
  match v.logs.find? (fun l => l.seq = seq) with
  | some l => [{ isSeal := false, plain := !closesCord l.cls.toNat, val := seq, cls := l.cls, flags := l.flags, bytes := l.bytes }]
  | none => []
/-- The bytes of a seal record (R260). -/
def VSeal.record (x : VSeal) : List Byte := x.sealBytes ++ indexBytes x.leaves
/-- The seal record of a cord, as an export reads it. -/
def Vault.sealPart (v : Vault) (cord : Nat) : List ExpPart :=
  match v.seals.find? (fun x => x.cord = cord) with
  | some x => [{ isSeal := true, plain := !x.leaves.any (fun l => closesCord l.cls.toNat), val := cord, bytes := x.record }]
  | none => []

/-- What an item exports on an EQ (R309): a protected log is followed by its cord's seal record unless the EQ has
exported that already. -/
def State.itemParts (s : State) (e : EqRing) (i : Item) : List ExpPart :=
  let v := s.hs.vault
  let seen (k : Nat) : Bool := e.sealsDone.contains k || (match e.marks.c with | some m => decide (k ≤ m) | none => false)
  match i with
  | .log q => v.logPart q
  | .pair q k => v.logPart q ++ (if seen k then [] else v.sealPart k)
  | .sealRec k => if seen k then [] else v.sealPart k

/-- The buffers that parts need (R308). -/
def partBufs (e : EqRing) (p : ExpPart) : Nat := (p.bytes.length + 2 ^ e.bufLog.toNat - 1) / 2 ^ e.bufLog.toNat

/-- The item at the head of a queue can start (R291, R308): credits and record entries are there. -/
def EqRing.canStart (e : EqRing) (ps : List ExpPart) : Bool :=
  decide ((ps.map (partBufs e)).sum ≤ (e.bqTail - e.bqHead).toNat) &&
  decide ((e.tail - e.head).toNat + ps.length ≤ ringSize e.size)

/-- EXPORT_START: the first item that can start, of the protected queue before the rolling queue (R308, R309). An item
that has nothing left to export goes. It reads the vault over the hearth link (R15), and the read of its BQ entries brings
the link out of L1 (R320). -/
def execExportStart (q : BitVec 2) (s : State) : Answer :=
  .next (
    let n := q.toNat
    let e := s.fl.eqs.get n
    if !s.flueTalks || !e.en || e.err || e.bqErr || e.run.isSome || !s.hearthUp then s
    else
      let go (prot : Bool) (i : Item) (ps : List ExpPart) : State :=
        (s.modFl (fun f => { f with l1 := f.l1 && ps.isEmpty })).modEq n (fun e =>
          { e with protQ := if prot then e.protQ.drop 1 else e.protQ, rollQ := if prot then e.rollQ else e.rollQ.drop 1,
                   run := if ps.isEmpty then none
                     else some { item := i, prot := prot, parts := ps, need := (ps.map (partBufs e)).sum, first := e.bqHead } })
      let roll : State := match e.rollQ with
        | i :: _ => if e.canStart (s.itemParts e i) then go false i (s.itemParts e i) else s
        | [] => s
      match e.protQ with
      | i :: _ => if e.canStart (s.itemParts e i) then go true i (s.itemParts e i) else roll
      | [] => roll)

/-- The item of a run goes back to the head of its queue. -/
def EqRing.requeue (e : EqRing) (r : ExpRun) : EqRing :=
  { e with run := none, protQ := if r.prot then r.item :: e.protQ else e.protQ, rollQ := if r.prot then e.rollQ else r.item :: e.rollQ }

/-- A BQ entry can be used (R306). -/
def bqEntryOk (b : List Byte) (i : Nat) : Bool := leAt b (16 * i) 8 % 256 = 0 && leAt b (16 * i + 12) 4 = 0

/-- A part's bytes go into its buffers in order, in writes of 256 bytes (R284, R308, R309). -/
def putBufs (size : Nat) : List (BitVec 64) → List Byte → List (BitVec 64 × List Byte)
  | [], _ => []
  | a :: r, l => if l.isEmpty then [] else splitWrites size a (l.take size) ++ putBufs size r (l.drop size)

/-- The writes of an item's data: those of its parts one after the other, each in buffers of its own (R308). -/
def EqRing.dataWrites (e : EqRing) : List ExpPart → List (BitVec 64) → List (BitVec 64 × List Byte)
  | [], _ => []
  | p :: r, bufs => putBufs (2 ^ e.bufLog.toNat) (bufs.take (partBufs e p)) p.bytes ++ e.dataWrites r (bufs.drop (partBufs e p))

/-- BQ_FETCH_COMPLETE: the read of an item's BQ entries ends (R306 to R308). -/
def execBqFetchComplete (q : BitVec 2) (r : Option (List Byte)) (s : State) : Answer :=
  .next (
    let n := q.toNat
    let e := s.fl.eqs.get n
    match e.run with
    | none => s
    | some x =>
      if x.rd || !s.flueOn || (x.held && !s.fl.canTalk) then s
      else
        let fails (head : BitVec 16) : State :=
          s.ringErr (fun f => { f with eqs := f.eqs.set n { (e.requeue x) with bqHead := head, err := true, bqErr := true } })
        match r with
        | none =>
          if x.retry then fails e.bqHead
          else s.modEq n (fun e => { e with run := some { x with retry := true, held := !s.fl.canTalk } })
        | some b =>
          match firstIdx (fun i => !bqEntryOk b i) x.need with
          | some i => fails (x.first + BitVec.ofNat 16 i)
          | none =>
            let bufs := (List.range x.need).map (fun i => BitVec.ofNat 64 (leAt b (16 * i) 8))
            let e1 := { e with bqHead := x.first + BitVec.ofNat 16 x.need,
                               run := some { x with rd := true, held := false, data := e.dataWrites x.parts bufs } }
            s.modFl (fun f => { f with shadowDirty := true, eqs := f.eqs.set n e1 }))

/-- The export data that EQ `n` may write now: its ring is not in error (R290). -/
def EqRing.toWrite (e : EqRing) : List (BitVec 64 × List Byte) :=
  match e.run with
  | some x => if e.err then [] else x.data
  | none => []

/-- The EQs share the link round-robin, a write of 256 bytes at a time (R309): one write of the EQ whose turn it is. -/
def Flue.exportWrite (f : Flue) : Flue :=
  match firstIdx (fun i => !(f.eqs.get ((f.rrEq + 1 + i) % 4)).toWrite.isEmpty) 4 with
  | none => f
  | some i =>
    let n := (f.rrEq + 1 + i) % 4
    match (f.eqs.get n).toWrite with
    | w :: _ =>
      { (f.emit (.write w.1 w.2)) with
        rrEq := n,
        eqs := f.eqs.modify n (fun e => { e with run := e.run.map (fun x => { x with data := x.data.drop 1 }) }) }
    | [] => f

/-- Export data is written until EQ `n` has none left; `fuel` bounds the writes. -/
def Flue.exportUntil (n : Nat) : Nat → Flue → Flue
  | 0, f => f
  | k + 1, f => if (f.eqs.get n).toWrite.isEmpty then f else f.exportWrite.exportUntil n k

/-- The writes of export data still to come. -/
def Flue.exportLeft (f : Flue) : Nat := (f.eqs.toList.map (fun e => e.toWrite.length)).sum

/-- The export record of a part (Table 11.8). -/
def exportBytes (e : EqRing) (p : ExpPart) (first : BitVec 16) (k : Nat) : List Byte :=
  leBytes 2 first.toNat ++ leBytes 2 k ++ leBytes 4 p.bytes.length ++ leBytes 6 p.val ++ [p.cls, if p.isSeal then 2 else 1] ++
    leBytes 2 p.flags.toNat ++ leBytes 2 e.lost.toNat ++ List.replicate 11 0 ++ [BitVec.ofNat 8 (phaseBit e.tail e.size)]

/-- The export record of a part is written on EQ `n` (R310); that of a protected log or of its seal record is announced
without moderation. -/
def Flue.exportPart (f : Flue) (n : Nat) (prot : Bool) (p : ExpPart) (tick : Dbl) : Flue :=
  match (f.eqs.get n).run with
  | none => f
  | some x =>
    let e := f.eqs.get n
    let k := partBufs e p
    let due := dueNow e.coalCnt e.coalTime e.since p.plain
    let g := f.emit (.write (entryAddr e.base e.tail e.size 32) (exportBytes e p x.first k))
    { (goActive g tick) with
      shadowDirty := true, stats := f.stats.modify 4 (· + 1),
      msixWait := if due then g.msixWait ++ [e.vec.toNat] else g.msixWait,
      eqs := g.eqs.set n
        { e with tail := e.tail + 1, since := if due then 0 else e.since + 1, first := if e.since = 0 then tick else e.first, lost := 0,
                 recs := e.recs ++ [{ idx := e.tail, prot := prot, isSeal := p.isSeal, val := p.val }],
                 sealsDone := if p.isSeal then e.sealsDone ++ [p.val] else e.sealsDone,
                 run := some { x with first := x.first + BitVec.ofNat 16 k } } }

/-- The logs among parts have been exported on EQ `n` (R311). -/
def Vault.exported (v : Vault) (n : Nat) (ps : List ExpPart) : Vault :=
  { v with logs := v.logs.map (fun l =>
      if ps.any (fun p => !p.isSeal && p.val = l.seq) && !l.exps.contains n then { l with exps := l.exps ++ [n] } else l) }

/-- EXPORT_RECORD: the rest of an item's data is written, in turn with that of the other EQs, and then its records (R308 to
R310); an EQ that was disabled meanwhile is STOPPED (R317). A ring in error is not written to (R290). -/
def execExportRecord (q : BitVec 2) (s : State) : Answer :=
  .next (
    let n := q.toNat
    match (s.fl.eqs.get n).run with
    | none => s
    | some x =>
      if !x.rd || !s.flueTalks || (s.fl.eqs.get n).err then s
      else
        (s.modFl (fun f =>
          let g := x.parts.foldl (fun (g : Flue) p => g.exportPart n x.prot p s.fb.mir.tick) (f.exportUntil n f.exportLeft)
          { g with eqs := g.eqs.modify n (fun e => { e with run := none, stopped := e.stopped || e.stopping, stopping := false }) })).modVault
          (fun v => v.exported n x.parts))

/-- A bit mask of those of `n` rings that satisfy `p`. -/
def errMask (n : Nat) (p : Nat → Bool) : Nat := ((List.range n).map (fun i => b2n (p i) * 2 ^ i)).sum

/-- The shadow page (Table 11.5). -/
def State.shadowPage (s : State) (sgen : BitVec 32) : List Byte :=
  let f := s.fl
  leBytes 4 sgen.toNat ++ leBytes 4 f.gecho.toNat ++ leBytes 4 f.evcnt.toNat ++ leBytes 4 s.dstate.toNat ++
  (f.sqs.toList.map (fun q => leBytes 2 q.head.toNat)).flatten ++ (f.cqs.toList.map (fun q => leBytes 2 q.tail.toNat)).flatten ++
  (f.eqs.toList.map (fun q => leBytes 2 q.bqHead.toNat)).flatten ++ (f.eqs.toList.map (fun q => leBytes 2 q.tail.toNat)).flatten ++
  (f.eqs.toList.map (fun q => leBytes 4 q.rollLost.toNat)).flatten ++ leBytes 2 f.pdenied.toNat ++
  leBytes 2 (errMask 16 (fun i => (f.sqs.get i).err)) ++ leBytes 2 (errMask 16 (fun i => (f.cqs.get i).err)) ++
  leBytes 1 (errMask 4 (fun i => (f.eqs.get i).err) + 16 * errMask 4 (fun i => (f.eqs.get i).bqErr)) ++ List.replicate 137 0

/-- SHADOW_WRITE: the shadow page is written, and then the messages that waited for it are sent (R288, R295), and an SQ whose
disable waited for it is STOPPED (R315). Without a shadow page address there is no page yet. -/
def execShadowWrite (s : State) : Answer :=
  .next (if !s.flueTalks || s.fl.shAddr = 0 || !s.fl.shadowDirty then s
    else
      let n := s.fl.sgen + 1
      let pg := s.shadowPage n
      s.modFl (fun f =>
        let g := { f with sgen := n, shadowDirty := false, msixWait := [], sqs := f.sqs.map SqRing.shadowed }
        f.msixWait.foldl Flue.sendVec (g.emit (.write f.shAddr pg))))

/-- A vector that becomes due is sent now, or after the shadow write that is still to come (R295). -/
def Flue.vecDue (f : Flue) (v : Nat) : Flue := if f.shadowDirty then { f with msixWait := f.msixWait ++ [v] } else f.sendVec v

/-- COALESCE_TIMER: COAL_TIME has passed since the first entry that no message has announced (R304, R305). -/
def execCoalesceTimer (q : VecRing) (s : State) : Answer :=
  .next (match q with
    | .cq n =>
      let c := s.fl.cqs.get n.toNat
      if c.since = 0 ∨ c.coalTime = 0 ∨ (s.fb.mir.tick - c.first).toNat < c.coalTime.toNat then s
      else s.modFl (fun f => ({ f with cqs := f.cqs.set n.toNat { c with since := 0 } } : Flue).vecDue c.vec.toNat)
    | .eq n =>
      let e := s.fl.eqs.get n.toNat
      if e.since = 0 ∨ e.coalTime = 0 ∨ (s.fb.mir.tick - e.first).toNat < e.coalTime.toNat then s
      else s.modFl (fun f => ({ f with eqs := f.eqs.set n.toNat { e with since := 0 } } : Flue).vecDue e.vec.toNat))

/-- The EQs whose marks differ from those recorded or on their way (R311). -/
def State.changedMarks (s : State) : List (Nat × Marks) :=
  let v := s.hs.vault
  (List.range 4).filterMap (fun n =>
    let m := (s.fl.eqs.get n).marks
    if m = {} || m = v.marks.get n || v.has (fun k => decide (k = .marks n m)) then none else some (n, m))

/-- 2^20 ticks have passed since the last periodic write of marks, or there was none since the reset (R311). -/
def State.markDue (s : State) : Bool :=
  match s.fl.markTick with | none => true | some t => decide (2 ^ 20 ≤ (s.fb.mir.tick - t).toNat)

/-- EXPORT_MARK_WRITE: the marks that have changed are written to CONFIG (R311). -/
def execExportMarkWrite (s : State) : Answer :=
  .next (if !s.flueOn || !s.vaultOn || s.fb.hearth.down || s.changedMarks.isEmpty || !s.markDue then s
    else
      (s.changedMarks.foldl (fun (q : State) x => q.submit (.marks x.1 x.2)) s).modFl (fun f => { f with markTick := some s.fb.mir.tick }))

/-- The items of a newly enabled EQ (R309, R318, R319): protected logs with a released seal, then the other covered logs
in SEQ order and the seal records in cord order, all above the marks and not acknowledged. What another EQ is writing now
stays with that one, and what waits on another EQ that no longer covers it leaves its queues (R305). -/
def State.rebuild (s : State) (n : Nat) : State :=
  let v := s.hs.vault
  let e := s.fl.eqs.get n
  let m := if e.marks = {} then v.marks.get n else e.marks
  let above (o : Option Nat) (x : Nat) : Bool := match o with | some y => decide (y < x) | none => true
  let away (q : Bool) (k : Nat) : Bool := s.fl.eqs.toList.any (fun x => match x.run with | some r => r.parts.any (fun p => p.isSeal = q && p.val = k) | none => false)
  let mine (l : VLog) : Bool := l.durable && s.eqFor (selBit l.cls.toNat) = some n && (l.part ≠ .prot || decide (v.relBound ≤ l.start)) &&
    !away false l.seq
  let pl := v.logs.filter (fun l => mine l && markProt l.cls && l.sealed && above m.p l.seq && !e.acked.contains (true, false, l.seq))
  let rl := v.logs.filter (fun l => mine l && !markProt l.cls && above m.r l.seq && !e.acked.contains (false, false, l.seq))
  let paired (x : VSeal) : Bool := pl.any (fun l => l.cord = some x.cord)
  let sl := v.seals.filter (fun x => s.carriesSeal n x && above m.c x.cord && !e.acked.contains (false, true, x.cord) && !paired x)
  let stays (k : Nat) (i : Item) : Bool :=
    match i with
    | .log q | .pair q _ => v.logs.all (fun l => l.seq ≠ q || s.eqFor (selBit l.cls.toNat) = some k)
    | .sealRec _ => s.eqFor 3 = some k
  let s1 := (List.range 4).foldl (fun (q : State) k =>
    if k = n then q else q.modEq k (fun e => { e with protQ := e.protQ.filter (stays k), rollQ := e.rollQ.filter (stays k) })) s
  s1.modEq n (fun e =>
    { e with marks := m, sealsDone := (e.acked.filter (fun a => a.2.1)).map (·.2.2), recs := [], run := none,
             protQ := pl.map (fun l => .pair l.seq (l.cord.getD 0)),
             rollQ := rl.map (fun l => .log l.seq) ++ sl.map (fun x => .sealRec x.cord) })

end Sys2Proof.Machine
end

