-- ==== Sys2Proof/Machine/Regs.lean ====
section
/-! DEFINITION. The setup registers of BAR0 (sections 18.1 to 18.5), enabling and disabling rings (section 11.8), the
MSI-X table, and the host's control of the endpoint (R286, R320, R321, R381). -/

namespace Sys2Proof.Machine

/-- The highest die temperature, signed (R456, R464). -/
def Power.tj (p : Power) : Byte := p.temp.toList.foldl (fun m x => if m.toInt < x.toInt then x else m) (p.temp.get 0)

/-- The CFG register of an SQ (Table 18.5). -/
def SqRing.cfg (q : SqRing) : Nat :=
  b2n q.en + 2 * q.size.toNat + 2 ^ 5 * q.cq.toNat + 2 ^ 9 * b2n q.stopped + 2 ^ 28 * q.cfgerr.toNat
/-- The CFG register of a CQ. -/
def CqRing.cfg (q : CqRing) : Nat :=
  b2n q.en + 2 * q.size.toNat + 2 ^ 5 * q.vec.toNat + 2 ^ 9 * q.coalCnt.toNat + 2 ^ 17 * q.coalTime.toNat + 2 ^ 28 * q.cfgerr.toNat
/-- The CFG register of an EQ. -/
def EqRing.cfg (q : EqRing) : Nat :=
  b2n q.en + 2 * q.size.toNat + 2 ^ 5 * q.vec.toNat + 2 ^ 9 * q.coalCnt.toNat + 2 ^ 17 * q.coalTime.toNat + 2 ^ 28 * q.cfgerr.toNat

/-- A 64-bit field with its value in force, by the offset of its lower dword. -/
def State.bar64Fld (s : State) (o : Nat) : Option (BitVec 64) :=
  if o = 0x018 then some (s.pil.wk.tick.setWidth 64)
  else if o = 0x040 then some s.fl.dbAddr
  else if o = 0x048 then some s.fl.shAddr
  else if 0x100 ≤ o ∧ o < 0x200 ∧ o % 16 = 0 then some (s.fl.sqs.get ((o - 0x100) / 16)).base
  else if 0x200 ≤ o ∧ o < 0x300 ∧ o % 16 = 0 then some (s.fl.cqs.get ((o - 0x200) / 16)).base
  else if 0x300 ≤ o ∧ o < 0x380 ∧ o % 32 = 0 then some (s.fl.eqs.get ((o - 0x300) / 32)).base
  else if 0x300 ≤ o ∧ o < 0x380 ∧ o % 32 = 16 then some (s.fl.eqs.get ((o - 0x300) / 32)).bqBase
  else none

/-- A BAR0 read of the dword at offset `o` (R462 to R468, Tables 18.1 to 18.5). No read has a side effect. -/
def State.barRead (s : State) (o : Nat) : BitVec 32 :=
  let f := s.fl
  let t := s.hs.otp
  let n32 (n : Nat) : BitVec 32 := BitVec.ofNat 32 n
  let ms (i : Nat) : MsixEntry := f.msix.get i
  match s.bar64Fld (o / 8 * 8) with
  | some v => if o % 8 = 0 then v.setWidth 32 else (v >>> 32).setWidth 32
  | none =>
    if o = 0x000 then n32 (0x01000316 + 2 ^ 16 * Config.rev.toNat)
    else if o = 0x004 then n32 (s.dstate.toNat + 2 ^ 22 * b2n s.bootDone)
    else if o = 0x010 then n32 (b2n s.pil.wk.ready + 4 * b2n s.pil.wk.wake + 8 * s.pil.wk.cause.toNat)
    else if o = 0x020 then n32 s.pil.wk.stbyWake.toNat
    else if o = 0x024 then
      n32 (s.pw.bootSrc.toNat + 2 ^ 8 * s.pw.statA.toNat + 2 ^ 16 * s.pw.statB.toNat + 2 ^ 24 * s.pw.ignored.toNat)
    else if o = 0x028 then n32 (s.pw.tj.toNat + 2 ^ 8 * s.pw.warn.toNat + 2 ^ 11 * s.pw.throt.toNat)
    else if o = 0x02C then n32 s.pw.throttle.toNat
    else if o = 0x030 then n32 (2 ^ 4 * t.cmdRegion.toNat + 2 ^ 8 * t.cmdWord.toNat + 2 ^ 31 * b2n t.busy.isSome)
    else if o = 0x034 then t.data
    else if o = 0x038 then n32 (t.result.toNat + 2 ^ 4 * t.cause.toNat + 2 ^ 7 * b2n t.valid)
    else if o = 0x03C then n32 (t.marginal + 2 ^ 16 * t.lowest + 2 ^ 31 * b2n t.done)
    else if o = 0x050 then n32 (b2n f.poll.en + 2 ^ 8 * f.poll.act.toNat + 2 ^ 16 * f.poll.idle.toNat)
    else if o = 0x054 then n32 f.poll.empty.toNat
    else if o = 0x058 then n32 f.evtVec.toNat
    else if 0x100 ≤ o ∧ o < 0x200 ∧ o % 16 = 8 then n32 (f.sqs.get ((o - 0x100) / 16)).cfg
    else if 0x200 ≤ o ∧ o < 0x300 ∧ o % 16 = 8 then n32 (f.cqs.get ((o - 0x200) / 16)).cfg
    else if 0x300 ≤ o ∧ o < 0x380 then
      let e := f.eqs.get ((o - 0x300) / 32)
      if o % 32 = 8 then n32 e.cfg
      else if o % 32 = 0x0C then n32 (e.sel.toNat + 2 ^ 4 * b2n e.stopped)
      else if o % 32 = 0x18 then n32 (2 * e.bqSize.toNat + 2 ^ 5 * e.bufLog.toNat)
      else 0
    else if 0x800 ≤ o ∧ o < 0x900 then
      let m := ms ((o - 0x800) / 16)
      if o % 16 = 0 then m.lo else if o % 16 = 4 then m.hi else if o % 16 = 8 then m.data else m.ctl
    else if o = 0x900 then f.pend.setWidth 32
    else 0

/-- SIZE_LOG2 is in range (R468). -/
def sizeOk (z : Nat) : Bool := decide (4 ≤ z) && decide (z ≤ 12)

/-- SQ `n` starts (R314): its own index is 0, the host's comes with the next poll. -/
def Flue.sqOn (f : Flue) (n : Nat) : Flue :=
  { f with shadowDirty := true, sqs := f.sqs.modify n (fun q =>
      { q with en := true, err := false, stopped := false, stopping := false, head := 0, tail := 0, rd := none, rdHeld := false, cfgerr := 0 }) }
/-- CQ `n` starts (R314). -/
def Flue.cqOn (f : Flue) (n : Nat) : Flue :=
  { f with shadowDirty := true, cqs := f.cqs.modify n (fun q =>
      { q with en := true, err := false, head := 0, tail := 0, since := 0, cfgerr := 0 }) }
/-- EQ `n` starts with its BQ, and its queues are rebuilt (R314, R317, R319). -/
def State.eqOn (s : State) (n : Nat) : State :=
  (s.modFl (fun f => { f with shadowDirty := true, eqs := f.eqs.modify n (fun q =>
      { q with en := true, err := false, bqErr := false, stopped := false, stopping := false, head := 0, tail := 0, bqHead := 0,
               bqTail := 0, since := 0, cfgerr := 0 }) })).rebuild n

/-- A fetched command that never begins completes with RING_STOPPED (R315). -/
def Flue.ringStopped (f : Flue) (n : Nat) (tick : Dbl) (d : Desc) : Flue :=
  f.postCq { tag := 0, sq := n, cid := BitVec.ofNat 16 (leAt d.bytes 2 2), ord := d.ord, op := BitVec.ofNat 8 (d.byte 0), status := 0x05 } tick

/-- SQ `n` stops (R315); it is STOPPED with the next shadow write, or at once where there is no shadow page. -/
def State.sqOff (s : State) (n : Nat) : State :=
  s.modFl (fun f =>
    let g := (f.sqs.get n).fetched.foldl (fun (g : Flue) d => g.ringStopped n s.fb.mir.tick d) f
    { g with shadowDirty := true, sqs := g.sqs.modify n (fun q =>
      let r := { q with en := false, rd := none, rdHeld := false, fetched := [], stopping := true, stopped := false }
      if f.shAddr = 0 then r.shadowed else r) })

/-- CQ `n` stops unless an SQ bound to it is enabled or not yet STOPPED (R316). -/
def State.cqOff (s : State) (n : Nat) : State :=
  s.modFl (fun f =>
    let busy := f.sqs.toList.any (fun q => q.cq.toNat = n && (q.en || q.stopping))
    { f with shadowDirty := true, cqs := f.cqs.modify n (fun q => if busy then { q with cfgerr := 5 } else { q with en := false }) })

/-- EQ `n` stops with its BQ: an item whose data is being written is finished, the others stay in the vault (R317). -/
def State.eqOff (s : State) (n : Nat) : State :=
  s.modFl (fun f => { f with shadowDirty := true, eqs := f.eqs.modify n (fun q =>
    let busy := match q.run with | some x => x.rd && !q.err | none => false
    { q with en := false, protQ := [], rollQ := [], run := if busy then q.run else none, stopping := busy, stopped := !busy }) })

/-- A write of an SQ's CFG (R462, R468, R469, Table 18.6). -/
def State.cfgSq (s : State) (n : Nat) (v : BitVec 32) : State :=
  let q := s.fl.sqs.get n
  let z := fieldN v 1 4
  let c := fieldN v 5 4
  let put (g : SqRing → SqRing) : State := s.modFl (fun f => { f with sqs := f.sqs.modify n g })
  if q.en then
    let s1 := put (fun q => { q with cfgerr := if z = q.size.toNat ∧ c = q.cq.toNat then 0 else 6 })
    if v.getLsbD 0 then s1 else s1.sqOff n
  else
    let code : BitVec 4 := if !v.getLsbD 0 then 0 else if !sizeOk z then 2 else if !(s.fl.cqs.get c).en then 3 else 0
    let s1 := put (fun q => { q with size := if sizeOk z then BitVec.ofNat 4 z else q.size, cq := BitVec.ofNat 4 c, cfgerr := code })
    if v.getLsbD 0 && code = 0 then s1.modFl (fun f => f.sqOn n) else s1

/-- A write of a CQ's CFG. -/
def State.cfgCq (s : State) (n : Nat) (v : BitVec 32) : State :=
  let q := s.fl.cqs.get n
  let z := fieldN v 1 4
  let put (g : CqRing → CqRing) : State := s.modFl (fun f => { f with cqs := f.cqs.modify n g })
  if q.en then
    let same := z = q.size.toNat ∧ fieldN v 5 4 = q.vec.toNat ∧ fieldN v 9 8 = q.coalCnt.toNat ∧ fieldN v 17 10 = q.coalTime.toNat
    let s1 := put (fun q => { q with cfgerr := if same then 0 else 6 })
    if v.getLsbD 0 then s1 else s1.cqOff n
  else
    let code : BitVec 4 := if v.getLsbD 0 && !sizeOk z then 2 else 0
    let s1 := put (fun q => { q with size := if sizeOk z then BitVec.ofNat 4 z else q.size, vec := BitVec.ofNat 4 (fieldN v 5 4),
                                     coalCnt := BitVec.ofNat 8 (fieldN v 9 8), coalTime := BitVec.ofNat 10 (fieldN v 17 10), cfgerr := code })
    if v.getLsbD 0 && code = 0 then s1.modFl (fun f => f.cqOn n) else s1

/-- A write of an EQ's CFG. -/
def State.cfgEq (s : State) (n : Nat) (v : BitVec 32) : State :=
  let q := s.fl.eqs.get n
  let z := fieldN v 1 4
  if q.en then
    let same := z = q.size.toNat ∧ fieldN v 5 4 = q.vec.toNat ∧ fieldN v 9 8 = q.coalCnt.toNat ∧ fieldN v 17 10 = q.coalTime.toNat
    let s1 := s.modEq n (fun q => { q with cfgerr := if same then 0 else 6 })
    if v.getLsbD 0 then s1 else s1.eqOff n
  else
    let code : BitVec 4 := if v.getLsbD 0 && !sizeOk z then 2 else 0
    let s1 := s.modEq n (fun q => { q with size := if sizeOk z then BitVec.ofNat 4 z else q.size, vec := BitVec.ofNat 4 (fieldN v 5 4),
                                           coalCnt := BitVec.ofNat 8 (fieldN v 9 8), coalTime := BitVec.ofNat 10 (fieldN v 17 10), cfgerr := code })
    if v.getLsbD 0 && code = 0 then s1.eqOn n else s1

/-- A write of an EQ's EXT: SEL (Table 18.5, R469). -/
def State.cfgExt (s : State) (n : Nat) (v : BitVec 32) : State :=
  s.modEq n (fun q =>
    if !q.en then { q with sel := BitVec.ofNat 4 (fieldN v 0 4) }
    else if fieldN v 0 4 = q.sel.toNat then q else { q with cfgerr := 6 })

/-- A write of a BQ's CFG; an out-of-range field keeps its value and is reported in EQ `n`'s CFGERR (R462, R468). -/
def State.cfgBq (s : State) (n : Nat) (v : BitVec 32) : State :=
  let z := fieldN v 1 4
  let b := fieldN v 5 5
  let bOk := decide (9 ≤ b) && decide (b ≤ 18)
  s.modEq n (fun q =>
    if q.en then (if z = q.bqSize.toNat ∧ b = q.bufLog.toNat then q else { q with cfgerr := 6 })
    else { q with bqSize := if sizeOk z then BitVec.ofNat 4 z else q.bqSize, bufLog := if bOk then BitVec.ofNat 5 b else q.bufLog,
                  cfgerr := if sizeOk z && bOk then q.cfgerr else 4 })

/-- A ring is enabled. -/
def Flue.anyRing (f : Flue) : Bool := f.sqs.toList.any (·.en) || f.cqs.toList.any (·.en) || f.eqs.toList.any (·.en)

/-- A page or ring address: bits [11:0] read as 0 (Tables 18.4, 18.5). -/
def pageAddr (v : BitVec 64) : BitVec 64 := v &&& 0xFFFFFFFFFFFFF000

/-- A 64-bit field takes a value (R462, R467, R469); `o` is the offset of its lower dword. -/
def State.put64 (s : State) (o : Nat) (v : BitVec 64) : State :=
  let a := pageAddr v
  let open_ := !s.fl.poll.en && !s.fl.anyRing
  if o = 0x040 then (if open_ then s.modFl (fun f => { f with dbAddr := a }) else s)
  else if o = 0x048 then (if open_ then s.modFl (fun f => { f with shAddr := a }) else s)
  else if 0x100 ≤ o ∧ o < 0x200 ∧ o % 16 = 0 then
    s.modFl (fun f => { f with sqs := f.sqs.modify ((o - 0x100) / 16) (fun q =>
      if !q.en then { q with base := a } else if q.base = a then q else { q with cfgerr := 6 }) })
  else if 0x200 ≤ o ∧ o < 0x300 ∧ o % 16 = 0 then
    s.modFl (fun f => { f with cqs := f.cqs.modify ((o - 0x200) / 16) (fun q =>
      if !q.en then { q with base := a } else if q.base = a then q else { q with cfgerr := 6 }) })
  else if 0x300 ≤ o ∧ o < 0x380 ∧ o % 32 = 0 then
    s.modEq ((o - 0x300) / 32) (fun q => if !q.en then { q with base := a } else if q.base = a then q else { q with cfgerr := 6 })
  else if 0x300 ≤ o ∧ o < 0x380 ∧ o % 32 = 16 then
    s.modEq ((o - 0x300) / 32) (fun q => if !q.en then { q with bqBase := a } else if q.bqBase = a then q else { q with cfgerr := 6 })
  else s

/-- One dword of a 64-bit field is written: the lower one waits, the upper one makes the write (R462). -/
def State.putHalf (s : State) (o : Nat) (old : BitVec 64) (v : BitVec 32) : State :=
  let b := o / 8 * 8
  if o % 8 = 0 then s.modFl (fun f => { f with lowStage := (b, v) :: f.lowStage.filter (fun x => x.1 ≠ b) })
  else
    let lo : BitVec 32 := match s.fl.lowStage.find? (fun x => x.1 = b) with | some x => x.2 | none => old.setWidth 32
    (s.modFl (fun f => { f with lowStage := f.lowStage.filter (fun x => x.1 ≠ b) })).put64 b (v ++ lo)

/-- A write of POLL_CTL (R467). -/
def State.putPollCtl (s : State) (v : BitVec 32) : State :=
  let s1 := s.modFl (fun f =>
    let p := f.poll
    let p1 := { p with act := if fieldN v 8 8 = 0 then p.act else BitVec.ofNat 8 (fieldN v 8 8),
                       idle := if fieldN v 16 16 < 2 then p.idle else BitVec.ofNat 16 (fieldN v 16 16) }
    if !v.getLsbD 0 then { f with poll := { p1 with en := false } }
    else if p.en || f.dbAddr = 0 || f.shAddr = 0 || f.dbAddr = f.shAddr then { f with poll := p1 }
    else { f with poll := { p1 with en := true, halt := false, idleMode := false, count := 0, fails := 0,
                                    target := s.fb.mir.tick + BitVec.ofNat 48 p1.act.toNat } })
  s1.syncDstate

/-- A write of dword `dw` of MSI-X table entry `e`: unmasking sends a pending message (R304). -/
def State.putMsix (s : State) (e dw : Nat) (v : BitVec 32) : State :=
  s.modFl (fun f =>
    let m := f.msix.get e
    let m1 : MsixEntry :=
      if dw = 0 then { m with lo := v &&& 0xFFFFFFFC } else if dw = 1 then { m with hi := v }
      else if dw = 2 then { m with data := v } else { m with ctl := v &&& 1 }
    let g := { f with msix := f.msix.set e m1 }
    if f.pend.getLsbD e && !m1.ctl.getLsbD 0 then ({ g with pend := setBit f.pend e false } : Flue).emit (.msix e) else g)

/-- WAKE is cleared by a 1, with CAUSE and WAKE_TICK (R464). -/
def State.clearWake (s : State) (v : BitVec 32) : State :=
  if v.getLsbD 2 then s.modWk (fun w => { w with wake := false, cause := 0, tick := 0 }) else s

/-- FUSE_CMD written without starting a command, and FUSE_DATA: both are ignored while BUSY (R466). -/
def Otp.putCmd (t : Otp) (g w : Nat) : Otp :=
  if t.busy.isSome then t else { t with cmdRegion := BitVec.ofNat 4 g, cmdWord := BitVec.ofNat 5 w }

/-- A dword written to BAR0 with its byte enables merged (R462 to R468). A FUSE_CMD that starts a command is one of the
fuse commands, which carry how the antifuses answer (log entry 41). -/
def State.barDword (s : State) (o : Nat) (v : BitVec 32) : State :=
  match s.bar64Fld (o / 8 * 8) with
  | some old => if o / 8 * 8 = 0x018 then s else s.putHalf o old v
  | none =>
    if o = 0x008 then s.rstCtl v
    else if o = 0x00C then s.stbyReqBit v
    else if o = 0x010 then s.clearWake v
    else if o = 0x020 then s.modWk (fun w => { w with stbyWake := v.setWidth 8 })
    else if o = 0x030 then
      (if 1 ≤ fieldN v 0 3 ∧ fieldN v 0 3 ≤ 4 then s else s.modHs (fun h => { h with otp := h.otp.putCmd (fieldN v 4 4) (fieldN v 8 5) }))
    else if o = 0x034 then s.modHs (fun h => { h with otp := if h.otp.busy.isSome then h.otp else { h.otp with data := v } })
    else if o = 0x050 then s.putPollCtl v
    else if o = 0x054 then
      (if fieldN v 0 16 = 0 then s else s.modFl (fun f => { f with poll := { f.poll with empty := BitVec.ofNat 16 (fieldN v 0 16) } }))
    else if o = 0x058 then s.modFl (fun f => { f with evtVec := BitVec.ofNat 4 (fieldN v 0 4) })
    else if 0x100 ≤ o ∧ o < 0x200 ∧ o % 16 = 8 then s.cfgSq ((o - 0x100) / 16) v
    else if 0x200 ≤ o ∧ o < 0x300 ∧ o % 16 = 8 then s.cfgCq ((o - 0x200) / 16) v
    else if 0x300 ≤ o ∧ o < 0x380 then
      (if o % 32 = 8 then s.cfgEq ((o - 0x300) / 32) v
       else if o % 32 = 0x0C then s.cfgExt ((o - 0x300) / 32) v
       else if o % 32 = 0x18 then s.cfgBq ((o - 0x300) / 32) v else s)
    else if 0x800 ≤ o ∧ o < 0x900 then s.putMsix ((o - 0x800) / 16) (o % 16 / 4) v
    else s

/-- The bytes of `v` that are enabled over those of `old`. -/
def mergeBytes (be : BitVec 4) (old v : BitVec 32) : BitVec 32 :=
  BitVec.ofFnLE (fun i : Fin 32 => if be.getLsbD (i.val / 8) then v.getLsbD i.val else old.getLsbD i.val)

/-- What the bytes that are not enabled keep: the register's value, and 0 where a 1 would act (R462). -/
def State.barKeep (s : State) (o : Nat) : BitVec 32 :=
  if o = 0x010 then 0
  else match s.fl.lowStage.find? (fun x => x.1 = o) with
    | some x => x.2
    | none => s.barRead o

/-- A host write of up to four bytes in the dword at `off` (R285, R462). -/
def State.barWrite (s : State) (off : BitVec 12) (be : BitVec 4) (v : BitVec 32) : State :=
  let o := off.toNat / 4 * 4
  if be = 0 then s else s.barDword o (mergeBytes be (s.barKeep o) v)

/-- An aligned 8-byte write: a 64-bit field whole, or two dwords of the MSI-X table; any other changes nothing (R285). -/
def State.barWrite64 (s : State) (off : BitVec 12) (v : BitVec 64) : State :=
  let o := off.toNat
  if o % 8 ≠ 0 then s
  else if 0x800 ≤ o ∧ o < 0x900 then
    (s.putMsix ((o - 0x800) / 16) (o % 16 / 4) (v.setWidth 32)).putMsix ((o - 0x800) / 16) (o % 16 / 4 + 1) ((v >>> 32).setWidth 32)
  else if (s.bar64Fld o).isSome then
    (s.modFl (fun f => { f with lowStage := f.lowStage.filter (fun x => x.1 ≠ o) })).put64 o v
  else s

/-- REGISTER_WRITE: a setup register by the host (R462), or a device cell by a core, checked as at X1 (R470). -/
def execRegisterWrite (w : RegWrite) (s : State) : Answer :=
  .next (match w with
    | .bar off be v => if s.barOn then s.barWrite off be v else s
    | .bar64 off v => if s.barOn then s.barWrite64 off v else s
    | .cell c a v => if isDev a.toNat && (accFault s true a.toNat .cell true).isNone then s.devStore c a.toNat v false else s
    | .cell2 _ a v => if isDev a.toNat && (accFault s true a.toNat .dbl true).isNone then s.devStore2 a.toNat v else s)

/-- RING_ENABLE: a write of a ring's CFG that sets EN (R314, R469). -/
def execRingEnable (r : RingId) (v : BitVec 32) (s : State) : Answer :=
  .next (if !s.barOn then s
    else match r with
      | .sq n => s.cfgSq n.toNat (v ||| 1)
      | .cq n => s.cfgCq n.toNat (v ||| 1)
      | .eq n => s.cfgEq n.toNat (v ||| 1))

/-- SQ_DISABLE: EN of an SQ is cleared (R315). -/
def execSqDisable (n : BitVec 4) (s : State) : Answer :=
  .next (if s.barOn && (s.fl.sqs.get n.toNat).en then s.sqOff n.toNat else s)
/-- CQ_DISABLE: EN of a CQ is cleared, or the clear is refused (R316). -/
def execCqDisable (n : BitVec 4) (s : State) : Answer :=
  .next (if s.barOn && (s.fl.cqs.get n.toNat).en then s.cqOff n.toNat else s)
/-- EQ_DISABLE: EN of an EQ is cleared (R317). -/
def execEqDisable (n : BitVec 2) (s : State) : Answer :=
  .next (if s.barOn && (s.fl.eqs.get n.toNat).en then s.eqOff n.toNat else s)
/-- MSIX_TABLE_WRITE (R304). -/
def execMsixTableWrite (e : BitVec 4) (dw : BitVec 2) (v : BitVec 32) (s : State) : Answer :=
  .next (if s.barOn then s.putMsix e.toNat dw.toNat v else s)
/-- STBY_REQ (R390, R465). -/
def execStbyReq (v : BitVec 32) (s : State) : Answer := .next (if s.barOn then s.stbyReqBit v else s)
/-- WAKE_CLEAR (R464). -/
def execWakeClear (v : BitVec 32) (s : State) : Answer := .next (if s.barOn then s.clearWake v else s)
/-- POLL_EN_SET: a write of POLL_CTL that sets POLL_EN (R467). -/
def execPollEnSet (v : BitVec 32) (s : State) : Answer := .next (if s.barOn then s.putPollCtl (v ||| 1) else s)

/-- A read to host memory is outstanding. -/
def Flue.reading (f : Flue) : Bool :=
  f.poll.reading || f.sqs.toList.any (fun q => q.rd.isSome) ||
    f.eqs.toList.any (fun e => match e.run with | some x => !x.rd | none => false)

/-- LINK_L1_ENTRY: 8 µs have passed without traffic (R320). -/
def execLinkL1Entry (s : State) : Answer :=
  .next (if s.flueOn && !s.fl.reading then s.modFl (fun f => { f with l1 := true }) else s)
/-- BUS_MASTER_ENABLE: the host's traffic is suspended or resumes (R286). -/
def execBusMasterEnable (on : Bool) (s : State) : Answer :=
  .next (if s.flueOn then s.modFl (fun f => Flue.flush { f with bme := on }) else s)
/-- POWER_STATE_CHANGE: between D0 and D3hot, with PME_En (R321). -/
def execPowerStateChange (d3hot pmeEn : Bool) (s : State) : Answer :=
  .next (if s.flueOn then s.modFl (fun f => Flue.flush { f with d3hot := d3hot, pmeEn := pmeEn }) else s)

/-- The Flue after a Hot Reset: its configuration state at its defaults, its rings disabled without a write to the host
and polling disabled (R318, R381). Commands that run go on without a completion to write. -/
def Flue.hotReset (f : Flue) : Flue :=
  { f with
    bme := false, d3hot := false, pmeEn := false, l1 := false, held := [], msixWait := [], msix := Tab.fill 16 {}, pend := 0,
    poll := { f.poll with en := false, reading := false },
    sqs := f.sqs.map (fun q => { q with en := false, rd := none, fetched := [], begun := [], stopping := false }),
    cqs := f.cqs.map (fun q => { q with en := false, since := 0 }),
    eqs := f.eqs.map (fun e => { e with en := false, stopping := false, since := 0, protQ := [], rollQ := [], run := none, recs := [],
                                        acked := [], sealsDone := [], marks := {} }),
    runs := f.runs.map (fun r => { r with sq := 16 }) }

/-- LINK_HOT_RESET (R381). -/
def execLinkHotReset (s : State) : Answer := .next (if s.flueOn then s.modFl Flue.hotReset else s)

end Sys2Proof.Machine
end

