-- ==== Sys2Proof/Machine/Commands.lean ====
section
/-! DEFINITION. The commands of chapter 12 that read, configure and serve: identify, statistics, clock, configuration,
Ember control, logs, cords, odometer, service tokens, random numbers. -/

namespace Sys2Proof.Machine

/-- The opcodes of Table 12.3. -/
def cmdOpcodes : List Nat :=
  [0x01, 0x02, 0x03, 0x04, 0x05, 0x10, 0x11, 0x20, 0x21, 0x22, 0x23, 0x30, 0x31, 0x40, 0x41, 0x42, 0x50, 0x60, 0x70, 0x80, 0x81, 0x90]

/-- BAD_OPCODE: the descriptor at the front of an SQ has an unassigned opcode (R325). -/
def execBadOpcode (sq : BitVec 4) (s : State) : Answer :=
  .next (match s.nextDesc sq.toNat with
    | none => s
    | some d => if !s.mayBegin || cmdOpcodes.contains (d.byte 0) then s else (s.begin_ sq.toNat d).finish s.fl.nextTag 0x01)

/-- The identify block (Table 12.4). -/
def State.identifyBlock (s : State) : List Byte :=
  let v := s.hs.vault
  let fails := ((List.range 16).map (fun i => b2n (s.coreFailed (BitVec.ofNat 4 i)) * 2 ^ i)).sum
  let ins (f : CtlStore → Bool) : Bool := s.cores.toList.any (fun k => f k.cs)
  s.hs.otp.deviceId ++ leBytes 4 Config.romId.toNat ++
    [BitVec.ofNat 8 s.fLife, BitVec.ofNat 8 (roundTrips s.hs.otp.thermo), s.triesByte, BitVec.ofNat 8 s.fb.fclk] ++
    leBytes 4 s.img.id.toNat ++ [s.img.source, BitVec.ofNat 8 (b2n (ins (·.patchIn)) + 2 * b2n (ins (·.openIn)))] ++
    leBytes 2 fails ++ leBytes 6 v.hd.nextSeq ++ leBytes 6 s.hs.se.nextCord ++ leBytes 6 s.hs.se.nextLeaf ++ List.replicate 14 0

/-- IDENTIFY (R330). -/
def execIdentify (sq : BitVec 4) (s : State) : Answer :=
  .next (command sq { op := 0x01, size := fun d => decide (64 ≤ d.dlen), states := [0, 1, 2, 3, 4, 7] }
    (fun d t r => r.answer d t r.identifyBlock []) s)

/-- The counters of a statistics group, 0 for all, as IDs with their values (R331, Table 12.5). -/
def State.statList (s : State) (g : Nat) : List (Nat × Nat) :=
  let on (k : Nat) (l : List (Nat × Nat)) : List (Nat × Nat) := if g = 0 ∨ g = k then l.map (fun x => (0x1000 * k + x.1, x.2)) else []
  let p := s.pil.ph
  let c := s.pil.cap
  let v := s.hs.vault
  on 1 ((List.range 64).map (fun i =>
    let k := s.fb.cnt.get (i / 4)
    (i, (if i % 4 = 0 then k.lockups else if i % 4 = 1 then k.eqOvf else if i % 4 = 2 then k.etrigIgn else k.logBadh).toNat))) ++
  on 2 ((List.range 6).map (fun i => (i, (p.ang.get i).rejects.toNat)) ++
    [(6, p.plausCnt.toNat), (7, p.camFault.toNat), (8, p.reverse.toNat)]) ++
  on 3 ((List.range 48).map (fun i => (i, (c.lost.get i).toNat)) ++ [(48, (c.canErr.get 0).toNat), (49, (c.canErr.get 1).toNat)] ++
    (List.range 16).map (fun i => (64 + i, (s.fb.rings.get i).missed.toNat))) ++
  on 4 [(0, v.torn.toNat), (1, v.ue.toNat), (2, s.pil.noteLost.toNat), (3, p.odoRefused.toNat), (4, v.spares), (5, v.bad.length),
    (6, s.liveJ), (7, s.freeStage), (8, v.maxWrite.toNat)] ++
  on 5 [(0, s.fb.hearth.errors.toNat), (1, s.fb.plink.errors.toNat), (2, s.fb.hearth.retrains.toNat), (3, s.fb.plink.retrains.toNat)] ++
  on 6 ((List.range 5).map (fun i => (i, (s.fl.stats.get i).toNat)))

/-- A saturating counter returned with CLEAR is cleared; gauges and wrapping counts are not (R331). -/
def State.statClear (s : State) (id : Nat) : State :=
  let n := id % 0x1000
  let ph (f : Phase → Phase) : State := s.modPh f
  match id / 0x1000 with
  | 1 => s.modFb (fun f => { f with cnt := f.cnt.modify (n / 4) (fun k =>
      if n % 4 = 0 then { k with lockups := 0 } else if n % 4 = 1 then { k with eqOvf := 0 }
      else if n % 4 = 2 then { k with etrigIgn := 0 } else { k with logBadh := 0 }) })
  | 2 =>
    if n < 6 then ph (fun p => { p with ang := p.ang.modify n (fun a => { a with rejects := 0 }) })
    else if n = 6 then ph (fun p => { p with plausCnt := 0 }) else if n = 7 then ph (fun p => { p with camFault := 0 }) else s
  | 3 =>
    if n < 48 then s.modCap (fun c => { c with lost := c.lost.set n 0 })
    else if n < 50 then s.modCap (fun c => { c with canErr := c.canErr.set (n - 48) 0 }) else s
  | 4 =>
    if n = 0 then s.modVault (fun v => { v with torn := 0 }) else if n = 1 then s.modVault (fun v => { v with ue := 0 })
    else if n = 2 then { s with pil := { s.pil with noteLost := 0 } } else if n = 3 then ph (fun p => { p with odoRefused := 0 }) else s
  | 5 => s.modFb (fun f =>
      if n = 0 then { f with hearth := { f.hearth with errors := 0 } } else if n = 1 then { f with plink := { f.plink with errors := 0 } }
      else if n = 2 then { f with hearth := { f.hearth with retrains := 0 } } else { f with plink := { f.plink with retrains := 0 } })
  | _ => s

/-- CLEAR of the entries that were returned; group 4 clears UNCLEAN too (R331). -/
def State.statsClear (s : State) (ids : List Nat) : State :=
  let s1 := ids.foldl State.statClear s
  (if ids.any (fun i => i / 0x1000 = 4) then s1.modVault (fun v => { v with unclean := false }) else s1).syncDstate

/-- STATS_READ (R331). -/
def execStatsRead (sq : BitVec 4) (s : State) : Answer :=
  .next (command sq { op := 0x02, named := [0, 1], range := fun d => decide (d.p 0 ≤ 6) && decide (d.p 1 ≤ 1), size := fun _ => true,
                      states := [0, 1, 2, 3, 4, 7] }
    (fun d t r =>
      let es := r.statList (d.p 0)
      let out := (es.map (fun e => leBytes 2 e.1 ++ leBytes 6 e.2)).flatten
      let q := if d.p 1 = 1 then r.statsClear ((es.take (d.dlen / 8)).map (·.1)) else r
      q.answer d t out (leBytes 4 out.length)) s)

/-- PUBKEY_READ over the hearth link (R332); an uncorrectable record of the key pair ends it (R272). -/
def State.pubkeyRead (s : State) (d : Desc) (t : Nat) : State :=
  if s.fb.hearth.down then s.finish t 0x0E
  else if !s.hs.se.keyDone then s.finish t 0x0B
  else if s.hs.vault.recSpoilt 20 then s.finish t 0x0E
  else s.answer d t s.hs.se.pub []

/-- PUBKEY_READ (R332). -/
def execPubkeyRead (sq : BitVec 4) (s : State) : Answer :=
  .next (command sq { op := 0x03, size := fun d => decide (60 ≤ d.dlen), states := [1, 2, 3, 4, 7] }
    (fun d t r => r.acrossLink .hearth d t [] (fun q => q.pubkeyRead d t)) s)

/-- The minimum VCORE in millivolts for an FCLK in megahertz (R441). -/
def vmin (f : Nat) : Nat := if f ≤ 1500 then 720 else 720 + 5 * ((4 * (f - 1500) + 374) / 375)

/-- The PLL relock of a SET_FCLK begins once no routine runs (R26, R341). -/
def State.relockRuns (s : State) : State :=
  if s.fb.relock.isSome || s.cores.toList.any (fun k => k.seq.isSome) then s
  else s.fl.runs.foldl (fun (q : State) r =>
    match r.kind with
    | .setFclk _ n => q.modFb (fun f => { f with relock := some n })
    | _ => q) s

/-- SET_FCLK (R341). `vcore` is the VCORE that the supply monitor shows, in millivolts. -/
def execSetFclk (sq : BitVec 4) (vcore : BitVec 16) (s : State) : Answer :=
  .next (command sq { op := 0x04, named := [0], range := fun d => decide (30 ≤ d.p 0) && decide (d.p 0 ≤ 120), states := [0, 1, 2, 3] }
    (fun d t r =>
      if r.exclusiveRuns t then r.finish t 0x07
      else if vcore.toNat < vmin (25 * d.p 0) then r.finish t 0x1B
      else (r.modRun t (fun x => { x with kind := .setFclk r.fb.fclk (d.p 0) })).relockRuns) s)

/-- FCLK_RELOCK_DONE: the PLL has locked and issue resumes (R26, R341). -/
def execFclkRelockDone (s : State) : Answer :=
  .next (match s.fb.relock with
    | none => s
    | some n =>
      let s1 := s.modFb (fun f => { f with relock := none, fclk := n })
      s1.fl.runs.foldl (fun (q : State) r =>
        match r.kind with
        | .setFclk p _ => q.finish r.tag 0 [BitVec.ofNat 8 p]
        | _ => q) s1)

/-- The fields of the phase configuration block lie in their ranges, and its reserved bits are 0 (R478, Tables 2.2 and
18.14). PULSE_WIDTH with EDGE = BOTH, which R42 forbids, is in range: the block is taken, and no direction is decoded (DESIGN
CHOICE, log entry 98). -/
def phaseOk (c : List Cell) : Bool :=
  let x (i : Nat) : Cell := c.getD i 0
  let bits (i n : Nat) : Bool := decide ((x i).toNat < 2 ^ n)
  let f (i lo n : Nat) : Nat := fieldN (x i) lo n
  (List.range 6).all (fun i => bits i 12 && decide (f i 0 2 ≤ 2)) &&
  (List.range 4).all (fun i => bits (6 + i) 14 && decide (f (6 + i) 0 2 ≤ 2) && decide (1 ≤ f (6 + i) 2 8)) &&
  bits 10 23 && decide (f 10 2 3 ≤ 4) && decide (f 10 2 3 ≠ f 10 0 2) && decide (16 ≤ f 10 5 13) && decide (f 10 5 13 ≤ 4096) &&
  decide (1 ≤ f 10 18 5) && decide (f 10 18 5 ≤ 25) &&
  bits 11 23 && decide (16 ≤ f 11 0 12) && decide (12 ≤ f 11 12 7) && decide (f 11 12 7 ≤ 120) && decide (1 ≤ f 11 19 2) &&
  bits 12 16 && bits 13 16 && decide (1 ≤ f 13 0 16) && decide (x 15 = 0)

/-- The payload of a setting log (Table 9.11). -/
def settingPayload (new old reason auth token : Nat) : List Byte :=
  leBytes 6 new ++ leBytes 6 old ++ leBytes 2 reason ++ [BitVec.ofNat 8 auth, 0] ++ leBytes 8 token

/-- The setting in force that a setting log calls OLD (R256). -/
def State.settingOld (s : State) (cls : Nat) : Nat := if cls = 0x82 then s.pil.ph.odo.toNat else (s.pil.ph.cfg.get 14).toNat

/-- The phase block of a CONFIG_WRITE (R342, R478). -/
def State.writePhase (s : State) (t : Nat) (cells : List Cell) : State :=
  let new := cells.getD 14 0
  if !phaseOk cells then s.finish t 0x02
  else if new = s.pil.ph.cfg.get 14 then s.submit (.phaseCfg cells) (some t)
  else if s.fLife ≠ 1 then s.finish t 0x04
  else
    (s.modRun t (fun r => { r with todo := [.phaseCfg cells] })).submit
      (s.devLog 0x83 (settingPayload new.toNat (s.settingOld 0x83) 0 0 0)) (some t)

/-- CONFIG_WRITE (R342). `buf` is what the read of the buffer returned. -/
def execConfigWrite (sq : BitVec 4) (buf : Option (List Byte)) (s : State) : Answer :=
  .next (command sq { op := 0x05, reads := true, named := [0, 4, 5],
                      range := fun d => (d.p 0 = 1 && d.pn 4 2 = 0) || (d.p 0 = 2 && decide (10 ≤ d.pn 4 2) && decide (d.pn 4 2 ≤ 10000)),
                      size := fun d => if d.p 0 = 1 then d.dlen = 48 else d.dlen = 0, states := [1, 2, 3] }
    (fun d t r =>
      if r.vaultGone then r.finish t 0x0E
      else if d.p 0 = 2 then r.submit (.cordTime (d.pn 4 2)) (some t)
      else match buf with
        | none => r.finish t 0x06
        | some b => r.writePhase t (unpackCells 16 (bytesAt b 0 48))) s)

/-- The capture object of an EMBER_CONFIG type and index; none for a ring and for one that does not exist (R343). -/
def objOf (ty i : Nat) : Option Obj :=
  if ty = 1 ∧ i < 48 then some (.channel i) else if ty = 2 ∧ i < 24 then some (.spi i) else if ty = 3 ∧ i < 2 then some (.can i)
  else if ty = 4 ∧ i < 4 then some (.trig i) else if ty = 5 ∧ i < 16 then some (.th i) else if ty = 6 ∧ i < 8 then some (.cf i)
  else none

/-- The cells of the object that an EMBER_CONFIG names, 0 when there is none. -/
def cfgCells (ty i : Nat) : Nat := if ty = 7 ∧ i < 16 then 24 else match objOf ty i with | some o => o.size | none => 0

/-- EMBER_CONFIG of a ring: while it is enabled, a change is refused; its EN keeps its value (R198, R343, R477). -/
def State.configRing (s : State) (t i : Nat) (c : List Cell) : State :=
  let r := s.fb.rings.get i
  let x (o : Nat) : Cell := c.getD o 0
  let mask (o : Nat) : Cell := if o = 0 then 0x7E else ringMask o
  let same := (List.range 24).all (fun o => (r.cfgCell o ^^^ x o) &&& mask o = 0)
  if (List.range 24).any (fun o => x o &&& ~~~(ringMask o) ≠ 0) then s.finish t 0x02
  else if r.en then
    (if same then s.finish t 0 else (s.modRing i (fun q => { q with cfgerr := 6 })).finish t 0x0F [6])
  else (s.modRing i (fun q => (List.range 24).foldl (fun (q : EmRing) o => q.putCfg o (x o)) q)).finish t 0

/-- EMBER_CONFIG of a capture object (R343, R479). The pilot link must be up to reach it. -/
def State.configObj (s : State) (t : Nat) (o : Obj) (c : List Cell) : State :=
  let x (k : Nat) : Cell := c.getD k 0
  if (List.range o.size).any (fun k => x k &&& ~~~(o.mask k) ≠ 0) then s.finish t 0x02
  else if s.fb.plink.down then s.finish t 0x0F [0]
  else
    let code := s.pil.cap.objCheck o x
    if code ≠ 0 then s.finish t 0x0F [BitVec.ofNat 8 code]
    else ((s.modCap (fun q => q.unstage o)).applyObj o x).finish t 0

/-- EMBER_CONFIG (R343). -/
def execEmberConfig (sq : BitVec 4) (buf : Option (List Byte)) (s : State) : Answer :=
  .next (command sq { op := 0x30, reads := true, named := [0, 1], range := fun d => decide (0 < cfgCells (d.p 0) (d.p 1)),
                      size := fun d => d.dlen = 3 * cfgCells (d.p 0) (d.p 1), states := [1, 2, 3] }
    (fun d t r =>
      match buf with
      | none => r.finish t 0x06
      | some b =>
        let c := unpackCells (cfgCells (d.p 0) (d.p 1)) (bytesAt b 0 d.dlen)
        match objOf (d.p 0) (d.p 1) with
        | some o => r.acrossLink .pilot d t b (fun q => q.configObj t o c)
        | none => r.configRing t (d.p 1) c) s)

/-- The capture status of a ring: its status cells +0x18 to +0x5F, packed (R212, R343, log entry 42). -/
def EmRing.statusBytes (r : EmRing) : List Byte := packCells ((List.range 72).map (fun i => r.cell (0x18 + i)))

/-- EMBER_CONTROL (R343). -/
def execEmberControl (sq : BitVec 4) (s : State) : Answer :=
  .next (command sq { op := 0x31, named := [0, 1], range := fun d => decide (d.p 0 < 16) && decide (1 ≤ d.p 1) && decide (d.p 1 ≤ 4),
                      size := fun d => d.p 1 = 4 || d.dlen = 0, states := [1, 2, 3] }
    (fun d t r =>
      let i := d.p 0
      let q := r.fb.rings.get i
      if d.p 1 = 1 then
        if q.en then r.finish t 0 [0]
        else
          let k := r.ringCheck i
          if k = 0 then (r.enableRing i).finish t 0 [0] else (r.enableRing i).finish t 0x0F [BitVec.ofNat 8 k]
      else if d.p 1 = 2 then
        ((if q.en then r.modRing i EmRing.disable else r).modRun t (fun x => { x with kind := .emberOff i })).emberOffRuns
      else if d.p 1 = 3 then
        (if q.oldestFree.isSome then (r.modRing i EmRing.release).finish t 0 [0] else r.finish t 0x0B)
      else r.answer d t q.statusBytes [0]) s)

/-- LOG_READ over the hearth link (R344). -/
def State.logRead (s : State) (d : Desc) (t : Nat) : State :=
  let q := d.pn 0 6
  if s.fb.hearth.down then s.finish t 0x0E
  else match s.hs.vault.logs.find? (fun l => l.seq = q) with
    | some l =>
      if !l.durable then s.finish t 0x0B
      else if s.hs.vault.spoilt l.at_ then s.finish t 0x0E
      else s.answer d t l.bytes (leBytes 3 l.bytes.length ++ [l.cls] ++ leBytes 2 l.flags.toNat) true
    | none => s.finish t (if q < s.hs.vault.hd.nextSeq then 0x0C else 0x0B)

/-- LOG_READ (R344). -/
def execLogRead (sq : BitVec 4) (s : State) : Answer :=
  .next (command sq { op := 0x40, named := [0, 1, 2, 3, 4, 5], size := fun _ => true, states := [1, 2, 3] }
    (fun d t r => r.acrossLink .hearth d t [] (fun q => q.logRead d t)) s)

/-- The cord that a CORD_READ names, or the status it ends with (R345). -/
def State.cordNamed (s : State) (mode v : Nat) : Nat ⊕ Byte :=
  let e := s.hs.se
  if mode = 0 then .inl v
  else
    let w := s.hs.vault
    match w.seals.find? (fun x => x.leaves.any (fun l => l.seq = v)), e.queue.find? (fun c => c.leaves.any (fun l => l.seq = v)),
        w.logs.find? (fun l => l.seq = v) with
    | some x, _, _ => .inl x.cord
    | none, some c, _ => .inl c.no
    | none, none, some l => match l.cord with | some k => .inl k | none => .inr 0x0B
    | none, none, none =>
      .inr (if v < w.hd.nextSeq && !(e.openCord ++ e.waiting ++ e.recov).any (fun l => l.seq = v) then 0x0C else 0x0B)

/-- CORD_READ over the hearth link (R345). -/
def State.cordRead (s : State) (d : Desc) (t : Nat) : State :=
  if s.fb.hearth.down then s.finish t 0x0E
  else match s.cordNamed (d.p 0) (d.pn 2 6) with
    | .inr st => s.finish t st
    | .inl k =>
      match s.hs.vault.seals.find? (fun x => x.cord = k) with
      | some x => if s.hs.vault.spoilt x.at_ then s.finish t 0x0E else s.answer d t x.record (leBytes 6 k ++ leBytes 2 x.count)
      | none => s.finish t (if k < s.hs.se.nextCord && !s.hs.se.queue.any (fun c => c.no = k) then 0x0C else 0x0B)

/-- CORD_READ (R345). -/
def execCordRead (sq : BitVec 4) (s : State) : Answer :=
  .next (command sq { op := 0x41, named := [0, 2, 3, 4, 5, 6, 7], range := fun d => decide (d.p 0 ≤ 1), size := fun _ => true, states := [1, 2, 3] }
    (fun d t r => r.acrossLink .hearth d t [] (fun q => q.cordRead d t)) s)

/-- ODO_VALID as a result byte (R346). -/
def State.odoByte (s : State) : Byte := BitVec.ofNat 8 (b2n (s.fb.mir.status.getLsbD 12))

/-- A line of a durable log of the ODOMETER partition is uncorrectable (R272). -/
def Vault.odoSpoilt (v : Vault) : Bool := v.logs.any (fun l => l.durable && l.part = .odometer && v.spoilt l.at_)

/-- ODO_READ of the highest durable odometer, over the hearth link (R346). -/
def State.odoRead (s : State) (t : Nat) : State :=
  if s.fb.hearth.down || s.hs.vault.odoSpoilt then s.finish t 0x0E
  else s.finish t 0 (leBytes 6 s.hs.vault.odoBest ++ [s.odoByte])

/-- ODO_READ (R346). -/
def execOdoRead (sq : BitVec 4) (s : State) : Answer :=
  .next (command sq { op := 0x42, named := [0], range := fun d => decide (d.p 0 ≤ 1), states := [1, 2, 3, 4, 7] }
    (fun d t r =>
      if d.p 0 = 0 then r.finish t 0 (leBytes 6 r.fb.mir.odo.toNat ++ [r.odoByte])
      else r.acrossLink .hearth d t [] (fun q => q.odoRead t)) s)

/-- The commands that waited for the retrain of their link go on (R15). -/
def State.linkRuns (s : State) : State :=
  s.fl.runs.foldl (fun (q : State) r =>
    match r.kind with
    | .onLink d buf =>
      if r.op = 0x30 then
        if q.fb.plink.training then q
        else
          match objOf (d.p 0) (d.p 1) with
          | some o => q.configObj r.tag o (unpackCells (cfgCells (d.p 0) (d.p 1)) (bytesAt buf 0 d.dlen))
          | none => q
      else if q.fb.hearth.training then q
      else if r.op = 0x03 then q.pubkeyRead d r.tag
      else if r.op = 0x40 then q.logRead d r.tag
      else if r.op = 0x41 then q.cordRead d r.tag
      else if r.op = 0x80 then q.chalGet d r.tag
      else if r.op = 0x81 then q.chalAnswer r.tag (bytesAt buf 0 d.dlen)
      else q.odoRead r.tag
    | _ => q) s

/-- Check 1 of R348: the token's structure, its DLEN and its DEVICE_ID (Table 12.8). -/
def State.tokenFormat (s : State) (b : List Byte) (len : Nat) : Bool :=
  b.take 4 == [0x4D, 0x58, 0x54, 0x4B] && fld b 4 1 = 1 && decide (1 ≤ fld b 5 1) && decide (fld b 5 1 ≤ 3) &&
  (fld b 6 1 = 2 || fld b 6 1 = 3) && fld b 7 1 = 0 && fld b 12 4 = 0 && bytesAt b 46 18 == List.replicate 18 0 &&
  len = 120 + fld b 10 2 && bytesAt b 24 16 == s.hs.otp.deviceId

/-- A token identifier is above the highest accepted (R348, R367). -/
def State.tokenNew (s : State) (id : Nat) : Bool := match s.hs.vault.tokenMax with | some m => decide (m < id) | none => true

/-- The checks of a service token (R348): 0 when it is accepted. -/
def State.tokenCheck (s : State) (b : List Byte) (len : Nat) : Byte :=
  if !s.tokenFormat b len then 0x10
  else if !s.tokenNew (fld b 16 8) then 0x15
  else if !s.hs.otp.keyFits (fld b 6 1) (bytesAt b 64 56) then 0x12
  else if !lmsVerify (bytesAt b 64 56) (b.take 64) (bytesAt b 120 (fld b 10 2)) then 0x13
  else 0

/-- The marks of the EQs that differ from those recorded (R311). -/
def State.marksToWrite (s : State) : List CKind :=
  (List.range 4).filterMap (fun n =>
    let m := (s.fl.eqs.get n).marks
    if m = {} || m = s.hs.vault.marks.get n then none else some (.marks n m))

/-- A service action (R349): a setting log, and with a token its identifier's record; or the release, whose
acknowledgement records come first. -/
def State.serve (s : State) (t action param reason : Nat) (token : Option Nat) : State :=
  if action = 3 then
    (s.modRun t (fun r => { r with kind := .relStage reason (token.getD 0) param, todo := s.marksToWrite })).runStep t
  else if action = 2 ∧ 16777215 < param then s.finish t 0x02
  else
    let cls := if action = 1 then 0x82 else 0x83
    (s.modRun t (fun r => { r with kind := .service action, todo := match token with | some k => [.tokenId k] | none => [] })).submit
      (s.devLog cls (settingPayload param (s.settingOld cls) reason (if token.isSome then 1 else 0) (token.getD 0))) (some t)

/-- SERVICE (R347 to R349). -/
def execService (sq : BitVec 4) (buf : Option (List Byte)) (s : State) : Answer :=
  .next (command sq { op := 0x50, reads := true, named := [0, 1, 2, 3, 4, 5, 6, 7],
                      range := fun d => d.p 0 = 0 || (d.p 0 = 1 && (d.p 1 = 1 || d.p 1 = 2) && (d.p 1 = 1 || decide (d.pn 2 6 ≤ 16777215))),
                      size := fun d => d.p 0 = 0 || d.dlen = 0, states := [1, 2, 3] }
    (fun d t r =>
      if d.p 0 = 1 ∧ r.fLife ≠ 1 then r.finish t 0x04
      else if r.vaultGone then r.finish t 0x0E
      else if d.p 0 = 1 then r.serve t (d.p 1) (d.pn 2 6) 0 none
      else match buf with
        | none => r.finish t 0x06
        | some x =>
          let b := bytesAt x 0 d.dlen
          let st := r.tokenCheck b d.dlen
          if st ≠ 0 then r.finish t st else r.serve t (fld b 5 1) (fld b 40 6) (fld b 8 2) (some (fld b 16 8))) s)

/-- RANDOM goes on (R350): `k` of its `n` bytes are written, and the entries that the TRNG's FIFO holds follow; with no
output to come it fails, and names the bytes written. A retrain of the hearth link holds it up (R15). -/
def State.giveRandom (s : State) (t : Nat) (p : BitVec 64) (n k : Nat) : State :=
  let g := min (n - k) (32 * s.hs.trng.fifo.length)
  if s.hs.trng.latched || s.fb.hearth.down then s.finish t 0x1A (leBytes 4 k)
  else if !s.hs.trng.started || s.fb.hearth.training then s.modRun t (fun r => { r with kind := .random p n k })
  else
    let q := (s.trngTaken g).modFl (fun f => f.emitData (p + BitVec.ofNat 64 k) (s.trngBytes g))
    if n ≤ k + g then q.finish t 0 (leBytes 4 n) else q.modRun t (fun r => { r with kind := .random p n (k + g) })

/-- RANDOM (R350). -/
def execRandom (sq : BitVec 4) (s : State) : Answer :=
  .next (command sq { op := 0x60, size := fun d => decide (1 ≤ d.dlen) && decide (d.dlen ≤ 4096), states := [0, 1, 2, 3] }
    (fun d t r => r.giveRandom t d.dptr d.dlen 0) s)

/-- The RANDOM commands that wait for output go on or fail (R350, R375). -/
def State.randomRuns (s : State) : State :=
  s.fl.runs.foldl (fun (q : State) r =>
    match r.kind with
    | .random p n k => q.giveRandom r.tag p n k
    | _ => q) s

/-- The RANDOM and CHALLENGE_GET commands that wait for the TRNG receive ENTROPY_FAIL (R375). -/
def State.failEntropy (s : State) : State :=
  let s1 := s.fl.runs.foldl (fun (q : State) r =>
    match r.kind with
    | .random _ _ k => q.finish r.tag 0x1A (leBytes 4 k)
    | _ => q) s
  if s1.hs.chal.judging.isSome then s1
  else
    (s1.hs.chal.waitGet.foldl (fun (q : State) w => match w with | some t => q.finish t 0x1A [q.triesByte] | none => q) s1).modHs
      (fun h => { h with chal := { h.chal with waitGet := [], nonce := if h.chal.waitGet.isEmpty then h.chal.nonce else none } })

/-- The repetition count test of SP 800-90B on the samples of a cell, the first in bit 0: a run of 26 equal ones (R374). -/
def repetitionFails (x : BitVec 1024) : Bool :=
  (List.range 999).any (fun i => (List.range 26).all (fun j => x.getLsbD (i + j) = x.getLsbD i))
/-- The adaptive proportion test on a window of 1,024 samples: the first value occurs 665 times or more (R374). -/
def proportionFails (x : BitVec 1024) : Bool := decide (665 ≤ (List.range 1024).countP (fun j => x.getLsbD j = x.getLsbD 0))

/-- A TRNG health test fails (R375): the FIFO is flushed, waiting consumers fail, the startup test runs again, three
consecutive failures latch the TRNG off. Consecutive: fewer than 2²⁰ samples, at 250 MHz, since the last startup test. -/
def State.trngFail (s : State) : State :=
  let t := s.hs.trng
  let n := if s.pil.ph.clk - t.since < 419431 then t.fails + 1 else 1
  (s.modHs (fun h => { h with
    trng := { fifo := [], started := false, fails := n, latched := t.latched || decide (3 ≤ n), since := s.pil.ph.clk },
    otp := { h.otp with genWait := none } })).failEntropy

/-- TRNG_HEALTH_FAIL: the samples of a cell fail a test (R374, R375). -/
def execTrngHealthFail (_cell : BitVec 5) (samples : BitVec 1024) (s : State) : Answer :=
  .next (if (s.vaultOn || s.flueOn) && (repetitionFails samples || proportionFails samples) then s.trngFail else s)

end Sys2Proof.Machine
end

