-- ==== Sys2Proof/Machine/Links.lean ====
section
/-! DEFINITION. The die-to-die links (R14, R15), the temperature sensors (R456) and the I/O supplies (R438). -/

namespace Sys2Proof.Machine

/-- Link `l`. -/
def Fire.link (f : Fire) (l : LinkId) : Link := match l with | .hearth => f.hearth | .pilot => f.plink
/-- The state with link `l` changed. -/
def State.modLink (s : State) (l : LinkId) (g : Link → Link) : State :=
  s.modFb (fun f => match l with | .hearth => { f with hearth := g f.hearth } | .pilot => { f with plink := g f.plink })

/-- A flit fails its CRC (R14, R15): its first replay is allowed for, each further one is a link error, and after eight
failed replays the link retrains. `replays` counts the failures of the flit so far. -/
def Link.crcError (l : Link) : Link :=
  let n := l.replays + 1
  if 8 < n then { l with replays := 0, training := true, retrains := satInc l.retrains }
  else { l with replays := n, errors := if n = 1 then l.errors else satInc l.errors }

/-- FLIT_CRC_ERROR (R14). -/
def execFlitCrcError (l : LinkId) (s : State) : Answer :=
  .next (if !s.fireOn || (s.fb.link l).down || (s.fb.link l).training then s else s.modLink l Link.crcError)

/-- A retrain ends (R15): traffic goes on, or the next retrain begins, or after the third failure the link is down. -/
def Link.retrained (l : Link) (ok : Bool) : Link :=
  if ok then { l with training := false, fails := 0, replays := 0 }
  else if 3 ≤ l.fails + 1 then { l with training := false, fails := l.fails + 1, down := true }
  else { l with fails := l.fails + 1, retrains := satInc l.retrains }

/-- A command that reads or writes the vault and ends when the hearth link goes down (R329). -/
def Run.usesVault (r : Run) : Bool :=
  match r.kind with
  | .plain | .image _ _ | .imageWait _ | .imageRun _ _ | .bundle _ | .service _ | .relStage _ _ _ | .challenge | .chalGet _ | .random _ _ _ | .lifecycle => true
  | _ => false

/-- The hearth link is declared down (R15, R329, R336): the vault commands end with VAULT_FAULT, a load to RUN that was
being verified, or whose SVN was being recorded, leaves no image, RANDOM gets no entropy. -/
def State.hearthDown (s : State) : State :=
  let s1 := s.fl.runs.foldl (fun (q : State) r =>
    if !r.usesVault then q
    else match r.kind with
      | .image 0 _ | .imageWait _ | .imageRun _ _ => q.wipeImage.finish r.tag 0x0E
      | .random _ _ k => q.finish r.tag 0x1A (leBytes 4 k)
      | _ => q.finish r.tag 0x0E) s
  (s1.modHs (fun h => { h with life := match h.life with | some l => if l.ready then some l else none | none => none })).loseNotes

/-- LINK_RETRAIN_DONE (R15). -/
def execLinkRetrainDone (l : LinkId) (ok : Bool) (s : State) : Answer :=
  .next (if !(s.fb.link l).training then s
    else
      let s1 := s.modLink l (fun k => k.retrained ok)
      let s2 := if (s1.fb.link l).training then s1
        else if !(s1.fb.link l).down then (if s1.plinkUp then s1.hearPilot else s1).pilotNext 4
        else match l with
          | .hearth => s1.hearthDown
          | .pilot => s1.emberLinkDown.loseNotes.loseStates.resetRuns
      s2.linkRuns.randomRuns.syncDstate)

/-- The number of a die in the temperature fields (Table 18.2). -/
def dieNo : Die → Nat
  | .firebox => 0 | .hearthstone => 1 | .pilot => 2

/-- THERMAL_THRESHOLD: a die's temperature, in degrees, crosses a threshold (R456). Each start of throttling is an
episode. -/
def execThermalThreshold (d : Die) (temp : BitVec 8) (s : State) : Answer :=
  .next (s.modPw (fun p =>
    let n := dieNo d
    let t := temp.toInt
    let was := p.throt.getLsbD n
    let now := decide (130 ≤ t) || (was && decide (125 ≤ t))
    { p with temp := p.temp.set n temp, warn := setBit p.warn n (decide (120 ≤ t)), throt := setBit p.throt n now,
             throttle := if now && !was then satInc p.throttle else p.throttle }))

/-- VDDIO_DROP: the inputs of a bank hold their levels (R438). -/
def execVddioDrop (k : IoBank) (s : State) : Answer :=
  .next (if s.pw.life = .off then s
    else match k with
      | .vddioA => s.modPw (fun p => { p with vddioA := false })
      | .vddioB => (s.modCap (fun c => { c with gpioIn := s.gpioLevels })).modPw (fun p => { p with vddioB := false }))

/-- The levels of VDDIO_A's inputs as they are seen again: WHL0 to WHL3, CRANK, CAM in bits 0 to 5, TRIG0 to TRIG3 in
bits 6 to 9. No edge is made up; the bits that show the TRIG levels follow (R57, R438). -/
def State.levelsA (s : State) (lv : BitVec 10) : State :=
  let s1 := s.modPh (fun p => (List.range 6).foldl (fun (q : Phase) i =>
    { q with ang := q.ang.modify i (fun a => { a with level := lv.getLsbD i }) }) p)
  let s2 := s1.modCap (fun c => { c with trigLev := (lv >>> 6).setWidth 4, trigPin := (lv >>> 6).setWidth 4 })
  (List.range 4).foldl (fun (q : State) i => q.putEv (0x10C0 + i) (lv.getLsbD (6 + i))) s2

/-- VDDIO_RETURN: a bank's inputs are seen again, GPIO0 to GPIO7 in bits 0 to 7 for VDDIO_B (R438). A discrete channel
takes the new levels for its next comparison. -/
def execVddioReturn (k : IoBank) (levels : BitVec 10) (s : State) : Answer :=
  .next (
    let fresh (q : State) : State := q.modCap (fun c => { c with discLast := c.discLast.map (fun _ => q.discLevels) })
    match k with
    | .vddioA =>
      if s.pw.vddioA then s
      else fresh ((s.modPw (fun p => { p with vddioA := true })).levelsA levels)
    | .vddioB =>
      if s.pw.vddioB then s
      else fresh ((s.modPw (fun p => { p with vddioB := true })).modCap (fun c => { c with gpioIn := levels.setWidth 8 })))

end Sys2Proof.Machine
end

