-- ==== Sys2Proof/Machine/Bist.lean ====
section
/-! DEFINITION. The self-test (sections 15.1 to 15.3): which items run, what a fault leaves, the hold-up measurement, the
report. -/

namespace Sys2Proof.Machine

/-- Every thread of a core is STOPPED. -/
def Core.allStopped (k : Core) : Bool := k.th.toList.all (fun u => u.st = .stopped)
/-- The enabled cores whose threads are all STOPPED (R395). -/
def State.testCores (s : State) : BitVec 16 :=
  BitVec.ofFnLE (fun i : Fin 16 => s.coreEnabled (BitVec.ofNat 4 i.val) && (s.cores.get i.val).allStopped)
/-- Every thread of every enabled core is STOPPED or FROZEN (Table 15.1, items 4 and 5). -/
def State.enabledStopped (s : State) : Bool :=
  (List.range 16).all (fun i => !s.coreEnabled (BitVec.ofNat 4 i) ||
    (s.cores.get i).th.toList.all (fun u => u.st = .stopped || u.st = .frozen))

/-- The precondition of item `i`: 0 when it holds, else the cause of its NOT_RUN (Tables 15.1 and 15.2, R399). -/
def State.bistCause (s : State) (i : Nat) : Nat :=
  let d := s.pil.dmp
  if i < 4 then (if s.testCores = 0 then 16 else 0)
  else if i = 4 ∨ i = 5 then (if s.enabledStopped then 0 else 16)
  else if i = 8 then (if s.hs.trng.latched then 20 else 0)
  else if i = 10 ∨ i = 11 then (if s.fb.hearth.down then 18 else 0)
  else if i = 16 then (if s.fb.plink.down then 18 else 0)
  else if i = 17 then (if s.fb.rings.toList.any (fun r => !r.en) then 0 else 21)
  else if i = 18 then (if (List.range 8).any (fun n => s.pil.cap.chanEn n) then 17 else 0)
  else if i = 21 then (if d.armed && decide (d.hu.vfail + 500 ≤ d.v) then 0 else 19)
  else 0

/-- A record of the report (Table 15.2). -/
def bistRec (result cause : Nat) (dur : Nat) (detail : List Byte) : List Byte :=
  [BitVec.ofNat 8 result, BitVec.ofNat 8 cause] ++ leBytes 4 dur ++ bytesAt detail 0 10

/-- The report (Table 15.2). -/
def Bist.report (b : Bist) (mask : Nat) : List Byte :=
  b.head ++ leBytes 4 mask ++ leBytes 4 b.failed.toNat ++ leBytes 4 b.notRun.toNat ++ [0, 0, 0, 0] ++
    ((List.range 22).map (fun i => match b.recs.find? (fun x => x.1 = i) with | some x => x.2 | none => List.replicate 16 0)).flatten

/-- The BIST_RUN that is running. -/
def State.bistRun? (s : State) : Option Run := s.fl.runs.find? (fun r => match r.kind with | .bist _ _ _ => true | _ => false)

/-- BIST_RUN completes: the report, then BIST_FAIL with the failed mask, or SUCCESS (R351, R401). -/
def State.bistEnd (s : State) : State :=
  match s.bistRun? with
  | none => s
  | some r =>
    match r.kind with
    | .bist mask p n =>
      let b := s.bist
      let s1 := if n = 0 then s else s.modFl (fun f => f.emit (.write p (b.report mask)))
      let s2 := { s1 with bist := {} }
      if b.failed = 0 then s2.finish r.tag 0 else s2.finish r.tag 0x1C (leBytes 4 b.failed.toNat)
    | _ => s

/-- Items whose precondition does not hold are NOT_RUN; the first that runs starts, or BIST_RUN ends (R394, R395). -/
def State.bistNext : Nat → State → State
  | 0, s => s.bistEnd
  | n + 1, s =>
    match s.bist.items with
    | [] => s.bistEnd
    | i :: rest =>
      let k := s.bistCause i
      if k = 0 then { s with bist := { s.bist with start := s.pil.ph.clk, fitA := {}, fitB := {}, cores := if i < 4 then s.testCores else 0 } }
      else
        ({ s with bist := { s.bist with items := rest, failed := setBit s.bist.failed i true, notRun := setBit s.bist.notRun i true,
                                        recs := s.bist.recs ++ [(i, bistRec 3 k 0 [])] } } : State).bistNext n

/-- BIST_RUN (R351, R394, R401). `vcore` in millivolts and `temp` in degrees are what its report gives. -/
def execBistRun (sq : BitVec 4) (vcore : BitVec 16) (temp : BitVec 8) (s : State) : Answer :=
  .next (command sq { op := 0x70, named := [0, 1, 2, 3], range := fun d => decide (d.pn 0 4 < 2 ^ 22),
                      size := fun d => d.dlen = 0 || decide (384 ≤ d.dlen), states := [0, 1, 2, 3] }
    (fun d t r =>
      if r.exclusiveRuns t then r.finish t 0x07
      else
        let mask := d.pn 0 4
        let head : List Byte := [0x4D, 0x58, 0x42, 0x54, 1, BitVec.ofNat 8 r.fb.fclk] ++ leBytes 2 vcore.toNat ++ [temp, 0] ++
          leBytes 6 r.fb.mir.tick.toNat
        let q := r.modRun t (fun x => { x with kind := .bist mask d.dptr d.dlen })
        ({ q with bist := { items := (List.range 22).filter (fun i => mask.testBit i), head := head } } : State).bistNext 23) s)

/-- Free contents from draw `n` on, 16 units from address `a`. -/
def freeLine {w : Nat} (n : Nat) (m : Mem w) (a : Nat) : Mem w :=
  memWriteList m a ((List.range 16).map (fun i => (Config.freeCell (n + i)).setWidth w))

/-- Special register `i` of a thread or its core takes undefined contents (R396): Table 4.13's, and CTXA as number 8. -/
def State.badSpecial (s : State) (c : CoreId) (t : ThId) (i : Nat) (v : Cell) (d : Dbl) : State :=
  match i with
  | 0 => s.modTh c t (fun x => { x with status := v &&& 0x003FFF })
  | 6 => s.modCore c (fun k => { k with cyc := d })
  | 7 => s.modTh c t (fun x => { x with sylcnt := d })
  | 8 => s.modTh c t (fun x => { x with ctxa := v })
  | k => s.modTh c t (fun x => x.mts k v)

/-- The contents of a unit in which a transparent test found a fault are undefined (R396). -/
def State.badUnit (s : State) (u : BistUnit) : State :=
  let v := Config.freeCell s.free
  let w (i : Nat) : Cell := Config.freeCell (s.free + i)
  let d (i : Nat) : Dbl := w (i + 1) ++ w i
  let s1 : State := match u with
    | .localCell c a => s.modCore c (fun k => { k with lmem := memWrite k.lmem a.toNat v })
    | .window c t i => s.modTh c t (fun x => { x with win := x.win.set i.toNat v })
    | .retStack c t i => s.modTh c t (fun x => { x with rs := x.rs.set i.toNat v })
    | .special c t i => s.badSpecial c t i.toNat v (d 1)
    | .privBits c t i => s.modTh c t (fun x => { x with bits := setField x.bits (16 * i.toNat) 16 v.toNat })
    | .arm c t i =>
      let x : Arm := { bit := v.setWidth 16, level := (v >>> 16).setWidth 3, en := v.getLsbD 19 }
      s.modTh c t (fun y => { y with arms := y.arms.set i.toNat x })
    | .coreBits c i => s.modCore c (fun k => { k with bits := setField k.bits (16 * i.toNat) 16 v.toNat })
    | .patchWord c i => s.modCore c (fun k => { k with cs := { k.cs with patch := memWrite k.cs.patch (0xA00 + i.toNat) ((d 0 ++ d 2).setWidth 96) } })
    | .openWord c i => s.modCore c (fun k => { k with cs := { k.cs with openw := memWrite k.cs.openw (0xC00 + i.toNat) ((d 0 ++ d 2).setWidth 96) } })
    | .matchPoint c i => s.modCore c (fun k => { k with cs := { k.cs with points := k.cs.points.set i.toNat ((d 0).setWidth 32) } })
    | .dispatch c i => s.modCore c (fun k => { k with cs := { k.cs with disp := k.cs.disp.set i.toNat ((d 0).setWidth 32) } })
    | .progLine l => s.modFb (fun f => { f with prog := freeLine s.free f.prog (16 * l.toNat) })
    | .cellLine l =>
      let a := 16 * l.toNat
      s.modFb (fun f => if 0x100000 ≤ a ∧ a < 0x200000 then { f with shared := freeLine s.free f.shared a }
        else if 0x200000 ≤ a ∧ a < 0x400000 then { f with ember := freeLine s.free f.ember a } else f)
  { s1 with free := s.free + 16 }

/-- Item `i` can find unit `u` faulty, on a core it tests or in its memory (Table 15.1). -/
def State.unitOf (s : State) (i : Nat) (u : BistUnit) : Bool :=
  let tested (c : CoreId) : Bool := s.bist.cores.getLsbD c.toNat
  match u with
  | .localCell c _ => i = 0 && tested c
  | .window c _ _ | .retStack c _ _ | .privBits c _ _ | .arm c _ _ | .coreBits c _ => i = 1 && tested c
  | .special c _ k => i = 1 && tested c && decide (k.toNat ≤ 8)
  | .patchWord c k => i = 3 && tested c && decide (k.toNat < 0x200)
  | .openWord c _ | .matchPoint c _ | .dispatch c _ => i = 3 && tested c
  | .progLine l => i = 4 && decide (l.toNat < 0xC000)
  | .cellLine l =>
    let a := 16 * l.toNat
    (i = 5 && decide (0x100000 ≤ a) && decide (a < 0x200000)) ||
    (i = 6 && decide (0x200000 ≤ a) && decide (a < 0x400000) &&
      s.fb.rings.toList.all (fun r => !r.en || decide (a + 16 ≤ r.base.toNat) || decide (r.base.toNat + r.lenN ≤ a)))

/-- The slope of a fit in mV/s, its points 10 µs apart and in microvolts (R399); whole mV/s, rounded down (DESIGN CHOICE, log
entry 106). -/
def Fit.slope (f : Fit) : Int :=
  let n : Int := f.n
  let den : Int := n * f.sxx - f.sx * f.sx
  if den = 0 then 0 else 100 * (n * f.sxy - f.sx * f.sy) / den

/-- C_MEAS in tenths of a microfarad and C_BIST in microfarads, from S_A − S_B in mV/s (R399). -/
def huMeas (d : Nat) : Nat × Nat := (20000000 / d, 1940000 / d)

/-- The outcome of item 21 (R399): result, cause, detail, and the c_bist it leaves. Slopes that do not fall give no
capacitance, and the two fields are free. -/
def State.huOutcome (s : State) : Nat × Nat × List Byte × Option Nat :=
  let h := s.pil.dmp.hu.c
  let sa := s.bist.fitA.slope
  let sb := s.bist.fitB.slope
  let diff := sa - sb
  let m := huMeas diff.toNat
  let sl (x : Int) : List Byte := leBytes 2 (BitVec.ofInt 16 x).toNat
  let det (a b : Nat) : List Byte := leBytes 3 a ++ leBytes 2 b ++ sl sa ++ sl sb
  if diff ≤ 0 then (2, 5, det (Config.freeCell s.free).toNat (Config.freeCell (s.free + 1)).toNat, none)
  else if diff.toNat * h < 500000 then (2, 5, det m.1 m.2, none)
  else if 10 * m.2 < 9 * h then (2, 6, det m.1 m.2, some m.2)
  else (1, 0, det m.1 m.2, some m.2)

/-- What item `i` leaves beside its record (R396, R397, R399): undefined units, invalidated I-caches, counted link
errors, a TRNG health failure, two write cycles of every spare, the repeated start read, c_bist. -/
def State.bistEffect (s : State) (i : Nat) (r : BistResult) (pass : Bool) : State :=
  let s1 := if pass then s else (r.bad.filter (s.unitOf i)).foldl State.badUnit s
  if i = 2 then
    { s1 with cores := Vector.ofFn (fun c : Fin 16 =>
        if s.bist.cores.getLsbD c.val then (s1.cores.get c.val).inval else s1.cores.get c.val) }
  else if i = 8 ∧ !pass then s1.trngFail
  else if i = 11 then s1.modVault (fun v => { v with spareCyc := v.spareCyc + 2 })
  else if i = 12 then s1.modHs (fun h => { h with otp := h.otp.startRead r.otp })
  else if i = 14 then s1.modLink .hearth (fun l => { l with errors := satAdd l.errors (leAt r.detail 0 3) })
  else if i = 15 then s1.modLink .pilot (fun l => { l with errors := satAdd l.errors (leAt r.detail 0 3) })
  else if i = 21 then { (s1.modDmp (fun d => { d with cBist := match (s.huOutcome).2.2.2 with | some c => some c | none => d.cBist })) with free := s.free + 2 }
  else s1

/-- The result, cause and detail that the record of item `i` takes: a link test over a link that is down fails with
DOWN, item 21 is judged by R399, the others by what they found. -/
def State.bistVerdict (s : State) (i : Nat) (r : BistResult) : Nat × Nat × List Byte :=
  let down := (i = 14 && s.fb.hearth.down) || (i = 15 && s.fb.plink.down)
  if i = 21 then ((s.huOutcome).1, (s.huOutcome).2.1, (s.huOutcome).2.2.1)
  else if down then (2, 7, r.detail)
  else if r.pass then (1, 0, r.detail) else (2, r.cause.toNat, r.detail)

/-- Item 21 has the 2,000 conversions of each of its fits (R399). -/
def Bist.fitted (b : Bist) : Bool := b.fitA.n = 2000 && b.fitB.n = 2000

/-- BIST_ITEM_DONE: the running item ends, and the next one starts or BIST_RUN completes (R394). SEAL_KAT does not run
while a signature is in progress (R397), and item 21 ends with its last conversion (R399). -/
def execBistItemDone (r : BistResult) (s : State) : Answer :=
  .next (match s.bist.items with
    | [] => s
    | i :: rest =>
      let signing := match s.hs.se.run with | .reserved _ => true | _ => false
      if (i = 7 && signing) || (i = 21 && !s.bist.fitted) || s.bistRun?.isNone then s
      else
        let v := s.bistVerdict i r
        let pass := decide (v.1 = 1)
        let s1 := s.bistEffect i r pass
        let b := s1.bist
        (({ s1 with bist := { b with items := rest, cores := 0, failed := if pass then b.failed else setBit b.failed i true,
                                     recs := b.recs ++ [(i, bistRec v.1 v.2.1 r.durUs.toNat v.2.2)] } } : State).bistNext 23).startRuns)

end Sys2Proof.Machine
end

