-- ==== Sys2Proof/Machine/Pins.lean ====
section
/-! DEFINITION. The outputs of the device at its pins, as Tables 14.7 and 17.3 give them for each state, and as the boundary
register gives them during a scan instruction (R393, R405, R436). The inputs are the commands' own. -/

namespace Sys2Proof.Machine

/-- The columns of Table 17.3 (R436). -/
inductive PinCol where
  | unpowered | standby | reset | running
deriving DecidableEq, Repr, Inhabited

/-- What an output pin does: high impedance (an open-drain pin released), a level, the clock of a transaction in an SPI mode
at 20 MHz / `div`, or the bytes that a transaction sends, the most significant bit of each first (R192). -/
inductive PinOut where
  | highZ | level (b : Bool) | clock (mode div : Nat) | data (bytes : List Byte)
deriving DecidableEq, Repr, Inhabited

/-- The column of the Pilot's pins (R393, R436). -/
def State.pilotCol (s : State) : PinCol :=
  match s.pw.life with
  | .off => .unpowered
  | .standby => .standby
  | .starting => if s.pw.start.kind = .host || s.pw.start.s8 then .running else .reset
  | .running | .pfail | .vaultSafe => .running

/-- A VDDIO_B pin with its scan cells (R405): `cell` drives it while `ctl` is set under EXTEST or CLAMP; without VDDIO_B it
is at high impedance. -/
def State.pinB (s : State) (cell ctl : Nat) (own : PinOut) : PinOut :=
  let t := s.pil.tap
  if s.pw.life = .off || !s.pw.vddioB then .highZ
  else match t.ir with
    | .extest | .clamp => if t.bnd.getLsbD ctl then .level (t.bnd.getLsbD cell) else .highZ
    | .highz => .highZ
    | _ => own

/-- What SPI master `m` does with its output `k`: SCLK, MOSI, CS0 to CS3 (Tables 8.2, 17.3, R192). -/
def State.spiOwn (s : State) (m k : Nat) : PinOut :=
  let c := s.pil.cap
  if s.pilotCol ≠ .running then .highZ
  else match c.spiRun.get m with
    | some slot =>
      let o : Obj := .spi (6 * m + slot)
      if k = 0 then .clock (c.objField o 0 3 2) (c.objField o 0 5 7)
      else if k = 1 then .data (c.spiTx.get m)
      else .level (c.objField o 0 1 2 ≠ k - 2)
    | none => .level (if k = 0 then c.sclkIdle.getLsbD m else decide (2 ≤ k))
/-- Output `k` of SPI master `m` at its pin (Table 15.4). -/
def State.spiPin (s : State) (m k : Nat) : PinOut := s.pinB (17 + 7 * m + k) (17 + 7 * m + 6) (s.spiOwn m k)

/-- What GPIO_DIR and GPIO_OUT do with GPIO`n` (Tables 17.3, 18.15). -/
def State.gpioOwn (s : State) (n : Nat) : PinOut :=
  if s.pilotCol = .running && s.gpioDrive.1.getLsbD n then .level (s.gpioDrive.2.getLsbD n) else .highZ
/-- GPIO`n` as an output (Table 15.4). -/
def State.gpioPin (s : State) (n : Nat) : PinOut := s.pinB (50 + 3 * n) (51 + 3 * n) (s.gpioOwn n)

/-- An open-drain pin of VSTBY with its output cell (R404, R405). -/
def State.odPin (s : State) (cell : Nat) (low : Bool) : PinOut :=
  if s.pw.life = .off then .highZ
  else match s.pil.tap.ir with
    | .extest | .clamp => if s.pil.tap.bnd.getLsbD cell then .highZ else .level false
    | .highz => .highZ
    | _ => if low then .level false else .highZ

/-- LOCKUP_N: low while a core is locked up and the device runs (R163, Table 14.7). -/
def State.lockupN (s : State) : PinOut :=
  s.odPin 45 (!s.pil.lockupPin && s.pilotCol = .running && s.pw.life ≠ .vaultSafe)

/-- PCIE_WAKE_N: low from a wake request until it is released (R322, R391, Table 14.7). -/
def State.wakeN (s : State) : PinOut := s.odPin 47 (!s.pil.wakePin && s.pilotCol ≠ .running)

/-- HOLD_SINK sinks during BIST item 21 from 22.5 to 45 ms (R399, Table 17.3). -/
def State.holdSink (s : State) : Bool :=
  let x := s.pil.ph.clk - s.bist.start
  s.bistRun?.isSome && s.bist.items.head? = some 21 && decide (2250000 ≤ x) && decide (x < 4500000)

/-- Whether a pin shows a high level: the level that the device drives, else the free level `i` of what drives it from outside
(log entry 106). -/
def State.shows (s : State) (o : PinOut) (i : Nat) : Bool := match o with | .level b => b | _ => Config.pinLevel s.free i
/-- A pin is driven. -/
def PinOut.drives (o : PinOut) : Bool := match o with | .highZ => false | _ => true

/-- What Capture-DR loads into cell `i` of the boundary register (R404, Table 15.4): an input cell the level of its pin, an
output cell what the device itself gives its pin, a control cell whether it drives (PRESUMED of IEEE 1149.1 for the
outputs, log entry 106). -/
def State.bndCell (s : State) (i : Nat) : Bool :=
  let p := s.pil
  if i < 6 then (p.ph.ang.get i).level
  else if i < 10 then p.cap.trigPin.getLsbD (i - 6)
  else if i = 12 then !s.pw.perst
  else if i < 17 then Config.pinLevel s.free i
  else if i < 45 then
    let m := (i - 17) / 7
    let k := (i - 17) % 7
    if k = 6 then (s.spiOwn m 1).drives else s.shows (s.spiOwn m k) i
  else if i = 45 then p.lockupPin
  else if i = 46 then s.shows s.lockupN i
  else if i = 47 then p.wakePin
  else if i = 48 then s.shows s.wakeN i
  else
    let n := (i - 49) / 3
    match (i - 49) % 3 with
    | 0 => s.gpioLevels.getLsbD n
    | 1 => s.shows (s.gpioOwn n) i
    | _ => (s.gpioOwn n).drives
/-- What Capture-DR loads into the boundary register. -/
def State.bndCapture (s : State) : BitVec 73 := BitVec.ofFnLE (fun i : Fin 73 => s.bndCell i.val)

end Sys2Proof.Machine
end

