-- ==== Sys2Proof/Machine/Lifecycle.lean ====
section
/-! DEFINITION. FUSE_CMD (section 13.2, R466) and the life-cycle transitions (section 13.4). -/

namespace Sys2Proof.Machine

/-- A FUSE_CMD starts: it is BUSY with the result, cause and FUSE_DATA that it will end with (R466). While BUSY or with
BAR0 out of reach, `run` does nothing. -/
def State.fuseCmd (s : State) (g w : Nat) (run : State → State × Nat × Nat × Nat) : State :=
  if !s.barOn || s.hs.otp.busy.isSome then s
  else
    let s1 := s.modHs (fun h => { h with otp := h.otp.putCmd g w })
    let x := if s.hs.life.isSome then (s1, 4, 0, 0) else run s1
    (x.1.modHs (fun h => { h with otp := { h.otp with busy := some (x.2.1, x.2.2.1, x.2.2.2) } })).laneSync

/-- A FUSE_CMD that ends without having programmed anything. -/
def fuseNo (s : State) (res cause : Nat) : State × Nat × Nat × Nat := (s, res, cause, s.hs.otp.data.toNat)

/-- READ of a word (R356 to R358, R360): the corrected word, marginal when its margins differ. -/
def State.fuseRead (g w : Nat) (s : State) : State × Nat × Nat × Nat :=
  let t := s.hs.otp
  let a := 32 * g + w
  if g = 8 ∨ t.locks.getLsbD (16 + g) then fuseNo s 3 0
  else match t.word g w with
    | none => fuseNo s 2 5
    | some d => (s, if t.differs a then 1 else 0, 0, d.toNat)

/-- FUSE_READ (R357). -/
def execFuseRead (g : BitVec 4) (w : BitVec 5) (s : State) : Answer := .next (s.fuseCmd g.toNat w.toNat (State.fuseRead g.toNat w.toNat))

/-- The states in which a region may be programmed (Table 13.3). -/
def fuseStates (g : Nat) : List Nat := if g = 0 then [] else if g ≤ 3 then [0, 1] else if g = 8 ∨ g = 9 then [0] else [1, 2]

/-- The gate of a programming operation on region `g` (R358, R360, Table 13.3): 0 when it is allowed; `never` marks an
operation that the table gives the region in no state. -/
def State.fuseGate (s : State) (g : Nat) (never : Bool) : Nat :=
  if !(s.life = 0 || s.life = 1 || s.life = 2) then 4
  else if never || g = 0 then 3
  else if !(fuseStates g).contains s.life then 4
  else if s.hs.otp.locks.getLsbD g then 3
  else 0

/-- The result of programming the target bits `bits` of word `a`: OK, MARGINAL, or NOT_SET as 2 (R358). -/
def Otp.outcome (t : Otp) (a : Nat) (bits : BitVec 39) : Nat :=
  if bits &&& ~~~(memRead t.norm a) ≠ 0 then 2 else if bits &&& ~~~(memRead t.strict a) ≠ 0 then 1 else 0
/-- The word `a` has a bit at either margin that the new value lacks: USED (R358). -/
def Otp.used (t : Otp) (a : Nat) (new : BitVec 39) : Bool := (memRead t.norm a ||| memRead t.strict a) &&& ~~~new ≠ 0
/-- Word `a` programmed towards `new`: each bit that does not read 1 at strict margin is pulsed (R359). -/
def Otp.program (t : Otp) (a : Nat) (new : BitVec 39) (o : FuseShot) : Otp := t.pulse a (new &&& ~~~(memRead t.strict a)) o

/-- Several words programmed: the array, and the worst outcome with its cause (R358). -/
def State.fuseProgram (s : State) (ws : List (Nat × BitVec 39)) (o : FuseShot) (data : Nat) : State × Nat × Nat × Nat :=
  let t := ws.foldl (fun (t : Otp) x => t.program x.1 x.2 o) s.hs.otp
  let k := ws.foldl (fun m x => max m (t.outcome x.1 x.2)) 0
  (s.modHs (fun h => { h with otp := t }), k, if k = 2 then 3 else 0, data)

/-- WRITE of a word (R357 to R359); a word of a secret is stored scrambled (R356). -/
def State.fuseWrite (g w : Nat) (o : FuseShot) (s : State) : State × Nat × Nat × Nat :=
  let a := 32 * g + w
  let new := otpEncode (if secretWord g w then scrambled a s.hs.otp.data else s.hs.otp.data)
  let k := s.fuseGate g (g = 8)
  if k ≠ 0 then fuseNo s k 0
  else if !o.vfuse then fuseNo s 2 1
  else if s.hs.otp.used a new then fuseNo s 2 2
  else s.fuseProgram [(a, new)] o s.hs.otp.data.toNat

/-- FUSE_WRITE (R359). `o` is how the antifuses answer. -/
def execFuseWrite (g : BitVec 4) (w : BitVec 5) (o : FuseShot) (s : State) : Answer :=
  .next (s.fuseCmd g.toNat w.toNat (State.fuseWrite g.toNat w.toNat o))

/-- The words of region 8 that GENERATE programs from the TRNG's next 256 bits (R356, R357). -/
def State.genWords (s : State) : List (Nat × BitVec 39) :=
  let b := s.trngBytes 32
  (List.range 8).map (fun i => (256 + i, otpEncode (scrambled (256 + i) (BitVec.ofNat 32 (leAt b (4 * i) 4)))))

/-- GENERATE once its 256 bits are there (R358). -/
def State.fuseGen (o : FuseShot) (s : State) : State × Nat × Nat × Nat :=
  let ws := s.genWords
  let s1 := s.trngTaken 32
  if ws.any (fun x => s.hs.otp.used x.1 x.2) then fuseNo s1 2 2
  else s1.fuseProgram ws o s.hs.otp.data.toNat

/-- GENERATE of region 8 (R357, R358): it fails at once while the TRNG is latched off (R375). -/
def State.fuseGenerate (g : Nat) (o : FuseShot) (s : State) : State × Nat × Nat × Nat :=
  let k := s.fuseGate g (g ≠ 8)
  if k ≠ 0 then fuseNo s k 0
  else if !o.vfuse then fuseNo s 2 1
  else if s.hs.trng.latched then fuseNo s 2 4
  else s.fuseGen o

/-- A GENERATE that may run waits for the TRNG's startup test (R375). -/
def State.genWaits (s : State) (g : Nat) (o : FuseShot) : Bool :=
  s.barOn && s.hs.otp.busy.isNone && s.hs.life.isNone && s.fuseGate g (g ≠ 8) = 0 && o.vfuse && !s.hs.trng.started && !s.hs.trng.latched

/-- FUSE_GENERATE (R357). It is BUSY while it waits, with the answer that a failing test would give it (R375). -/
def execFuseGenerate (g : BitVec 4) (o : FuseShot) (s : State) : Answer :=
  .next (
    if s.genWaits g.toNat o then
      s.modHs (fun h => { h with otp := { h.otp.putCmd g.toNat 0 with busy := some (2, 4, h.otp.data.toNat), genWait := some o } })
    else s.fuseCmd g.toNat 0 (State.fuseGenerate g.toNat o))

/-- A GENERATE that waited takes its bits once the TRNG delivers (R375). -/
def State.genResume (s : State) : State :=
  match s.hs.otp.genWait with
  | some o =>
    let x := State.fuseGen o s
    (x.1.modHs (fun h => { h with otp := { h.otp with busy := some (x.2.1, x.2.2.1, x.2.2.2), genWait := none } })).laneSync
  | none => s

/-- TRNG_STARTUP_DONE: the startup test has passed, and what waited is served (R374, R375). -/
def execTrngStartupDone (s : State) : Answer :=
  .next (if !(s.vaultOn || s.flueOn) || s.hs.trng.started || s.hs.trng.latched then s
    else
      let s1 := (s.modHs (fun h => { h with trng := { h.trng with started := true, since := s.pil.ph.clk } })).randomRuns.genResume
      if s1.hs.chal.judging.isSome then s1 else s1.serveGets)

/-- LOCK: the write-lock or the read-lock bit of a region in the three copies of the lock map (R357). -/
def State.fuseLock (g : Nat) (rd : Bool) (o : FuseShot) (s : State) : State × Nat × Nat × Nat :=
  let bit : BitVec 39 := BitVec.ofNat 39 (2 ^ (g + if rd then 16 else 0))
  let k := s.fuseGate g false
  if k ≠ 0 then fuseNo s k 0
  else if !o.vfuse then fuseNo s 2 1
  else s.fuseProgram [(6, bit), (7, bit), (8, bit)] o s.hs.otp.data.toNat

/-- FUSE_LOCK (R357). -/
def execFuseLock (g : BitVec 4) (readLock : Bool) (o : FuseShot) (s : State) : Answer :=
  .next (s.fuseCmd g.toNat (if readLock then 1 else 0) (State.fuseLock g.toNat readLock o))

/-- FUSE_COMMAND_END: the result is written and BUSY clears (R358, R466). -/
def execFuseCommandEnd (s : State) : Answer :=
  .next (match (if s.hs.otp.genWait.isSome then none else s.hs.otp.busy) with
    | none => s
    | some (res, cause, data) =>
      s.modHs (fun h => { h with otp :=
        { h.otp with busy := none, result := BitVec.ofNat 3 res, cause := BitVec.ofNat 3 cause, valid := true,
                     data := if res ≤ 1 then BitVec.ofNat 32 data else 0 } }))

/-- The transitions of Table 13.5, and those that need an owner-signed block. -/
def transitions : List (Nat × Nat) := [(0, 1), (1, 2), (2, 3), (3, 2), (0, 4), (1, 4), (2, 4), (3, 4)]
def blockTransitions : List (Nat × Nat) := [(2, 3), (2, 4), (3, 4)]

/-- The prerequisites of a transition (Table 13.5). -/
def State.lifePrereq (s : State) (src dst : Nat) : Bool :=
  let o := s.hs.otp
  match src, dst with
  | 0, 1 => !o.blank 8 0 8 && !o.blank 9 0 8 && !o.blank 1 16 4 && !o.blank 1 0 8
  | 1, 2 => !o.blank 4 0 8 && !o.huBlank && s.hs.se.keyDone
  | 2, 3 => decide (lifeN o.thermo ≤ 14)
  | _, _ => true

/-- The checks of an authorisation block (R367, Table 13.6): 0 when it is accepted. -/
def State.blockCheck (s : State) (b : List Byte) (len dst : Nat) : Byte :=
  let ok := b.take 4 == [0x4D, 0x58, 0x4C, 0x43] && fld b 4 1 = 1 && fld b 5 1 = dst && (fld b 6 1 = 2 || fld b 6 1 = 3) &&
    fld b 7 1 = s.life && fld b 12 4 = 0 && bytesAt b 24 16 == s.hs.otp.deviceId && bytesAt b 40 24 == List.replicate 24 0 &&
    len = 120 + fld b 10 2
  if !ok then 0x10
  else if !s.tokenNew (fld b 16 8) then 0x15
  else if !s.hs.otp.keyFits (fld b 6 1) (bytesAt b 64 56) then 0x12
  else if !lmsVerify (bytesAt b 64 56) (b.take 64) (bytesAt b 120 (fld b 10 2)) then 0x13
  else 0

/-- The thermometer after a transition: one bit more, or bit 31 (Table 13.5). -/
def thermoAfter (t : W32) (dst : Nat) : W32 := if dst = 4 then setBit t 31 true else setBit t (lifeN t) true

/-- The payload of the LIFECYCLE log (Table 13.7). `blk` is the authorisation block, if there is one. -/
def State.lifePayload (s : State) (src dst : Nat) (blk : Option (List Byte)) : List Byte :=
  let t := thermoAfter s.hs.otp.thermo dst
  let f (i n : Nat) : List Byte := match blk with | some b => bytesAt b i n | none => List.replicate n 0
  [BitVec.ofNat 8 src, BitVec.ofNat 8 dst, BitVec.ofNat 8 (lifeN t), BitVec.ofNat 8 (roundTrips t), if blk.isSome then 1 else 0] ++
    f 6 1 ++ f 8 2 ++ f 16 8 ++ s.hs.otp.deviceId ++ (if s.hs.se.keyDone then sha256 s.hs.se.pub else List.replicate 32 0)

/-- A transition goes on past its checks (R366 step 2): its log, or none where the Damper admits nothing. -/
def State.beginLife (s : State) (t src dst : Nat) (blk : Option (List Byte)) : State :=
  let logged := s.pil.dmp.huValid && s.pil.dmp.hu.c ≠ 0
  let todo : List CKind := match blk with | some b => [.tokenId (fld b 16 8)] | none => []
  let s1 := (s.modHs (fun h => { h with life := some { src := src, dst := dst, tag := t, logged := logged, ready := !logged,
                                                       waitSeal := logged && dst = 4 } })).modRun t
    (fun r => { r with kind := .lifecycle, todo := if logged then todo else [] })
  if logged then s1.submit (s.devLog 0x84 (s.lifePayload src dst blk)) (some t) else s1

/-- LIFECYCLE (R353, R365 to R367). -/
def execLifecycle (sq : BitVec 4) (buf : Option (List Byte)) (s : State) : Answer :=
  .next (command sq { op := 0x90, reads := true, named := [0], range := fun d => decide (d.p 0 ≤ 4),
                      size := fun d => d.dlen = 0 || !(transitions.contains (s.life, d.p 0)) || blockTransitions.contains (s.life, d.p 0),
                      states := [0, 1, 2, 3] }
    (fun d t r =>
      let src := r.life
      let dst := d.p 0
      if r.exclusiveRuns t then r.finish t 0x07
      else if r.fb.hearth.down then r.finish t 0x0E
      else if !transitions.contains (src, dst) || !r.lifePrereq src dst then r.finish t 0x04
      else if (src, dst) ≠ (2, 3) ∧ !r.enabledStopped then r.finish t 0x08
      else if !blockTransitions.contains (src, dst) then r.beginLife t src dst none
      else match buf with
        | none => r.finish t 0x06
        | some x =>
          let b := bytesAt x 0 d.dlen
          let st := r.blockCheck b d.dlen dst
          if st ≠ 0 then r.finish t st else r.beginLife t src dst (some b)) s)

/-- The fuse bits of a transition (R364, R366 step 4, Table 13.5): the array address of a copy and the bit, each bit in copy 0,
then copy 1, then copy 2. -/
def burnShots (src dst : Nat) (t : W32) : List (Nat × Nat) :=
  let three (w b : Nat) : List (Nat × Nat) := [(w, b), (w + 1, b), (w + 2, b)]
  three 0 (if dst = 4 then 31 else lifeN t) ++
    (if dst = 4 then three 3 0
     else if src = 0 ∧ dst = 1 then three 6 8 ++ three 6 9 ++ three 6 24 ++ three 6 25
     else if src = 1 ∧ dst = 2 then three 6 1 ++ three 6 2 ++ three 6 3
     else [])
/-- One bit of one copy of a region 0 word set at both margins. -/
def Otp.setCopy (t : Otp) (w b : Nat) : Otp := t.pulse w (BitVec.ofNat 39 (2 ^ b)) { vfuse := true, unset := 0, weak := 0 }

/-- BLANK to FACTORY erases the vault: every line is written with 0 (R366 step 5); wear and bad blocks are the memory's
own. -/
def Hearth.eraseVault (h : Hearth) : Hearth :=
  let v := h.vault
  { h with
    vault := { wear := memWriteList v.wear 0 ((List.range 131072).map (fun l => memRead v.wear l + 1)), spareCyc := v.spareCyc,
               bad := v.bad, retiring := v.retiring, spares := v.spares, nextId := v.nextId, torn := v.torn, ue := v.ue,
               unclean := v.unclean },
    se := {} }

/-- The HS wipe (R365): keys, the Seal engine's working copies and the TRNG FIFO go, and keys are derived for the new
state. -/
def Hearth.wipe (h : Hearth) : Hearth :=
  let kept := (h.vault.seals.filter (fun x => x.durable || h.vault.adm.any (fun c => decide (c.kind = .sealRec x.cord)))).map (·.cord)
  ({ h with keys := h.otp.deriveKeys, se := (h.se.reset kept).sweep h.vault.secrets.isSome, trng := { h.trng with fifo := [] } } : Hearth).openSecrets

/-- In RETIRED the vault accepts no write (R368): the requests that wait are gone, a log among them is dropped, a command
among them ends (log entry 101). -/
def State.refuseWaiting (s : State) : State :=
  if s.life ≠ 4 then s
  else
    s.hs.vault.wait.foldl (fun (q : State) c =>
      let q1 := q.unwait c
      let q2 := match c.kind with | .slot i => q1.dropLog i | _ => q1
      match c.tag with | some t => q2.finish t 0x04 | none => q2) s

/-- The FB wipe (R365): a CORE reset of every core, the Sweep of its memories and of the trace buffer (R421), the
reinstall of the bundles in the new state; no image runs. -/
def State.wipeFirebox (s : State) : State :=
  let s1 := (List.range 16).foldl (fun (q : State) i => q.resetCore (BitVec.ofNat 4 i)) s
  let s2 := s1.modFb (fun f => { f with prog := [], shared := [], ember := [],
                                        trace := { f.trace with recs := [], wptr := 0, full := false, since := 0 } })
  { s2 with cores := s2.cores.map (fun k => { k with lmem := [], reinst := installState s.life }),
            img := { instPatch := s.img.instPatch, instOpen := s.img.instOpen } }

/-- Step 3 of R366 is over: no seal to wait for, the log's seal released, sealing stopped, or no key pair. -/
def State.lifeSealed (s : State) (l : LifeRun) : Bool :=
  !l.waitSeal || s.hs.se.stopped || !s.hs.se.keyDone ||
    (match l.logSeq with | some q => s.hs.vault.logs.any (fun x => x.seq = q && x.sealed) | none => false)

/-- The end of a transition, once its fuses are set (R353, R366): new lane frames, the erase, the wipes, the completion. -/
def State.endLife (s : State) (l : LifeRun) : State :=
  let s1 := (s.modHs (fun h => { h with chal := { h.chal with unlocked := false }, life := none })).laneSync
  let s2 := if l.src = 0 ∧ l.dst = 1 then s1.modHs Hearth.eraseVault else s1
  let s3 := if (l.src, l.dst) ≠ (2, 3) then (s2.wipeFirebox.modHs Hearth.wipe).refuseWaiting else s2
  let s4 := ({ s3 with pil := { s3.pil with tap := { s3.pil.tap with rights := 0 } } } : State).endRights
  (s4.finish l.tag 0 [BitVec.ofNat 8 l.dst]).syncDstate

/-- A transition may set its fuses: its log is durable, and sealed where R366 asks for it; no FUSE_CMD runs (R360); no locked
core still has to report where a wipe resets it (R166). -/
def State.mayBurn (s : State) (l : LifeRun) : Bool :=
  l.ready && s.hs.otp.busy.isNone && s.lifeSealed l && !s.pw.hostWait &&
    ((l.src, l.dst) = (2, 3) || (List.range 16).all (fun i => s.mayReset (BitVec.ofNat 4 i)))

/-- LIFECYCLE_FUSE_BURN: the next fuse bit of a transition is set in one copy (R364, R366 step 4); after the last one steps 5
and 6 follow, and the completion (R353). -/
def execLifecycleFuseBurn (s : State) : Answer :=
  .next (match s.hs.life with
    | none => s
    | some l =>
      if l.shots.isNone && !s.mayBurn l then s
      else
        match l.shots.getD (burnShots l.src l.dst s.hs.otp.thermo) with
        | [] => s.endLife l
        | (w, b) :: rest =>
          let s1 := s.modHs (fun h => { h with otp := h.otp.setCopy w b, life := some { l with shots := some rest } })
          if rest.isEmpty then s1.endLife l else s1)

end Sys2Proof.Machine
end

