-- ==== Sys2Proof/Machine/Transfer.lean ====
section
/-! DEFINITION. LIT, PFX and the transfers of control: CALL, JMP, Bcc, RET, CALLX, JMPX (R91 to R93, R95, R110). -/

namespace Sys2Proof.Machine

/-- A taken transfer of thread `t` to `d`, with its BRANCH record (R91, R420). -/
def State.jumpTo (s : State) (c : CoreId) (t : ThId) (src d : PAddr) : State :=
  (s.modTh c t (fun u => { u with pc := d })).traceRec c t 1 src d

/-- LIT pushes the low 24 bits of its immediate (R92). -/
def execLit (c : CoreId) (t : ThId) (v : BitVec 10) (s : State) : Answer :=
  let x : Cell := BitVec.ofInt 24 (signedImm (s.th c t) 10 v.toNat)
  .next (issue c t { word := litW v, net := 1, effect := fun r => r.modTh c t (fun u => u.popPush 0 [x]) } s)

/-- CALL pushes the address after it and transfers to its target (R91). -/
def execCall (c : CoreId) (t : ThId) (d : BitVec 9) (s : State) : Answer :=
  let a := (s.th c t).pc
  let g := branchTarget a (signedImm (s.th c t) 9 d.toNat)
  .next (issue c t
    { word := callW d, rpushes := 1,
      effect := fun r => (r.modTh c t (fun u => u.rpush ((a + 1).setWidth 24))).jumpTo c t a g } s)

/-- JMP transfers to its target (R91). -/
def execJmp (c : CoreId) (t : ThId) (d : BitVec 9) (s : State) : Answer :=
  let a := (s.th c t).pc
  let g := branchTarget a (signedImm (s.th c t) 9 d.toNat)
  .next (issue c t { word := jmpW d, effect := fun r => r.jumpTo c t a g } s)

/-- Bcc transfers to its target if its condition holds (R91, R95). -/
def execBcc (c : CoreId) (t : ThId) (cc : BitVec 4) (d : BitVec 6) (s : State) : Answer :=
  let a := (s.th c t).pc
  let g := branchTarget a (signedImm (s.th c t) 6 d.toNat)
  .next (issue c t
    { word := bccW cc d,
      effect := fun r => if condHolds (s.th c t).status cc then r.jumpTo c t a g else r } s)

/-- PFX accumulates eight bits of prefix; a third in a row raises ILLEGAL (R92, R93). -/
def execPfx (c : CoreId) (t : ThId) (p : BitVec 8) (s : State) : Answer :=
  let u := s.th c t
  .next (issue c t
    { word := pfxW p, illegal := decide (2 ≤ u.pk),
      effect := fun r => r.modTh c t (fun v =>
        { v with pacc := BitVec.ofNat 16 (u.pacc.toNat * 256 + p.toNat), pk := u.pk + 1, grp := u.groupPc }) } s)

/-- A target cell with bits [23:20] not 0 raises BUSERR with the target as OADDR (R110). -/
def targetFault (x : Cell) : Option (FClass × Cell) := if x.toNat < 2 ^ 20 then none else some (.buserr, x)

/-- RET ( -- ) RS:( pa -- ), R110. -/
def execRet (c : CoreId) (t : ThId) (s : State) : Answer :=
  let u := s.th c t
  .next (issue c t
    { word := opW 0x58, rpops := 1, fault := targetFault u.rtop,
      effect := fun r => (r.modTh c t Thread.rpop).jumpTo c t u.pc (BitVec.ofNat 20 u.rtop.toNat) } s)

/-- CALLX ( pa -- ) RS:( -- a+1 ), R110. -/
def execCallx (c : CoreId) (t : ThId) (s : State) : Answer :=
  let u := s.th c t
  .next (issue c t
    { word := opW 0x59, need := 1, rpushes := 1, fault := targetFault (u.top 0),
      effect := fun r =>
        (r.modTh c t (fun v => (v.rpush ((u.pc + 1).setWidth 24)).popPush 1 [])).jumpTo c t u.pc
          (BitVec.ofNat 20 (u.top 0).toNat) } s)

/-- JMPX ( pa -- ), R110. -/
def execJmpx (c : CoreId) (t : ThId) (s : State) : Answer :=
  let u := s.th c t
  .next (issue c t
    { word := opW 0x5A, need := 1, fault := targetFault (u.top 0),
      effect := fun r =>
        (r.modTh c t (fun v => v.popPush 1 [])).jumpTo c t u.pc (BitVec.ofNat 20 (u.top 0).toNat) } s)

end Sys2Proof.Machine
end

