-- ==== Sys2Proof/Machine/Dispatch.lean ====
section
/-! DEFINITION. The dispatch: one arm per command, each one call of its meaning. -/

namespace Sys2Proof.Machine

def exec (i : Instr) (s : State) : Host.Outcome State Fault Refusal :=
  match i with
  | .lit c t v => Sys2Proof.Machine.execLit c t v s
  | .call c t d => Sys2Proof.Machine.execCall c t d s
  | .jmp c t d => Sys2Proof.Machine.execJmp c t d s
  | .bcc c t cc d => Sys2Proof.Machine.execBcc c t cc d s
  | .pfx c t p => Sys2Proof.Machine.execPfx c t p s
  | .setb c t a => Sys2Proof.Machine.execSetb c t a s
  | .clrb c t a => Sys2Proof.Machine.execClrb c t a s
  | .tstb c t a => Sys2Proof.Machine.execTstb c t a s
  | .tglb c t a => Sys2Proof.Machine.execTglb c t a s
  | .nop c t => Sys2Proof.Machine.execNop c t s
  | .dup c t => Sys2Proof.Machine.execDup c t s
  | .drop c t => Sys2Proof.Machine.execDrop c t s
  | .swap c t => Sys2Proof.Machine.execSwap c t s
  | .over c t => Sys2Proof.Machine.execOver c t s
  | .rot c t => Sys2Proof.Machine.execRot c t s
  | .nip c t => Sys2Proof.Machine.execNip c t s
  | .tuck c t => Sys2Proof.Machine.execTuck c t s
  | .twoDup c t => Sys2Proof.Machine.execTwoDup c t s
  | .twoDrop c t => Sys2Proof.Machine.execTwoDrop c t s
  | .twoSwap c t => Sys2Proof.Machine.execTwoSwap c t s
  | .twoOver c t => Sys2Proof.Machine.execTwoOver c t s
  | .tor c t => Sys2Proof.Machine.execTor c t s
  | .fromr c t => Sys2Proof.Machine.execFromr c t s
  | .rfetch c t => Sys2Proof.Machine.execRfetch c t s
  | .depth c t => Sys2Proof.Machine.execDepth c t s
  | .add c t => Sys2Proof.Machine.execAdd c t s
  | .sub c t => Sys2Proof.Machine.execSub c t s
  | .adc c t => Sys2Proof.Machine.execAdc c t s
  | .sbc c t => Sys2Proof.Machine.execSbc c t s
  | .neg c t => Sys2Proof.Machine.execNeg c t s
  | .abs c t => Sys2Proof.Machine.execAbs c t s
  | .inc c t => Sys2Proof.Machine.execInc c t s
  | .dec c t => Sys2Proof.Machine.execDec c t s
  | .cmp c t => Sys2Proof.Machine.execCmp c t s
  | .tst c t => Sys2Proof.Machine.execTst c t s
  | .min c t => Sys2Proof.Machine.execMin c t s
  | .max c t => Sys2Proof.Machine.execMax c t s
  | .satadd c t => Sys2Proof.Machine.execSatadd c t s
  | .satsub c t => Sys2Proof.Machine.execSatsub c t s
  | .add2 c t => Sys2Proof.Machine.execAdd2 c t s
  | .sub2 c t => Sys2Proof.Machine.execSub2 c t s
  | .and c t => Sys2Proof.Machine.execAnd c t s
  | .or c t => Sys2Proof.Machine.execOr c t s
  | .xor c t => Sys2Proof.Machine.execXor c t s
  | .not c t => Sys2Proof.Machine.execNot c t s
  | .shl c t => Sys2Proof.Machine.execShl c t s
  | .shr c t => Sys2Proof.Machine.execShr c t s
  | .sar c t => Sys2Proof.Machine.execSar c t s
  | .rol c t => Sys2Proof.Machine.execRol c t s
  | .shl1 c t => Sys2Proof.Machine.execShl1 c t s
  | .shr1 c t => Sys2Proof.Machine.execShr1 c t s
  | .sar1 c t => Sys2Proof.Machine.execSar1 c t s
  | .clz c t => Sys2Proof.Machine.execClz c t s
  | .popc c t => Sys2Proof.Machine.execPopc c t s
  | .sext12 c t => Sys2Proof.Machine.execSext12 c t s
  | .zext12 c t => Sys2Proof.Machine.execZext12 c t s
  | .ext2 c t => Sys2Proof.Machine.execExt2 c t s
  | .mul c t => Sys2Proof.Machine.execMul c t s
  | .mulu c t => Sys2Proof.Machine.execMulu c t s
  | .mac c t => Sys2Proof.Machine.execMac c t s
  | .mfl c t => Sys2Proof.Machine.execMfl c t s
  | .mfh c t => Sys2Proof.Machine.execMfh c t s
  | .div c t => Sys2Proof.Machine.execDiv c t s
  | .divu c t => Sys2Proof.Machine.execDivu c t s
  | .mod c t => Sys2Proof.Machine.execMod c t s
  | .sqrt c t => Sys2Proof.Machine.execSqrt c t s
  | .tli c t => Sys2Proof.Machine.execTli c t s
  | .ld c t => Sys2Proof.Machine.execLd c t s
  | .st c t => Sys2Proof.Machine.execSt c t s
  | .ldt c t => Sys2Proof.Machine.execLdt c t s
  | .ldtu c t => Sys2Proof.Machine.execLdtu c t s
  | .stt c t => Sys2Proof.Machine.execStt c t s
  | .ld2 c t => Sys2Proof.Machine.execLd2 c t s
  | .st2 c t => Sys2Proof.Machine.execSt2 c t s
  | .ldd c t => Sys2Proof.Machine.execLdd c t s
  | .pushll c t => Sys2Proof.Machine.execPushll c t s
  | .ldp c t => Sys2Proof.Machine.execLdp c t s
  | .stp c t => Sys2Proof.Machine.execStp c t s
  | .fence c t => Sys2Proof.Machine.execFence c t s
  | .lck c t => Sys2Proof.Machine.execLck c t s
  | .ulk c t => Sys2Proof.Machine.execUlk c t s
  | .setbx c t => Sys2Proof.Machine.execSetbx c t s
  | .clrbx c t => Sys2Proof.Machine.execClrbx c t s
  | .tstbx c t => Sys2Proof.Machine.execTstbx c t s
  | .tglbx c t => Sys2Proof.Machine.execTglbx c t s
  | .pushb c t => Sys2Proof.Machine.execPushb c t s
  | .putb c t => Sys2Proof.Machine.execPutb c t s
  | .tste c t => Sys2Proof.Machine.execTste c t s
  | .ret c t => Sys2Proof.Machine.execRet c t s
  | .callx c t => Sys2Proof.Machine.execCallx c t s
  | .jmpx c t => Sys2Proof.Machine.execJmpx c t s
  | .rete c t => Sys2Proof.Machine.execRete c t s
  | .wait c t => Sys2Proof.Machine.execWait c t s
  | .waitn c t => Sys2Proof.Machine.execWaitn c t s
  | .trap c t => Sys2Proof.Machine.execTrap c t s
  | .brk c t => Sys2Proof.Machine.execBrk c t s
  | .mfs c t => Sys2Proof.Machine.execMfs c t s
  | .mts c t => Sys2Proof.Machine.execMts c t s
  | .mfs2 c t => Sys2Proof.Machine.execMfs2 c t s
  | .swapctx c t => Sys2Proof.Machine.execSwapctx c t s
  | .phc c t => Sys2Proof.Machine.execPhc c t s
  | .phk c t => Sys2Proof.Machine.execPhk c t s
  | .pht c t => Sys2Proof.Machine.execPht c t s
  | .ph3 c t => Sys2Proof.Machine.execPh3 c t s
  | .lopen c t => Sys2Proof.Machine.execLopen c t s
  | .lapp c t => Sys2Proof.Machine.execLapp c t s
  | .lemb c t => Sys2Proof.Machine.execLemb c t s
  | .lcommit c t => Sys2Proof.Machine.execLcommit c t s
  | .ldrop c t => Sys2Proof.Machine.execLdrop c t s
  | .lstat c t => Sys2Proof.Machine.execLstat c t s
  | .etrig c t => Sys2Proof.Machine.execEtrig c t s
  | .openCode c t k => Sys2Proof.Machine.execOpenCode c t k s
  | .unassignedOp c t k => Sys2Proof.Machine.execUnassignedOp c t k s
  | .routineEnd c => Sys2Proof.Machine.execRoutineEnd c s
  | .microWaitTimeout c => Sys2Proof.Machine.execMicroWaitTimeout c s
  | .routineLengthLimit c => Sys2Proof.Machine.execRoutineLengthLimit c s
  | .loadComplete c t => Sys2Proof.Machine.execLoadComplete c t s
  | .deferredLoadComplete c t => Sys2Proof.Machine.execDeferredLoadComplete c t s
  | .lineFillComplete c line => Sys2Proof.Machine.execLineFillComplete c line s
  | .storeDrain c => Sys2Proof.Machine.execStoreDrain c s
  | .lockGrant line => Sys2Proof.Machine.execLockGrant line s
  | .bellowsStart c => Sys2Proof.Machine.execBellowsStart c s
  | .spillComplete c => Sys2Proof.Machine.execSpillComplete c s
  | .fillComplete c => Sys2Proof.Machine.execFillComplete c s
  | .swapctxComplete c => Sys2Proof.Machine.execSwapctxComplete c s
  | .eventBitWake c t => Sys2Proof.Machine.execEventBitWake c t s
  | .eventEntry c t => Sys2Proof.Machine.execEventEntry c t s
  | .lockupQuiescent c => Sys2Proof.Machine.execLockupQuiescent c s
  | .lockupReport c => Sys2Proof.Machine.execLockupReport c s
  | .frozenStateArrival c => Sys2Proof.Machine.execFrozenStateArrival c s
  | .stopTakesEffect c t => Sys2Proof.Machine.execStopTakesEffect c t s
  | .angleEdge j level => Sys2Proof.Machine.execAngleEdge j level s
  | .camEdge level => Sys2Proof.Machine.execCamEdge level s
  | .standstillTimeout j => Sys2Proof.Machine.execStandstillTimeout j s
  | .tickHoldover => Sys2Proof.Machine.execTickHoldover s
  | .comparatorHit n => Sys2Proof.Machine.execComparatorHit n s
  | .checkpointTimer => Sys2Proof.Machine.execCheckpointTimer s
  | .standbyTooth w level => Sys2Proof.Machine.execStandbyTooth w level s
  | .stbyWakeTeethReached => Sys2Proof.Machine.execStbyWakeTeethReached s
  | .standbyTrigEdge p level => Sys2Proof.Machine.execStandbyTrigEdge p level s
  | .channelSample ch => Sys2Proof.Machine.execChannelSample ch s
  | .adcConversionDone code => Sys2Proof.Machine.execAdcConversionDone code s
  | .spiTransaction m => Sys2Proof.Machine.execSpiTransaction m s
  | .spiTransactionDone m rx => Sys2Proof.Machine.execSpiTransactionDone m rx s
  | .canFrame j f valid => Sys2Proof.Machine.execCanFrame j f valid s
  | .discreteChange gpio => Sys2Proof.Machine.execDiscreteChange gpio s
  | .emberEntryWrite => Sys2Proof.Machine.execEmberEntryWrite s
  | .trigEdge p level => Sys2Proof.Machine.execTrigEdge p level s
  | .triggerPulse => Sys2Proof.Machine.execTriggerPulse s
  | .triggerRecord => Sys2Proof.Machine.execTriggerRecord s
  | .copyBurst => Sys2Proof.Machine.execCopyBurst s
  | .copyComplete slot => Sys2Proof.Machine.execCopyComplete slot s
  | .appendComplete slot => Sys2Proof.Machine.execAppendComplete slot s
  | .holdSenseConversion code => Sys2Proof.Machine.execHoldSenseConversion code s
  | .damperMeasurement => Sys2Proof.Machine.execDamperMeasurement s
  | .commitDurable k => Sys2Proof.Machine.execCommitDurable k s
  | .cordTimer => Sys2Proof.Machine.execCordTimer s
  | .sealStart => Sys2Proof.Machine.execSealStart s
  | .sealRelease => Sys2Proof.Machine.execSealRelease s
  | .treeBuildDone => Sys2Proof.Machine.execTreeBuildDone s
  | .blockRetire b => Sys2Proof.Machine.execBlockRetire b s
  | .blockCopyDone b => Sys2Proof.Machine.execBlockCopyDone b s
  | .vaultScrub line errs => Sys2Proof.Machine.execVaultScrub line errs s
  | .powerFailWarning cause => Sys2Proof.Machine.execPowerFailWarning cause s
  | .vaultSafe => Sys2Proof.Machine.execVaultSafe s
  | .standbyEntry => Sys2Proof.Machine.execStandbyEntry s
  | .flitCrcError l => Sys2Proof.Machine.execFlitCrcError l s
  | .linkRetrainDone l ok => Sys2Proof.Machine.execLinkRetrainDone l ok s
  | .thermalThreshold d temp => Sys2Proof.Machine.execThermalThreshold d temp s
  | .poll => Sys2Proof.Machine.execPoll s
  | .pollComplete r => Sys2Proof.Machine.execPollComplete r s
  | .descriptorFetch sq => Sys2Proof.Machine.execDescriptorFetch sq s
  | .descriptorReadComplete sq r => Sys2Proof.Machine.execDescriptorReadComplete sq r s
  | .bqFetchComplete q r => Sys2Proof.Machine.execBqFetchComplete q r s
  | .exportStart q => Sys2Proof.Machine.execExportStart q s
  | .exportRecord q => Sys2Proof.Machine.execExportRecord q s
  | .shadowWrite => Sys2Proof.Machine.execShadowWrite s
  | .coalesceTimer q => Sys2Proof.Machine.execCoalesceTimer q s
  | .exportMarkWrite => Sys2Proof.Machine.execExportMarkWrite s
  | .linkL1Entry => Sys2Proof.Machine.execLinkL1Entry s
  | .busMasterEnable on => Sys2Proof.Machine.execBusMasterEnable on s
  | .powerStateChange d3hot pmeEn => Sys2Proof.Machine.execPowerStateChange d3hot pmeEn s
  | .linkHotReset => Sys2Proof.Machine.execLinkHotReset s
  | .msixTableWrite e dw v => Sys2Proof.Machine.execMsixTableWrite e dw v s
  | .ringEnable r v => Sys2Proof.Machine.execRingEnable r v s
  | .sqDisable n => Sys2Proof.Machine.execSqDisable n s
  | .cqDisable n => Sys2Proof.Machine.execCqDisable n s
  | .eqDisable n => Sys2Proof.Machine.execEqDisable n s
  | .badOpcode sq => Sys2Proof.Machine.execBadOpcode sq s
  | .identify sq => Sys2Proof.Machine.execIdentify sq s
  | .statsRead sq => Sys2Proof.Machine.execStatsRead sq s
  | .pubkeyRead sq => Sys2Proof.Machine.execPubkeyRead sq s
  | .setFclk sq vcore => Sys2Proof.Machine.execSetFclk sq vcore s
  | .fclkRelockDone => Sys2Proof.Machine.execFclkRelockDone s
  | .configWrite sq buf => Sys2Proof.Machine.execConfigWrite sq buf s
  | .imageLoad sq buf => Sys2Proof.Machine.execImageLoad sq buf s
  | .bundleLoad sq buf => Sys2Proof.Machine.execBundleLoad sq buf s
  | .threadStart sq => Sys2Proof.Machine.execThreadStart sq s
  | .threadStop sq => Sys2Proof.Machine.execThreadStop sq s
  | .coreReset sq => Sys2Proof.Machine.execCoreReset sq s
  | .bundleReinstallDone c => Sys2Proof.Machine.execBundleReinstallDone c s
  | .threadQuery sq => Sys2Proof.Machine.execThreadQuery sq s
  | .emberConfig sq buf => Sys2Proof.Machine.execEmberConfig sq buf s
  | .emberControl sq => Sys2Proof.Machine.execEmberControl sq s
  | .logRead sq => Sys2Proof.Machine.execLogRead sq s
  | .cordRead sq => Sys2Proof.Machine.execCordRead sq s
  | .odoRead sq => Sys2Proof.Machine.execOdoRead sq s
  | .service sq buf => Sys2Proof.Machine.execService sq buf s
  | .random sq => Sys2Proof.Machine.execRandom sq s
  | .bistRun sq vcore temp => Sys2Proof.Machine.execBistRun sq vcore temp s
  | .challengeGet sq => Sys2Proof.Machine.execChallengeGet sq s
  | .challengeAnswer sq buf => Sys2Proof.Machine.execChallengeAnswer sq buf s
  | .challengeJudge => Sys2Proof.Machine.execChallengeJudge s
  | .nonceExpiry => Sys2Proof.Machine.execNonceExpiry s
  | .lifecycle sq buf => Sys2Proof.Machine.execLifecycle sq buf s
  | .lifecycleFuseBurn => Sys2Proof.Machine.execLifecycleFuseBurn s
  | .fuseRead g w => Sys2Proof.Machine.execFuseRead g w s
  | .fuseWrite g w o => Sys2Proof.Machine.execFuseWrite g w o s
  | .fuseGenerate g o => Sys2Proof.Machine.execFuseGenerate g o s
  | .fuseLock g readLock o => Sys2Proof.Machine.execFuseLock g readLock o s
  | .fuseCommandEnd => Sys2Proof.Machine.execFuseCommandEnd s
  | .fuseFrame l words => Sys2Proof.Machine.execFuseFrame l words s
  | .trngHealthFail cell samples => Sys2Proof.Machine.execTrngHealthFail cell samples s
  | .trngStartupDone => Sys2Proof.Machine.execTrngStartupDone s
  | .keypairCreated => Sys2Proof.Machine.execKeypairCreated s
  | .coldReset => Sys2Proof.Machine.execColdReset s
  | .mainRailsRestored => Sys2Proof.Machine.execMainRailsRestored s
  | .perstNFall => Sys2Proof.Machine.execPerstNFall s
  | .perstNRise => Sys2Proof.Machine.execPerstNRise s
  | .hostResetBegin => Sys2Proof.Machine.execHostResetBegin s
  | .pllLock => Sys2Proof.Machine.execPllLock s
  | .resetRelease => Sys2Proof.Machine.execResetRelease s
  | .otpStartReadDone o => Sys2Proof.Machine.execOtpStartReadDone o s
  | .sweepDone => Sys2Proof.Machine.execSweepDone s
  | .vaultRecovery newestBad => Sys2Proof.Machine.execVaultRecovery newestBad s
  | .pilotStartLoad => Sys2Proof.Machine.execPilotStartLoad s
  | .bootRom => Sys2Proof.Machine.execBootRom s
  | .rstCtlWrite v => Sys2Proof.Machine.execRstCtlWrite v s
  | .stbyReq v => Sys2Proof.Machine.execStbyReq v s
  | .wakeClear v => Sys2Proof.Machine.execWakeClear v s
  | .pollEnSet v => Sys2Proof.Machine.execPollEnSet v s
  | .registerWrite w => Sys2Proof.Machine.execRegisterWrite w s
  | .armWrite c t j v => Sys2Proof.Machine.execArmWrite c t j v s
  | .comparatorCtrlWrite n v => Sys2Proof.Machine.execComparatorCtrlWrite n v s
  | .comparatorTargetWrite n v => Sys2Proof.Machine.execComparatorTargetWrite n v s
  | .comparatorIncrWrite n v => Sys2Proof.Machine.execComparatorIncrWrite n v s
  | .ringCellWrite r off v => Sys2Proof.Machine.execRingCellWrite r off v s
  | .release r v => Sys2Proof.Machine.execRelease r v s
  | .captureObjectWrite o v => Sys2Proof.Machine.execCaptureObjectWrite o v s
  | .icacheInval c v => Sys2Proof.Machine.execIcacheInval c v s
  | .mseqFaultClear c v => Sys2Proof.Machine.execMseqFaultClear c v s
  | .watchpointWrite c j k v => Sys2Proof.Machine.execWatchpointWrite c j k v s
  | .traceCtlWrite v => Sys2Proof.Machine.execTraceCtlWrite v s
  | .traceFullClear v => Sys2Proof.Machine.execTraceFullClear v s
  | .embqRead c t => Sys2Proof.Machine.execEmbqRead c t s
  | .phStatusRead c t => Sys2Proof.Machine.execPhStatusRead c t s
  | .tapInstruction ir => Sys2Proof.Machine.execTapInstruction ir s
  | .dbgChal => Sys2Proof.Machine.execDbgChal s
  | .dbgAns bits bytes => Sys2Proof.Machine.execDbgAns bits bytes s
  | .dbgNop r => Sys2Proof.Machine.execDbgNop r s
  | .dbgRd r => Sys2Proof.Machine.execDbgRd r s
  | .dbgRdx r => Sys2Proof.Machine.execDbgRdx r s
  | .dbgWr r => Sys2Proof.Machine.execDbgWr r s
  | .dbgHalt r => Sys2Proof.Machine.execDbgHalt r s
  | .threadHalt c t => Sys2Proof.Machine.execThreadHalt c t s
  | .dbgResume r => Sys2Proof.Machine.execDbgResume r s
  | .dbgStep r => Sys2Proof.Machine.execDbgStep r s
  | .dbgAttach r => Sys2Proof.Machine.execDbgAttach r s
  | .dbgInval r => Sys2Proof.Machine.execDbgInval r s
  | .holdoverEnd => Sys2Proof.Machine.execHoldoverEnd s
  | .crystalFailure => Sys2Proof.Machine.execCrystalFailure s
  | .vstbyLoss => Sys2Proof.Machine.execVstbyLoss s
  | .vddioDrop k => Sys2Proof.Machine.execVddioDrop k s
  | .vddioReturn k levels => Sys2Proof.Machine.execVddioReturn k levels s
  | .buildProgressSave => Sys2Proof.Machine.execBuildProgressSave s
  | .bistItemDone r => Sys2Proof.Machine.execBistItemDone r s
  | .verificationEnd => Sys2Proof.Machine.execVerificationEnd s
  | .boundaryUpdate bits => Sys2Proof.Machine.execBoundaryUpdate bits s

end Sys2Proof.Machine
end

