-- ==== Sys2Proof/Machine/Idle.lean ====
section
/-! DEFINITION. What the device does when no command waits: one cycle of the clock that its timebase counts passes, and
what waits for a condition goes on (log entry 4). -/

namespace Sys2Proof.Machine

/-- A flit that reached the other die: the next failure is the first of a new flit (R14). -/
def Link.flitDone (l : Link) : Link := if l.training then l else { l with replays := 0 }

/-- What waits for a condition goes on where the condition holds now: a planned entry (R390), THREAD_STOP, THREAD_START,
CORE_RESET (R137, R166, R339), the PLL relock (R26), EMBER_CONTROL OFF (R343), the TAP's requests (R406, R409). -/
def State.goOn (s : State) : State :=
  s.planStep.stopRuns.startRuns.relockRuns.emberOffRuns.tapRuns.dbgRuns

/-- A PLCLK cycle of the Hearthstone: the vault's write stream goes on (R261), and every fifth cycle the TRNG has another
256 bits (R374). -/
def State.hearthCycle (s : State) : State :=
  let s1 := if s.vaultOn then s.streamCycle else s
  if s1.pil.ph.clk % 5 = 0 then s1.trngFill.randomRuns else s1

/-- A PLCLK cycle of the Flue: at 3.2 GB/s the link takes 256 bytes of export data in eight cycles (R309). -/
def State.flueCycle (s : State) : State :=
  if s.flueTalks && s.pil.ph.clk % 8 = 0 then s.modFl Flue.exportWrite else s

/-- One cycle passes: of PLCLK while it runs (R25, R389), else of SBCLK while VSTBY is in range (R50). -/
def State.cycle (s : State) : State :=
  if s.plclk then (((s.takeDue).modPh Phase.cycle).syncMirror).captureCycle.hearthCycle.flueCycle
  else if s.pw.life = .off then s
  else s.modPh Phase.sbCycle

/-- The step on an empty queue. -/
def State.idle (s : State) : State :=
  (s.cycle.modFb (fun f => { f with hearth := f.hearth.flitDone, plink := f.plink.flitDone })).goOn

end Sys2Proof.Machine
end

