-- ==== Sys2Proof/Safety.lean ====
section
/-! DEFINITION. The terms in which claims are stated: what a safe run is, when a syllable is due, and equality of states
up to the bookkeeping of one thread's fetch and window transfers. -/

namespace Sys2Proof

open Machine

/-- The step from `s` answers a next state: no fault and no refusal ends the run. -/
def Safe (s : State) : Prop := ∃ t, step s = .next t

/-- The syllable `w` is due on thread `t` of core `c`: the thread may issue (R68), its PC lies in program memory or boot
ROM (R21), the line it holds has `w` there (R74), no enabled watchpoint looks on (R417), and a locked sequence that it has
open has room for a syllable other than ULK (R114). -/
structure Due (s : State) (c : CoreId) (t : ThId) (w : Syl) : Prop where
  may : s.mayIssue c t = true
  mapped : progMapped (s.th c t).pc.toNat = true
  word : (s.th c t).fetched = some w
  quiet : ∀ i, i < 8 → ((s.core c).wp.get i).ctl.getLsbD 0 = false
  room : w ≠ 0xF4D → ∀ n, (s.th c t).lockN = some n → n < 15

/-- The word of a zero-operand syllable with OP code `k` (R90). -/
def opWord (k : BitVec 8) : Syl := 0xF#4 ++ k

/-- A zero-operand syllable is due: no PFX precedes it (R93), and a locked sequence, if it is one that the sequence
forbids (R114), is not open. -/
structure DueOp (s : State) (c : CoreId) (t : ThId) (k : BitVec 8) : Prop extends Due s c t (opWord k) where
  noPfx : (s.th c t).pk = 0
  noSeq : k ∈ [0x35, 0x36, 0x37, 0x38, 0x39, 0x47, 0x4C, 0x5B, 0x5C, 0x5D, 0x5E, 0x5F, 0x63, 0x70, 0x71, 0x72, 0x73, 0x74, 0x75, 0x76] →
    (s.th c t).lockN = none

/-- The thread without its window, the marks of its fetch (state READY or BLOCKED on a line, line wanted, line buffer), of
its window transfer, and of the debugger's one-time marks. -/
def Machine.Thread.arch (u : Thread) : Thread :=
  { u with st := .ready, want := none, buf := none, xfer := none, skipWp := none, haltReq := false, step := none,
           w := 0, win := Tab.fill 32 0, dirty := 0 }

/-- The core without the bookkeeping of thread `t`: its `Thread.arch`, the I-cache contents, line fills and requests for
memory slots, the Bellows queue, the thread that issued last. -/
def Machine.Core.arch (k : Core) (t : ThId) : Core :=
  { (k.modTh t Thread.arch) with icache := [], fills := [], slotq := [], bq := [], lastTh := 7 }

/-- The state without the bookkeeping of thread `t` of core `c`. -/
def Machine.State.arch (s : State) (c : CoreId) (t : ThId) : State := s.modCore c (fun k => k.arch t)

/-- The data stack of thread `v` is that of `u` with `pops` cells popped and `xs` pushed, the head of `xs` on top (R96). -/
def StackIs (u v : Thread) (pops : Nat) (xs : List Cell) : Prop :=
  v.w = u.w - pops + xs.length ∧ v.spc = u.spc ∧ (∀ k, k < xs.length → v.top k = xs.getD k 0) ∧
  ∀ k, k + pops < u.w → k + xs.length < 32 → v.top (k + xs.length) = u.top (k + pops)

/-- The flags of SR_STATUS `y` are those of `x` but for the bits that `fs` lists with their values (R94). -/
def FlagsAre (x y : Cell) (fs : List (Nat × Bool)) : Prop :=
  ∀ i, i < 24 → y.getLsbD i = (fs.lookup i).getD (x.getLsbD i)

/-- From `s` to `s'` thread `t` of core `c` has changed by what every issued syllable counts (R87, R111) and the step of
its PC, the state then by `g`, the thread in its window and SR_STATUS; and nothing else has changed but the bookkeeping
that `arch` leaves out. -/
def Changed (s s' : State) (c : CoreId) (t : ThId) (g : State → State) : Prop :=
  s'.arch c t = ((g (s.modTh c t (fun u => u.count.advance))).modTh c t (fun u => { u with status := (s'.th c t).status })).arch c t

/-- Syllable `i` completes on thread `t` of core `c`: it pops `pops` cells, pushes `xs` (the head on top), writes the flags
`fs` and no other bit of SR_STATUS, changes the state by `g`, and changes nothing else. -/
def Does (i : Instr) (s : State) (c : CoreId) (t : ThId) (pops : Nat) (xs : List Cell) (fs : List (Nat × Bool))
    (g : State → State) : Prop :=
  ∃ s', exec i s = .next s' ∧ StackIs (s.th c t) (s'.th c t) pops xs ∧
    FlagsAre (s.th c t).status (s'.th c t).status fs ∧ Changed s s' c t g

/-- Syllable `i` completes so, and what it changes besides is the thread, by `f`. -/
def Runs (i : Instr) (s : State) (c : CoreId) (t : ThId) (pops : Nat) (xs : List Cell) (fs : List (Nat × Bool))
    (f : Thread → Thread) : Prop :=
  Does i s c t pops xs fs (fun r => r.modTh c t f)

/-- Zero-operand syllable `i` with OP code `k` completes so wherever it is due and the window has its `need` operands and
room for what it pushes (R128, R133). -/
def OpRuns (i : Instr) (k : BitVec 8) (need : Nat) (s : State) (c : CoreId) (t : ThId) (pops : Nat) (xs : List Cell)
    (fs : List (Nat × Bool)) (f : Thread → Thread) : Prop :=
  DueOp s c t k → (s.th c t).winCheck need (xs.length - pops) = .ok → Runs i s c t pops xs fs f

/-- The same with an effect on the state. -/
def OpDoes (i : Instr) (k : BitVec 8) (need : Nat) (s : State) (c : CoreId) (t : ThId) (pops : Nat) (xs : List Cell)
    (fs : List (Nat × Bool)) (g : State → State) : Prop :=
  DueOp s c t k → (s.th c t).winCheck need (xs.length - pops) = .ok → Does i s c t pops xs fs g

/-- Z and N of a result (R94). -/
def znOf {w : Nat} (r : BitVec w) : List (Nat × Bool) := [(0, decide (r = 0)), (1, r.msb)]

/-- The signed 24-bit range. -/
def inCell (v : Int) : Bool := decide (-8388608 ≤ v) && decide (v ≤ 8388607)

/-- `v` clamped to the signed 24-bit range. -/
def clampCell (v : Int) : Cell := BitVec.ofInt 24 (max (-8388608) (min v 8388607))

/-- A vault write of kind `k` has been requested: it waits last, with the next number and its cost (R265, R277). -/
def Queues (s s' : State) (k : CKind) : Prop :=
  ∃ x, s'.hs.vault.wait = s.hs.vault.wait ++ [x] ∧ x.kind = k ∧ x.id = s.hs.vault.nextId ∧ x.cost = 8 + (x.lines + 3) / 4

/-- The next descriptor of SQ `sq` is `d`, a command with opcode `op` that may begin and names the parameter bytes
`named`: its reserved bits are 0, its buffer keeps the rules of R324, the life-cycle state is one of `states`
(R324, R325, R327, R328). -/
structure Begins (s : State) (sq : BitVec 4) (d : Desc) (op : Nat) (named states : List Nat) : Prop where
  next : s.nextDesc sq.toNat = some d
  may : s.mayBegin = true
  code : d.byte 0 = op
  zero : d.reserved0 named = true
  buf : d.bufOk = true
  life : s.fLife ∈ states

/-- Command `i`, begun from SQ `sq` as descriptor `d`, has the effect `g` and completes with status `st` and the result
bytes `res` (R301, R326, R327). -/
def Answers (i : Instr) (s : State) (sq : BitVec 4) (d : Desc) (g : State → State) (st : Byte) (res : List Byte) : Prop :=
  exec i s = .next ((g (s.begin_ sq.toNat d)).finish s.fl.nextTag st res)

/-- Command `i`, begun from SQ `sq` as descriptor `d` under tag `t`, goes on in the background (R327): the state is then
`s'` with the command among those that run, as `k` with the writes `todo` to come. -/
def Running (s s' : State) (sq : BitVec 4) (k : RunKind) (todo : List CKind) : Prop :=
  ∃ r, r ∈ s'.fl.runs ∧ r.tag = s.fl.nextTag ∧ r.sq = sq.toNat ∧ r.kind = k ∧ r.todo = todo

/-- Every memory of core `k` is in its canonical form. -/
def Machine.Core.memsWf (k : Core) : Bool :=
  Memory.wf k.lmem && Memory.wf k.cs.patch && Memory.wf k.cs.openw

/-- Every memory of the state is in its canonical form (log entry 1). -/
def Machine.State.memsWf (s : State) : Bool :=
  Memory.wf s.fb.prog && Memory.wf s.fb.shared && Memory.wf s.fb.ember && Memory.wf s.fb.trace.recs &&
  Memory.wf s.pil.cap.objs && Memory.wf s.pil.cap.stg && Memory.wf s.hs.otp.norm && Memory.wf s.hs.otp.strict &&
  Memory.wf s.hs.vault.wear && Memory.wf s.hs.vault.raw && s.cores.toList.all Core.memsWf

/-- The invariant of the model: every memory is in its canonical form, and a fuse that reads 1 at strict margin reads 1 at
normal margin (R358). -/
structure Machine.State.Inv (s : State) : Prop where
  mems : s.memsWf = true
  fuses : ∀ a, memRead s.hs.otp.strict a &&& ~~~(memRead s.hs.otp.norm a) = 0

end Sys2Proof
end

