-- ==== Sys2Proof/Certificates/Slice0/Obligations.lean ====
section
/-! DEFINITION. The statements about the model, in the terms of Safety.lean. -/

open Sys2Proof Sys2Proof.Machine

/-- The queue (log entry 4, the model's own): a step runs the front command on the state with the queue's rest; on an
empty queue a clock cycle passes, and no command is made. -/
def Obligations.StepRunsFront : Prop :=
  (∀ (s : State) (i : Instr), step { s with pending := i :: s.pending } = exec i s) ∧
  (∀ s : State, s.pending = [] → ∃ s', step s = .next s' ∧ s'.pending = [])

/-- The state after reset meets the invariant. -/
def Obligations.ResetMeetsInv : Prop := State.reset.Inv

/-- The invariant of the model: from any state that meets it, whatever the next step is, the next state meets it. The
canonical form is the model's own (log entry 1); the margins are R358's. -/
def Obligations.StepKeepsInv : Prop :=
  ∀ s s' : State, s.Inv → step s = .next s' → s'.Inv

/-- R90, R120 and Table 4.1: every 12-bit word spells one well-formed syllable whose word it is, and the word of every
well-formed syllable spells that syllable. -/
def Obligations.SyllableRoundTrip : Prop :=
  (∀ (i : Instr) (c : CoreId) (t : ThId), sylIssuer i = some (c, t) → i.wf = true →
    ∃ w, encodeSyl i = some w ∧ decodeSyl c t w = i) ∧
  (∀ (c : CoreId) (t : ThId) (w : Syl), let i := decodeSyl c t w
    sylIssuer i = some (c, t) ∧ i.wf = true ∧ encodeSyl i = some w)

/-- R64, R137, R144, R286, R304, R318, R379, R382: what a COLD reset leaves. Values that the log names are left out.
-/
def Obligations.ResetValues : Prop :=
  let s := State.reset
  s.pending = [] ∧ s.pw.life = .starting ∧ s.pw.start.kind = .cold ∧ s.fb.prog = [] ∧ s.fb.shared = [] ∧ s.fb.ember = [] ∧
  s.pil.ph.course = 0 ∧ s.pil.ph.crank = 0 ∧ s.pil.ph.tick = 0 ∧ s.pil.ph.odoValid = false ∧
  (∀ (c : CoreId) (t : ThId), (s.th c t).st = .stopped ∧ (s.th c t).w = 0 ∧ (s.th c t).rsd = 0 ∧
    (s.core c).lockup = none ∧ (s.core c).sb = [] ∧ (s.core c).embq = [] ∧
    ∀ i, i < 8 → ((s.th c t).arms.get i).en = false) ∧
  (∀ i, i < 64 → (s.fb.cmp.get i).en = false) ∧ (∀ i, i < 16 → (s.fb.rings.get i).en = false) ∧
  (∀ i, i < 48 → s.pil.cap.chanEn i = false) ∧ (∀ i, i < 64 → (s.hs.slots.get i).state = .invalid) ∧
  (∀ i, i < 16 → (s.fl.sqs.get i).en = false ∧ (s.fl.cqs.get i).en = false) ∧ (∀ i, i < 4 → (s.fl.eqs.get i).en = false) ∧
  s.fl.poll.en = false ∧ s.fl.bme = false ∧ s.pil.dmp.armed = false ∧ s.pil.dmp.rsv = 0 ∧ s.img.valid = false

/-- R34: a COLD reset sets COURSE, CRANK and TICK to 0; WARM, HOST and CORE resets and the entry into standby change
no phase; in standby TICK goes on and no phase is lost. -/
def Obligations.ResetsKeepPhases : Prop :=
  ∀ s : State,
    let p := s.pil.ph
    (∃ s', exec .coldReset s = .next s' ∧ s'.pil.ph.course = 0 ∧ s'.pil.ph.crank = 0 ∧ s'.pil.ph.tick = 0) ∧
    (∀ i, i = .mainRailsRestored ∨ i = .vaultSafe ∨ i = .perstNFall ∨ i = .hostResetBegin ∨ i = .standbyEntry ∨
        (∃ sq, i = .coreReset sq) →
      ∃ s', exec i s = .next s' ∧ s'.pil.ph.course = p.course ∧ s'.pil.ph.crank = p.crank ∧ s'.pil.ph.tick = p.tick ∧
        s'.pil.ph.sbS = p.sbS ∧ s'.pil.ph.clk = p.clk ∧ s'.pil.ph.ts = p.ts) ∧
    (s.pw.life = .standby → s.pending = [] → p.xtal = true → p.tickLost = false →
      ∃ s', step s = .next s' ∧ s'.pil.ph.tick = BitVec.ofNat 48 (32 * (p.sbS + 1)) ∧ s'.pil.ph.sbS = p.sbS + 1 ∧
        s'.pil.ph.course = p.course ∧ s'.pil.ph.crank = p.crank)

/-- R99 (Table 4.6): the stack moves, DEPTH and NOP. R134 to R136: TOR pushes the return stack, FROMR pops it, RFETCH
copies its top (log entry 38); outside trap mode the ends wrap. -/
def Obligations.StackMoves : Prop :=
  (∀ (s : State) (c : CoreId) (t : ThId),
     let u := s.th c t
     let x := u.top 0
     let y := u.top 1
     OpRuns (.nop c t) 0x00 0 s c t 0 [] [] id ∧
     OpRuns (.dup c t) 0x01 1 s c t 0 [x] [] id ∧
     OpRuns (.drop c t) 0x02 1 s c t 1 [] [] id ∧
     OpRuns (.swap c t) 0x03 2 s c t 2 [y, x] [] id ∧
     OpRuns (.over c t) 0x04 2 s c t 0 [y] [] id ∧
     OpRuns (.rot c t) 0x05 3 s c t 3 [u.top 2, x, y] [] id ∧
     OpRuns (.nip c t) 0x06 2 s c t 2 [x] [] id ∧
     OpRuns (.tuck c t) 0x07 2 s c t 2 [x, y, x] [] id ∧
     OpRuns (.twoDup c t) 0x08 2 s c t 0 [x, y] [] id ∧
     OpRuns (.twoDrop c t) 0x09 2 s c t 2 [] [] id ∧
     OpRuns (.twoSwap c t) 0x0A 4 s c t 4 [u.top 2, u.top 3, x, y] [] id ∧
     OpRuns (.twoOver c t) 0x0B 4 s c t 0 [u.top 2, u.top 3] [] id ∧
     OpRuns (.depth c t) 0x0F 0 s c t 0 [BitVec.ofNat 24 (u.w + u.spc)] [] id) ∧
  (∀ (s : State) (c : CoreId) (t : ThId),
     let u := s.th c t
     let push (x : Cell) (v : Thread) : Thread :=
       { v with rs := v.rs.set ((v.rsp + 1) % 16) x, rsp := (v.rsp + 1) % 16, rsd := if v.rsd < 16 then v.rsd + 1 else v.rsd }
     let pop (v : Thread) : Thread := { v with rsp := (v.rsp + 15) % 16, rsd := v.rsd - 1 }
     let top := u.rs.get u.rsp
     (u.rsBad 0 1 = false → OpRuns (.tor c t) 0x0C 1 s c t 1 [] [] (push (u.top 0))) ∧
     (u.rsBad 1 0 = false → OpRuns (.fromr c t) 0x0D 0 s c t 0 [top] [] pop) ∧
     (u.rsBad 1 1 = false → OpRuns (.rfetch c t) 0x0E 0 s c t 0 [top] [] id) ∧
     (∀ p q, u.rsBad p q = true ↔ u.status.getLsbD 11 = true ∧ (u.rsd < p ∨ 16 < u.rsd - p + q)))

/-- R94, R100: sums and differences wrap; C is the carry out, or 1 where no borrow occurs; V is signed overflow. R99,
R100: ABS, MIN, MAX, the saturating sums, TST. R94, R96, R100: ADD2, SUB2 and EXT2 on double cells, the high cell on
top. R99: the bitwise operations, the counts and the 12-bit extensions. -/
def Obligations.SumsAndLogic : Prop :=
  (∀ (s : State) (c : CoreId) (t : ThId),
     let u := s.th c t
     let y := u.top 0
     let x := u.top 1
     let cin : Nat := if u.status.getLsbD 2 then 1 else 0
     let fl (r : Cell) (cy : Bool) (v : Int) : List (Nat × Bool) := znOf r ++ [(2, cy), (3, !inCell v)]
     OpRuns (.add c t) 0x10 2 s c t 2 [x + y] (fl (x + y) (decide (2 ^ 24 ≤ x.toNat + y.toNat)) (x.toInt + y.toInt)) id ∧
     OpRuns (.sub c t) 0x11 2 s c t 2 [x - y] (fl (x - y) (decide (y.toNat ≤ x.toNat)) (x.toInt - y.toInt)) id ∧
     OpRuns (.adc c t) 0x12 2 s c t 2 [x + y + BitVec.ofNat 24 cin]
       (fl (x + y + BitVec.ofNat 24 cin) (decide (2 ^ 24 ≤ x.toNat + y.toNat + cin)) (x.toInt + y.toInt + cin)) id ∧
     OpRuns (.sbc c t) 0x13 2 s c t 2 [x - y - BitVec.ofNat 24 (1 - cin)]
       (fl (x - y - BitVec.ofNat 24 (1 - cin)) (decide (y.toNat + (1 - cin) ≤ x.toNat)) (x.toInt - y.toInt - (1 - cin : Nat))) id ∧
     OpRuns (.neg c t) 0x14 1 s c t 1 [-y] (fl (-y) (decide (y = 0)) (-y.toInt)) id ∧
     OpRuns (.inc c t) 0x16 1 s c t 1 [y + 1] (fl (y + 1) (decide (y = 0xFFFFFF)) (y.toInt + 1)) id ∧
     OpRuns (.dec c t) 0x17 1 s c t 1 [y - 1] (fl (y - 1) (decide (y ≠ 0)) (y.toInt - 1)) id ∧
     OpRuns (.cmp c t) 0x18 2 s c t 2 [] (fl (x - y) (decide (y.toNat ≤ x.toNat)) (x.toInt - y.toInt)) id) ∧
  (∀ (s : State) (c : CoreId) (t : ThId),
     let u := s.th c t
     let y := u.top 0
     let x := u.top 1
     let ab : Cell := if y.toInt < 0 then -y else y
     let mn : Cell := if y.toInt < x.toInt then y else x
     let mx : Cell := if x.toInt < y.toInt then y else x
     OpRuns (.abs c t) 0x15 1 s c t 1 [ab] (znOf ab ++ [(3, decide (y = 0x800000))]) id ∧
     OpRuns (.min c t) 0x1A 2 s c t 2 [mn] (znOf mn) id ∧
     OpRuns (.max c t) 0x1B 2 s c t 2 [mx] (znOf mx) id ∧
     OpRuns (.satadd c t) 0x1C 2 s c t 2 [clampCell (x.toInt + y.toInt)]
       (znOf (clampCell (x.toInt + y.toInt)) ++ [(3, !inCell (x.toInt + y.toInt))]) id ∧
     OpRuns (.satsub c t) 0x1D 2 s c t 2 [clampCell (x.toInt - y.toInt)]
       (znOf (clampCell (x.toInt - y.toInt)) ++ [(3, !inCell (x.toInt - y.toInt))]) id ∧
     OpRuns (.tst c t) 0x19 1 s c t 0 [] (znOf y ++ [(2, false), (3, false)]) id) ∧
  (∀ (s : State) (c : CoreId) (t : ThId),
     let u := s.th c t
     let d2 : Dbl := u.top 0 ++ u.top 1
     let d1 : Dbl := u.top 2 ++ u.top 3
     let cells (d : Dbl) : List Cell := [d.extractLsb' 24 24, d.setWidth 24]
     let fl (r : Dbl) (cy : Bool) (v : Int) : List (Nat × Bool) := znOf r ++ [(2, cy), (3, decide (v ≠ r.toInt))]
     let e : Dbl := (u.top 0).signExtend 48
     OpRuns (.add2 c t) 0x1E 4 s c t 4 (cells (d1 + d2))
       (fl (d1 + d2) (decide (2 ^ 48 ≤ d1.toNat + d2.toNat)) (d1.toInt + d2.toInt)) id ∧
     OpRuns (.sub2 c t) 0x1F 4 s c t 4 (cells (d1 - d2)) (fl (d1 - d2) (decide (d2.toNat ≤ d1.toNat)) (d1.toInt - d2.toInt)) id ∧
     OpRuns (.ext2 c t) 0x2F 1 s c t 1 (cells e) (znOf e) id) ∧
  (∀ (s : State) (c : CoreId) (t : ThId),
     let u := s.th c t
     let y := u.top 0
     let x := u.top 1
     let z (r : Cell) : List (Nat × Bool) := [(0, decide (r = 0))]
     let lz : Cell := BitVec.ofNat 24 (y.clz).toNat
     let pc : Cell := BitVec.ofNat 24 ((List.range 24).countP (fun i => y.getLsbD i))
     let se : Cell := (y.setWidth 12).signExtend 24
     OpRuns (.and c t) 0x20 2 s c t 2 [x &&& y] (znOf (x &&& y)) id ∧
     OpRuns (.or c t) 0x21 2 s c t 2 [x ||| y] (znOf (x ||| y)) id ∧
     OpRuns (.xor c t) 0x22 2 s c t 2 [x ^^^ y] (znOf (x ^^^ y)) id ∧
     OpRuns (.not c t) 0x23 1 s c t 1 [~~~y] (znOf (~~~y)) id ∧
     OpRuns (.clz c t) 0x2B 1 s c t 1 [lz] (z lz) id ∧
     OpRuns (.popc c t) 0x2C 1 s c t 1 [pc] (z pc) id ∧
     OpRuns (.sext12 c t) 0x2D 1 s c t 1 [se] (znOf se) id ∧
     OpRuns (.zext12 c t) 0x2E 1 s c t 1 [y &&& 0xFFF] (z (y &&& 0xFFF)) id)

/-- R101: the shifts by u[4:0] and the rotations by the count modulo 24. A zero count leaves C; else C is the last bit
shifted out, 0 or the sign past 24 bits, or bit 0 of a rotated result. -/
def Obligations.ShiftsAndRotations : Prop :=
  ∀ (s : State) (c : CoreId) (t : ThId),
    let u := s.th c t
    let n := (u.top 0).toNat % 32
    let m := (u.top 0).toNat % 32 % 24
    let x := u.top 1
    let y := u.top 0
    let cy (k : Nat) (b : Bool) : List (Nat × Bool) := if k = 0 then [] else [(2, b)]
    let sr : Cell := BitVec.ofInt 24 (x.toInt / 2 ^ n)
    OpRuns (.shl c t) 0x24 2 s c t 2 [x <<< n] (znOf (x <<< n) ++ cy n (decide (n ≤ 24) && x.getLsbD (24 - n))) id ∧
    OpRuns (.shr c t) 0x25 2 s c t 2 [x >>> n] (znOf (x >>> n) ++ cy n (decide (n ≤ 24) && x.getLsbD (n - 1))) id ∧
    OpRuns (.sar c t) 0x26 2 s c t 2 [sr] (znOf sr ++ cy n (if n ≤ 24 then x.getLsbD (n - 1) else x.msb)) id ∧
    OpRuns (.rol c t) 0x27 2 s c t 2 [x.rotateLeft m] (znOf (x.rotateLeft m) ++ cy m ((x.rotateLeft m).getLsbD 0)) id ∧
    OpRuns (.shl1 c t) 0x28 1 s c t 1 [y <<< 1] (znOf (y <<< 1) ++ [(2, y.msb)]) id ∧
    OpRuns (.shr1 c t) 0x29 1 s c t 1 [y >>> 1] (znOf (y >>> 1) ++ [(2, y.getLsbD 0)]) id ∧
    OpRuns (.sar1 c t) 0x2A 1 s c t 1 [y.sshiftRight 1] (znOf (y.sshiftRight 1) ++ [(2, y.getLsbD 0)]) id

/-- R102, R104: the divisions truncate toward 0; by zero they give 0, or for MOD the dividend, and V; the most
negative cell by −1 gives V. SQRT gives the floor of the root of a double cell. R87, R102, R103: a product is visible
to the third syllable after its own and to none before; MAC adds to the latest value; in LOOSE an early read gives the
product visible so far and sets E, in STRICT it gives the latest. -/
def Obligations.ProductsAndDivisions : Prop :=
  (∀ (s : State) (c : CoreId) (t : ThId),
     let u := s.th c t
     let y := u.top 0
     let x := u.top 1
     let d : Dbl := y ++ x
     let q : Cell := if y = 0 then 0 else BitVec.ofInt 24 (x.toInt.tdiv y.toInt)
     let qu : Cell := if y = 0 then 0 else BitVec.ofNat 24 (x.toNat / y.toNat)
     let r : Cell := if y = 0 then x else BitVec.ofInt 24 (x.toInt - x.toInt.tdiv y.toInt * y.toInt)
     let rt : Cell := BitVec.ofNat 24 (Nat.sqrt d.toNat)
     let fl (a : Cell) (v : Bool) : List (Nat × Bool) := znOf a ++ [(2, false), (3, v)]
     OpRuns (.div c t) 0x35 2 s c t 2 [q] (fl q (decide (y = 0 ∨ (x = 0x800000 ∧ y = 0xFFFFFF)))) id ∧
     OpRuns (.divu c t) 0x36 2 s c t 2 [qu] (fl qu (decide (y = 0))) id ∧
     OpRuns (.mod c t) 0x37 2 s c t 2 [r] (fl r (decide (y = 0))) id ∧
     OpRuns (.sqrt c t) 0x38 2 s c t 2 [rt] [(0, decide (rt = 0)), (1, false), (2, false), (3, false)] id) ∧
  (∀ (s : State) (c : CoreId) (t : ThId),
     let u := s.th c t
     let y := u.top 0
     let x := u.top 1
     let v := u.count
     let put (d : Dbl) (w : Thread) : Thread := { w with last := d, pend := w.pend ++ [(3, d)] }
     let strict := u.status.getLsbD 12
     let seen : Dbl := if v.pend.isEmpty || !strict then v.prod else u.last
     let fs : List (Nat × Bool) := if v.pend.isEmpty || strict then [] else [(5, true)]
     OpRuns (.mul c t) 0x30 2 s c t 2 [] [] (put (BitVec.ofInt 48 (x.toInt * y.toInt))) ∧
     OpRuns (.mulu c t) 0x31 2 s c t 2 [] [] (put (BitVec.ofNat 48 (x.toNat * y.toNat))) ∧
     OpRuns (.mac c t) 0x32 2 s c t 2 [] [] (put (u.last + BitVec.ofInt 48 (x.toInt * y.toInt))) ∧
     OpRuns (.mfl c t) 0x33 0 s c t 0 [seen.setWidth 24] fs id ∧
     OpRuns (.mfh c t) 0x34 0 s c t 0 [seen.extractLsb' 24 24] fs id) ∧
  (∀ (u : Thread) (d : Dbl), u.pend = [] →
     let v := { u with last := d, pend := u.pend ++ [(3, d)] }
     v.count.prod = u.prod ∧ v.count.count.prod = u.prod ∧ v.count.count.count.prod = d ∧ v.count.count.count.pend = [])

/-- R95 (Table 4.4): Bcc jumps on its condition, one of sixteen in the order of their codes, and goes on without it;
no condition is E, which TSTE copies into B. -/
def Obligations.Conditions : Prop :=
  ∀ (s : State) (c : CoreId) (t : ThId) (cc : BitVec 4) (e : BitVec 6),
    let u := s.th c t
    let st := u.status
    let z := st.getLsbD 0
    let n := st.getLsbD 1
    let cy := st.getLsbD 2
    let v := st.getLsbD 3
    let b := st.getLsbD 4
    let taken := [z, !z, cy, !cy, n, !n, v, !v, cy && !z, !cy || z, n == v, n != v, !z && (n == v), z || (n != v), b, !b].getD cc.toNat false
    let a : PAddr := u.pc + 1 + BitVec.ofInt 20 (BitVec.ofNat (6 + 8 * u.pk) (u.pacc.toNat * 2 ^ 6 + e.toNat)).toInt
    (Due s c t (bccW cc e) → taken = true →
      Does (.bcc c t cc e) s c t 0 [] [] (fun r => (r.modTh c t (fun v => { v with pc := a })).traceRec c t 1 u.pc a)) ∧
    (Due s c t (bccW cc e) → taken = false → Runs (.bcc c t cc e) s c t 0 [] [] id) ∧
    OpRuns (.tste c t) 0x56 0 s c t 0 [] [(4, st.getLsbD 5), (5, false)] id

/-- R91, R92: LIT pushes its immediate, JMP and CALL go to the address after them plus theirs; an immediate is the
prefix accumulated before the field, sign-extended. CALL pushes the address after it. R92, R93: PFX shifts its eight
bits into the accumulator, at most two in a row, and remembers where its group began. R110: RET, CALLX and JMPX go to
the low 20 bits of their target, if its bits 23 to 20 are 0, else raise BUSERR. -/
def Obligations.LiteralsAndBranches : Prop :=
  (∀ (s : State) (c : CoreId) (t : ThId) (v : BitVec 10) (d : BitVec 9),
     let u := s.th c t
     let raw (w f : Nat) : Int := (BitVec.ofNat (w + 8 * u.pk) (u.pacc.toNat * 2 ^ w + f)).toInt
     let target (w f : Nat) : PAddr := u.pc + 1 + BitVec.ofInt 20 (raw w f)
     let jump (a : PAddr) (r : State) : State := (r.modTh c t (fun v => { v with pc := a })).traceRec c t 1 u.pc a
     (Due s c t (litW v) → u.winCheck 0 1 = .ok → Runs (.lit c t v) s c t 0 [BitVec.ofInt 24 (raw 10 v.toNat)] [] id) ∧
     (Due s c t (jmpW d) → Does (.jmp c t d) s c t 0 [] [] (jump (target 9 d.toNat))) ∧
     (Due s c t (callW d) → u.rsBad 0 1 = false →
       Does (.call c t d) s c t 0 [] []
         (fun r => jump (target 9 d.toNat) (r.modTh c t (fun v => v.rpush ((u.pc + 1).setWidth 24)))))) ∧
  (∀ (s : State) (c : CoreId) (t : ThId) (p : BitVec 8),
     let u := s.th c t
     let first := if u.pk = 0 then u.pc else u.grp
     Due s c t (pfxW p) →
     (u.pk < 2 →
       Runs (.pfx c t p) s c t 0 [] []
         (fun v => { v with pacc := BitVec.ofNat 16 (u.pacc.toNat * 256 + p.toNat), pk := u.pk + 1, grp := first })) ∧
     (2 ≤ u.pk → exec (.pfx c t p) s = .next ((s.issued c t).raise c t .illegal u.grp 0))) ∧
  (∀ (s : State) (c : CoreId) (t : ThId),
     let u := s.th c t
     let jump (x : Cell) (r : State) : State :=
       (r.modTh c t (fun v => { v with pc := x.setWidth 20 })).traceRec c t 1 u.pc (x.setWidth 20)
     let bad (i : Instr) (x : Cell) : Prop := exec i s = .next ((s.issued c t).raise c t .buserr u.pc x)
     let top := u.rs.get u.rsp
     (u.rsBad 1 0 = false →
       (top.toNat < 2 ^ 20 → OpDoes (.ret c t) 0x58 0 s c t 0 [] []
         (fun r => jump top (r.modTh c t (fun v => { v with rsp := (v.rsp + 15) % 16, rsd := v.rsd - 1 })))) ∧
       (2 ^ 20 ≤ top.toNat → DueOp s c t 0x58 → u.winCheck 0 0 = .ok → bad (.ret c t) top)) ∧
     (u.rsBad 0 1 = false →
       ((u.top 0).toNat < 2 ^ 20 → OpDoes (.callx c t) 0x59 1 s c t 1 [] []
         (fun r => jump (u.top 0) (r.modTh c t (fun v => v.rpush ((u.pc + 1).setWidth 24))))) ∧
       (2 ^ 20 ≤ (u.top 0).toNat → DueOp s c t 0x59 → u.winCheck 1 0 = .ok → bad (.callx c t) (u.top 0))) ∧
     ((u.top 0).toNat < 2 ^ 20 → OpDoes (.jmpx c t) 0x5A 1 s c t 1 [] [] (jump (u.top 0))) ∧
     (2 ^ 20 ≤ (u.top 0).toNat → DueOp s c t 0x5A → u.winCheck 1 0 = .ok → bad (.jmpx c t) (u.top 0)))

/-- R77, R80, R82, R105: a load that the store buffer serves, or that reads local memory, is served at once: LD, LD2,
LDT, LDTU, LDP push what they read. Any other waits BLOCKED for its completion, if a memory slot is free. -/
def Obligations.Loads : Prop :=
  ∀ (s : State) (c : CoreId) (t : ThId),
    let u := s.th c t
    let a := u.top 0
    let k := s.core c
    let mlvl := u.status.getLsbD 6
    let mem (z : SSize) (b : Nat) : Dbl :=
      match z with
      | .cell => (s.cellMem c b).setWidth 48
      | .dbl => s.cellMem c (b + 1) ++ s.cellMem c b
      | .tine h => ((s.cellMem c b).extractLsb' (if h then 12 else 0) 12).setWidth 48
    let now (z : SSize) (b : Nat) : Option Dbl :=
      match sbLook k.sb b z with
      | .hit d => some d
      | .miss => if region b = .local_ then some (mem z b) else none
      | .wait _ => none
    let later (z : SSize) (b : Nat) : Option Nat :=
      match sbLook k.sb b z with
      | .hit _ => none
      | .miss => if region b = .local_ then none else some 0
      | .wait n => some n
    let hold (y : LoadKind) (n : Nat) (r : State) : State :=
      r.modTh c t (fun v => { v with why := .load y a u.pc n })
    let form (i : Instr) (code : BitVec 8) (y : LoadKind) (z : SSize) (b : Nat) (xs : Dbl → List Cell) : Prop :=
      y.fault s mlvl a = none →
      (∀ d, now z b = some d → OpRuns i code 1 s c t 1 (xs d) [] id) ∧
      (∀ n, later z b = some n → k.maySlot (.thread t) = true → DueOp s c t code → u.winCheck 1 ((xs 0).length - 1) = .ok →
        Does i s c t 0 [] [] (hold y n))
    form (.ld c t) 0x40 .cell .cell a.toNat (fun d => [d.setWidth 24]) ∧
    form (.ldt c t) 0x42 .tineS (.tine (a.getLsbD 0)) (a.toNat / 2) (fun d => [(d.setWidth 12).signExtend 24]) ∧
    form (.ldtu c t) 0x43 .tineU (.tine (a.getLsbD 0)) (a.toNat / 2) (fun d => [(d.setWidth 12).setWidth 24]) ∧
    form (.ld2 c t) 0x45 .dbl .dbl a.toNat (fun d => [d.extractLsb' 24 24, d.setWidth 24]) ∧
    form (.ldp c t) 0x49 .post .cell a.toNat (fun d => [a + 1, d.setWidth 24])

/-- R105, R106, R158: the X1 faults of a data access, highest first: PRIV for a device cell at U; MISALIGN for a
double cell at an odd address; BUSERR for an address outside the cell space, an Ember store, or a device cell that
refuses. R81, R83, R105: ST, STT, ST2 and STP put one entry, the youngest, into the store buffer and complete, if it has
room, and change no memory; one with such a fault raises it against its address, with its operand as OADDR. -/
def Obligations.StoresAndChecks : Prop :=
  (∀ (s : State) (mlvl store : Bool) (a : Nat) (k : Acc), a < 2 ^ 24 →
     let dev := 0x0F0000 ≤ a ∧ a < 0x100000
     let hole := (0x4000 ≤ a ∧ a < 0x0F0000) ∨ 0x400000 ≤ a
     let ember := 0x200000 ≤ a ∧ a < 0x400000
     (accFault s mlvl a k store = some .priv ↔ dev ∧ mlvl = false) ∧
     (accFault s mlvl a k store = some .misalign ↔ ¬(dev ∧ mlvl = false) ∧ k = .dbl ∧ a % 2 = 1) ∧
     (accFault s mlvl a k store = some .buserr ↔ ¬(dev ∧ mlvl = false) ∧ ¬(k = .dbl ∧ a % 2 = 1) ∧
       (hole ∨ (ember ∧ store = true) ∨ (dev ∧ devBad s a k store = true))) ∧
     (accFault s mlvl a k store = none ∨ accFault s mlvl a k store = some .priv ∨ accFault s mlvl a k store = some .misalign ∨
       accFault s mlvl a k store = some .buserr)) ∧
  (∀ (s : State) (c : CoreId) (t : ThId),
     let u := s.th c t
     let a := u.top 0
     let mlvl := u.status.getLsbD 6
     let enters (b : Cell) (z : SSize) (v : Dbl) (r : State) : State :=
       r.modCore c (fun k => { k with sb := k.sb ++ [{ id := k.sbNext, th := t, a := b, size := z, v := v }], sbNext := k.sbNext + 1 })
     (s.core c).sb.length < 16 →
     (accFault s mlvl a.toNat .cell true = none →
       OpDoes (.st c t) 0x41 2 s c t 2 [] [] (enters a .cell ((u.top 1).setWidth 48)) ∧
       OpDoes (.stp c t) 0x4A 2 s c t 2 [a + 1] [] (enters a .cell ((u.top 1).setWidth 48))) ∧
     (tineFault s mlvl a true = none →
       OpDoes (.stt c t) 0x44 2 s c t 2 [] []
         (enters (a >>> 1) (.tine (a.getLsbD 0)) ((u.top 1 &&& 0xFFF).setWidth 48))) ∧
     (accFault s mlvl a.toNat .dbl true = none →
       OpDoes (.st2 c t) 0x46 3 s c t 3 [] [] (enters a .dbl (u.top 1 ++ u.top 2)))) ∧
  (∀ (s : State) (c : CoreId) (t : ThId) (f : FClass),
     let u := s.th c t
     let a := u.top 0
     let mlvl := u.status.getLsbD 6
     let raises (i : Instr) (k : BitVec 8) (need net : Nat) : Prop :=
       DueOp s c t k → u.winCheck need net = .ok → exec i s = .next ((s.issued c t).raise c t f u.pc a)
     (accFault s mlvl a.toNat .cell false = some f → raises (.ld c t) 0x40 1 0 ∧ raises (.ldp c t) 0x49 1 1 ∧ raises (.ldd c t) 0x47 1 0) ∧
     (accFault s mlvl a.toNat .cell true = some f → raises (.st c t) 0x41 2 0 ∧ raises (.stp c t) 0x4A 2 0) ∧
     (accFault s mlvl a.toNat .dbl false = some f → raises (.ld2 c t) 0x45 1 1) ∧
     (accFault s mlvl a.toNat .dbl true = some f → raises (.st2 c t) 0x46 3 0) ∧
     (tineFault s mlvl a false = some f → raises (.ldt c t) 0x42 1 0 ∧ raises (.ldtu c t) 0x43 1 0) ∧
     (tineFault s mlvl a true = some f → raises (.stt c t) 0x44 2 0))

/-- R85, R88: LDD, PUSHLL and FENCE. An LDD that local memory or the store buffer serves, with none outstanding before
it, writes SR_LL; else it is outstanding, and an overlap that is no exact match makes its thread wait (R82). PUSHLL in
LOOSE sets E when it reads early, in STRICT waits. FENCE waits for the stores in the buffer and the thread's deferred
loads. R113 to R115: LCK opens a locked sequence on the line of a shared address and waits for its grant; ULK closes
it, and outside one raises ILLEGAL. -/
def Obligations.DeferredAndLocked : Prop :=
  (∀ (s : State) (c : CoreId) (t : ThId),
     let u := s.th c t
     let a := u.top 0
     let look := sbLook (s.core c).sb a.toNat .cell
     let strict := u.status.getLsbD 12
     (accFault s (u.status.getLsbD 6) a.toNat .cell false = none → u.dl.length < 2 → (s.core c).maySlot (.thread t) = true →
       (∀ x, (look = .hit x ∨ (look = .miss ∧ region a.toNat = .local_ ∧ x = (s.cellMem c a.toNat).setWidth 48)) →
         (u.dl = [] → OpRuns (.ldd c t) 0x47 1 s c t 1 [] [] (fun v => { v with ll := x.setWidth 24 })) ∧
         (u.dl ≠ [] → OpRuns (.ldd c t) 0x47 1 s c t 1 [] []
           (fun v => { v with dl := u.dl ++ [{ a := a, v := some (x.setWidth 24), upto := 0 }] }))) ∧
       (look = .miss → region a.toNat ≠ .local_ →
         OpRuns (.ldd c t) 0x47 1 s c t 1 [] [] (fun v => { v with dl := u.dl ++ [{ a := a, v := none, upto := 0 }] })) ∧
       (∀ n, look = .wait n → DueOp s c t 0x47 → u.winCheck 1 0 = .ok →
         Runs (.ldd c t) s c t 1 [] [] (fun v => { v with dl := u.dl ++ [{ a := a, v := none, upto := n }], why := .deferred n }))) ∧
     (u.dl = [] → OpRuns (.pushll c t) 0x48 0 s c t 0 [u.ll] [] id) ∧
     (u.dl ≠ [] → strict = false → OpRuns (.pushll c t) 0x48 0 s c t 0 [u.ll] [(5, true)] id) ∧
     (u.dl ≠ [] → strict = true → DueOp s c t 0x48 → u.winCheck 0 1 = .ok →
       Runs (.pushll c t) s c t 0 [] [] (fun v => { v with why := .pushll })) ∧
     (u.dl = [] → (s.core c).sb = [] → OpRuns (.fence c t) 0x4B 0 s c t 0 [] [] id) ∧
     ((u.dl ≠ [] ∨ (s.core c).sb ≠ []) →
       OpRuns (.fence c t) 0x4B 0 s c t 0 [] [] (fun v => { v with why := .fence (s.core c).sbNext }))) ∧
  (∀ (s : State) (c : CoreId) (t : ThId),
     let u := s.th c t
     let a := u.top 0
     let line : BitVec 18 := BitVec.ofNat 18 (a.toNat / 16)
     (0x100000 ≤ a.toNat → a.toNat < 0x200000 →
       OpDoes (.lck c t) 0x4C 1 s c t 1 [] []
         (fun r => (r.modTh c t (fun v => { v with lockN := some 1, why := .grant line })).modFb
           (fun f => { f with wants := f.wants ++ [{ line := line, core := c, th := t }] }))) ∧
     ((a.toNat < 0x100000 ∨ 0x200000 ≤ a.toNat) → DueOp s c t 0x4C → u.winCheck 1 0 = .ok →
       exec (.lck c t) s = .next ((s.issued c t).raise c t .buserr u.pc a)) ∧
     (u.lockN ≠ none → OpDoes (.ulk c t) 0x4D 0 s c t 0 [] [] (fun r => r.endLock c t)) ∧
     (u.lockN = none → DueOp s c t 0x4D → exec (.ulk c t) s = .next ((s.issued c t).raise c t .illegal u.pc 0)))

/-- R107, R108: the bit operations. B takes the old value; the bit takes the new one, a level bit that its source
writes again every cycle excepted (R213, log entry 8). SETB, TGLB and PUTB of an event bit raise BUSERR. R148: WAIT
and WAITN complete at once when one of their bits is 1, WAITN with the offset of the lowest; else the thread stays at
them, waiting. -/
def Obligations.BitsAndWaits : Prop :=
  (∀ (s : State) (c : CoreId) (t : ThId) (f : BitVec 7),
     let u := s.th c t
     let a := u.pacc.toNat * 128 + f.toNat
     let ba := (u.top 0).toNat
     let B (x : Nat) : List (Nat × Bool) := [(4, s.readBit c u x)]
     let put (x : Nat) (b : Bool) (r : State) : State :=
       if x < 0x80 then r.modTh c t (fun v => { v with bits := setBit v.bits x b })
       else if x < 0x1000 then r.modCore c (fun k => { k with bits := setBit k.bits x b })
       else if 0x10C0 ≤ x ∧ x ≤ 0x10D3 then r
       else r.modFb (fun g => { g with ev := setBit g.ev (x - 0x1000) (b && evAssigned x) })
     let short (i : Instr) (w : Syl) (top : Nat) (g : Nat → State → State) : Prop :=
       (a < top → Due s c t w → Does i s c t 0 [] (B a) (g a)) ∧
       (top ≤ a → Due s c t w → exec i s = .next ((s.issued c t).raise c t .buserr u.groupPc (BitVec.ofNat 24 a)))
     let long (i : Instr) (k : BitVec 8) (top : Nat) (g : Nat → State → State) : Prop :=
       (ba < top → OpDoes i k 1 s c t 1 [] (B ba) (g ba)) ∧
       (top ≤ ba → DueOp s c t k → u.winCheck 1 0 = .ok →
         exec i s = .next ((s.issued c t).raise c t .buserr u.pc (u.top 0)))
     short (.setb c t f) (bitW 0 f) 0x1000 (fun x => put x true) ∧
     short (.clrb c t f) (bitW 1 f) 0x1400 (fun x => put x false) ∧
     short (.tstb c t f) (bitW 2 f) 0x1400 (fun _ => id) ∧
     short (.tglb c t f) (bitW 3 f) 0x1000 (fun x => put x (!s.readBit c u x)) ∧
     long (.setbx c t) 0x50 0x1000 (fun x => put x true) ∧
     long (.clrbx c t) 0x51 0x1400 (fun x => put x false) ∧
     long (.tstbx c t) 0x52 0x1400 (fun _ => id) ∧
     long (.tglbx c t) 0x53 0x1000 (fun x => put x (!s.readBit c u x)) ∧
     (ba < 0x1400 → OpRuns (.pushb c t) 0x54 1 s c t 1 [if s.readBit c u ba then 0xFFFFFF else 0] (B ba) id) ∧
     (ba < 0x1000 → OpDoes (.putb c t) 0x55 2 s c t 2 [] (B ba) (put ba (decide (u.top 1 ≠ 0)))) ∧
     (0x1000 ≤ ba → DueOp s c t 0x55 → u.winCheck 2 0 = .ok →
       exec (.putb c t) s = .next ((s.issued c t).raise c t .buserr u.pc (u.top 0)))) ∧
  (∀ (s : State) (c : CoreId) (t : ThId),
     let u := s.th c t
     let ba := (u.top 0).toNat
     let b1 := (u.top 1).toNat
     let n := (u.top 0).toNat
     let inRange := 1 ≤ n ∧ n ≤ 32 ∧ bitRange b1 ≠ 3 ∧ bitRange (b1 + n - 1) = bitRange b1
     let stay (many : Bool) (v : Thread) : Thread := { v with why := .bits many, pc := u.pc }
     (ba < 0x1400 → s.readBit c u ba = true → OpRuns (.wait c t) 0x5C 1 s c t 1 [] [] id) ∧
     (ba < 0x1400 → s.readBit c u ba = false → DueOp s c t 0x5C → u.winCheck 1 0 = .ok →
       Runs (.wait c t) s c t 0 [] [] (stay false)) ∧
     (inRange → ∀ i, i < n → s.readBit c u (b1 + i) = true → (∀ j, j < i → s.readBit c u (b1 + j) = false) →
       OpRuns (.waitn c t) 0x5D 2 s c t 2 [BitVec.ofNat 24 i] [] id) ∧
     (inRange → (∀ j, j < n → s.readBit c u (b1 + j) = false) → DueOp s c t 0x5D → u.winCheck 2 0 = .ok →
       Runs (.waitn c t) s c t 0 [] [] (stay true)) ∧
     (¬inRange → DueOp s c t 0x5D → u.winCheck 2 0 = .ok →
       exec (.waitn c t) s = .next ((s.issued c t).raise c t .buserr u.pc (if n = 0 ∨ 32 < n then 0 else u.top 1))))

/-- R111, R143, R472 (Table 4.13): the special registers. MFS and MFS2 read them; MTS writes SR_STATUS but for ESC,
the reserved bits and, at U level, the closed fields; the product halves; SR_LL; the spill area, with its low three
bits 0; the others ignore a write. A number above 8 raises BUSERR, a write closed to U raises PRIV. SR_CYCLE is a free
value (log entry 5). -/
def Obligations.SpecialRegisters : Prop :=
  ∀ (s : State) (c : CoreId) (t : ThId),
    let u := s.th c t
    let n := (u.top 0).toNat
    let x := u.top 1
    let mlvl := u.status.getLsbD 6
    let ready := 1 ≤ n → n ≤ 3 → u.dl = []
    let cyc := (s.core c).cyc + Config.freeCycles s.free
    let flush (v : Thread) : Thread := { v with prod := v.last, pend := [] }
    let val : Dbl := [u.status.setWidth 48, (u.last.setWidth 24).setWidth 48, (u.last.extractLsb' 24 24).setWidth 48,
      u.ll.setWidth 48, u.dsbase.setWidth 48, u.dslimit.setWidth 48, cyc, u.sylcnt + 1, (c ++ t).setWidth 48].getD n 0
    let touch (r : State) : State :=
      if 1 ≤ n ∧ n ≤ 3 then r.modTh c t flush
      else if n = 6 then (r.modCore c (fun k => { k with cyc := cyc })).draw else r
    let bad (i : Instr) (f : FClass) : Prop := exec i s = .next ((s.issued c t).raise c t f u.pc (u.top 0))
    let open_ (i : Nat) : Bool := i ≤ 5 || i = 12
    let closed (i : Nat) : Bool := (6 ≤ i && i ≤ 9) || i = 11 || i = 13
    let writes (p : Nat → Bool) : List (Nat × Bool) := ((List.range 24).filter p).map (fun i => (i, x.getLsbD i))
    let differs := (List.range 24).any (fun i => closed i && x.getLsbD i != u.status.getLsbD i)
    (n ≤ 8 → ready →
      OpDoes (.mfs c t) 0x60 1 s c t 1 [val.setWidth 24] [] touch ∧
      OpDoes (.mfs2 c t) 0x62 1 s c t 1 [val.extractLsb' 24 24, val.setWidth 24] [] touch) ∧
    (n = 0 → (mlvl = true ∨ differs = false) →
      OpRuns (.mts c t) 0x61 2 s c t 2 [] (writes (fun i => open_ i || (mlvl && closed i))) id) ∧
    (1 ≤ n → n ≤ 3 → u.dl = [] →
      OpRuns (.mts c t) 0x61 2 s c t 2 [] []
        (fun v => flush (if n = 1 then { v with last := v.last.extractLsb' 24 24 ++ x }
          else if n = 2 then { v with last := x ++ v.last.setWidth 24 } else { v with ll := x }))) ∧
    (4 ≤ n → n ≤ 5 → mlvl = true → u.xfer = none →
      OpRuns (.mts c t) 0x61 2 s c t 2 [] []
        (fun v => if n = 4 then { v with dsbase := x &&& 0xFFFFF8 } else { v with dslimit := x &&& 0xFFFFF8 })) ∧
    (6 ≤ n → n ≤ 8 → OpRuns (.mts c t) 0x61 2 s c t 2 [] [] id) ∧
    (mlvl = false → ((n = 0 ∧ differs = true) ∨ n = 4 ∨ n = 5) → DueOp s c t 0x61 → u.winCheck 2 0 = .ok → bad (.mts c t) .priv) ∧
    (8 < n →
      (DueOp s c t 0x60 → u.winCheck 1 0 = .ok → bad (.mfs c t) .buserr) ∧
      (DueOp s c t 0x62 → u.winCheck 1 1 = .ok → bad (.mfs2 c t) .buserr) ∧
      (DueOp s c t 0x61 → u.winCheck 2 0 = .ok → bad (.mts c t) .buserr))

/-- R152 to R156, R416: TRAP pops its operand, pushes the address after it and SR_STATUS and enters vector 16 + u[2:0] at
M level; in trap mode, with no room for both, it locks up its core. RETE pops both, at M level alone, the reserved bits
of SR_STATUS staying 0; BRK on an attached core asks for its thread's halt, else raises ILLEGAL. R120: an unassigned OP
code raises ILLEGAL against its own address. -/
def Obligations.TrapsAndReturns : Prop :=
  (∀ (s : State) (c : CoreId) (t : ThId),
     let u := s.th c t
     let vec := 16 + (u.top 0).toNat % 8
     let p := u.rs.get ((u.rsp + 15) % 16)
     let st := u.rs.get u.rsp
     (¬(u.status.getLsbD 11 = true ∧ 15 ≤ u.rsd) →
       OpDoes (.trap c t) 0x5E 1 s c t 1 [] [(6, true)] (fun r =>
         (r.modTh c t (fun v =>
           { (v.rpush ((u.pc + 1).setWidth 24)).rpush u.status with
             pc := BitVec.ofNat 20 (4 * vec),
             fr := { kind := .trap, vec := BitVec.ofNat 5 vec, cls := 0, arm := 0, saddr := u.pc, oaddr := 0 } })).traceRec
           c t 2 (BitVec.ofNat 20 vec) (u.pc + 1))) ∧
     (u.status.getLsbD 11 = true → 15 ≤ u.rsd → DueOp s c t 0x5E → u.winCheck 1 0 = .ok →
       ∃ s', exec (.trap c t) s = .next s' ∧
         (s'.core c).lockup.map (fun l => (l.t, l.cause, l.what)) = some (t, 0, BitVec.ofNat 5 vec) ∧
         ∀ i, i < 8 → ((s'.core c).th.get i).st = .frozen) ∧
     (u.rsBad 2 0 = false → u.status.getLsbD 6 = true → p.toNat < 2 ^ 20 →
       OpDoes (.rete c t) 0x5B 0 s c t 0 [] ((List.range 24).map (fun i => (i, decide (i < 14) && st.getLsbD i))) (fun r =>
         (r.modTh c t (fun v => { v with pc := p.setWidth 20, rsp := (u.rsp + 14) % 16, rsd := u.rsd - 2 })).traceRec
           c t 3 u.pc (p.setWidth 20))) ∧
     (u.rsBad 2 0 = false → u.status.getLsbD 6 = true → 2 ^ 20 ≤ p.toNat → DueOp s c t 0x5B → u.winCheck 0 0 = .ok →
       exec (.rete c t) s = .next ((s.issued c t).raise c t .buserr u.pc p)) ∧
     (u.rsBad 2 0 = false → u.status.getLsbD 6 = false → DueOp s c t 0x5B → u.winCheck 0 0 = .ok →
       exec (.rete c t) s = .next ((s.issued c t).raise c t .priv u.pc 0)) ∧
     ((s.core c).attached = true →
       OpRuns (.brk c t) 0x5F 0 s c t 0 [] [] (fun v => { v with brkHit := true }) ∧
       (DueOp s c t 0x5F → u.winCheck 0 0 = .ok → ∃ s', exec (.brk c t) s = .next s' ∧ (s'.th c t).haltReq = true)) ∧
     ((s.core c).attached = false → DueOp s c t 0x5F → u.winCheck 0 0 = .ok →
       exec (.brk c t) s = .next ((s.issued c t).raise c t .illegal u.pc 0))) ∧
  (∀ (s : State) (c : CoreId) (t : ThId) (k : BitVec 8), isUnassigned k.toNat = true → DueOp s c t k →
     exec (.unassignedOp c t k) s = .next ((s.issued c t).raise c t .illegal (s.th c t).pc 0))

/-- R152 to R162: raising a fault outside a locked sequence. With ESC 0 and MASK below 7 the class's vector is entered
with MASK 7; with MASK 7 vector 0, as ESCALATED, and ESC; with ESC 1, or without room on the return stack in trap
mode, the core locks up: every thread of it is FROZEN. -/
def Obligations.FaultEntries : Prop :=
  ∀ (s : State) (c : CoreId) (t : ThId) (f : FClass) (a : PAddr) (o : Cell), (s.th c t).lockN = none → (s.th c t).st ≠ .frozen →
    (s.th c t).st ≠ .stopped →
    let u := s.th c t
    let s' := s.raise c t f a o
    let v := s'.th c t
    let esc := u.status.getLsbD 10
    let mask := (u.status.extractLsb' 7 3).toNat
    let full := u.status.getLsbD 11 = true ∧ 15 ≤ u.rsd
    let vec := if mask = 7 then 0 else f.num
    (esc = false → ¬full →
      v.pc = BitVec.ofNat 20 (4 * vec) ∧ v.rsp = (u.rsp + 2) % 16 ∧ (u.rsp < 16 → v.rs.get ((u.rsp + 1) % 16) = a.setWidth 24) ∧
      (u.rsp < 16 → v.rs.get ((u.rsp + 2) % 16) = u.status) ∧
      FlagsAre u.status v.status ([(6, true), (7, true), (8, true), (9, true)] ++ if mask = 7 then [(10, true)] else []) ∧
      v.fr = { kind := if mask = 7 then .escalated else .fault, vec := BitVec.ofNat 5 vec, cls := BitVec.ofNat 4 f.num,
               arm := 0, saddr := a, oaddr := o } ∧
      v.w = u.w ∧ v.win = u.win ∧ v.last = u.last ∧ v.ll = u.ll ∧ v.bits = u.bits ∧
      ((s'.core c).lockup = (s.core c).lockup)) ∧
    (esc = true → (s'.core c).lockup.map (fun l => (l.t, l.cause, l.what)) = some (t, 1, BitVec.ofNat 5 f.num) ∧
      ∀ i, i < 8 → ((s'.core c).th.get i).st = .frozen) ∧
    (esc = false → full → (s'.core c).lockup.map (fun l => (l.t, l.cause, l.what)) = some (t, 0, BitVec.ofNat 5 vec) ∧
      ∀ i, i < 8 → ((s'.core c).th.get i).st = .frozen)

/-- R52, R112: PHC, PHK, PHT and PH3 push the mirror's COURSE, CRANK and TICK as double cells, from one update. -/
def Obligations.PhaseReads : Prop :=
  ∀ (s : State) (c : CoreId) (t : ThId), (s.core c).maySlot (.thread t) = true →
    let m := s.fb.mir
    let d (x : Dbl) : List Cell := [x.extractLsb' 24 24, x.setWidth 24]
    OpRuns (.phc c t) 0x68 0 s c t 0 (d m.course) [] id ∧
    OpRuns (.phk c t) 0x69 0 s c t 0 (d m.crank) [] id ∧
    OpRuns (.pht c t) 0x6A 0 s c t 0 (d m.tick) [] id ∧
    OpRuns (.ph3 c t) 0x6B 0 s c t 0 (d m.tick ++ d m.crank ++ d m.course) [] id

/-- R117, R118: TLI interpolates in a table of n cells with step 2^sh: below the first step the first value and V;
past the last step the last value, V strictly past it; between two steps the value below plus the floor of the
difference times the fraction. n outside 2 to 4096 or sh above 23 gives 0 and V. The cells it reads lie in the table's
memory, free of store-buffer entries and of other cores' locks. -/
def Obligations.TableInterpolation : Prop :=
  ∀ (s : State) (c : CoreId) (t : ThId),
    let u := s.th c t
    let base := (u.top 0).toNat
    let m (k : Nat) : Cell := s.cellMem c (base + k)
    let n := (m 0).toNat
    let sh := (m 2).toNat
    let r := (u.top 1).toInt - (m 1).toInt
    let i := r.toNat / 2 ^ sh
    let reads (l : List Nat) : Prop := ∀ k, k ∈ [0, 1, 2] ++ l →
      (region base = .local_ ∨ region base = .shared) ∧ region (base + k) = region base ∧
      overCells (s.core c).sb (base + k) 1 = [] ∧ s.lineHeldByOther c (base + k) = false
    let gives (y : Cell) (v : Bool) : Prop :=
      OpRuns (.tli c t) 0x39 2 s c t 2 [y] (znOf y ++ [(2, false), (3, v)]) id
    let a := (m (3 + i)).toInt
    let b := (m (3 + (i + 1))).toInt
    ((n < 2 ∨ 4096 < n ∨ 23 < sh) → reads [] → gives 0 true) ∧
    (2 ≤ n → n ≤ 4096 → sh ≤ 23 →
      (r < 0 → reads [3] → gives (m 3) true) ∧
      (0 ≤ r → n - 1 ≤ i → reads [3 + (n - 1)] → gives (m (3 + (n - 1))) (decide (((n - 1) * 2 ^ sh : Nat) < r))) ∧
      (0 ≤ r → i < n - 1 → reads [3 + i, 3 + (i + 1)] →
        gives (BitVec.ofInt 24 (a + ((b - a) * (r - i * 2 ^ sh)).fdiv (2 ^ sh))) false))

/-- R225 to R239: the log syllables while the hearth link works, on a log that is OPEN: LOPEN opens the free slot that
was freed least recently, with the mirror's phase, and pushes its handle; LAPP and LEMB add a segment with its
reservation; LCOMMIT commits; LDROP drops; LSTAT reads the state and clears LAST. A handle that names no log is counted,
and the cells of an append outside one memory raise BUSERR. R227, R232, R233, R368: the refusals
of LOPEN, in their order: a class past 0x7F or reserved bits set, a state of life that writes no log, the vault or its
link, no slot, no staging. R205: ETRIG triggers a ring whose selection takes the event trigger, at the mirror's phase;
else it is counted. R236: an append that has read its cells is final, and with the last of them a committing log goes
on. -/
def Obligations.LogSyllables : Prop :=
  (∀ (s : State) (c : CoreId) (t : ThId),
     let u := s.th c t
     let after (a n : Nat) : Nat := (overCells (s.core c).sb a n).foldl (fun x e => max x (e.id + 1)) 0
     s.fb.hearth.training = false → s.fb.hearth.down = false →
     (∀ i, s.openCode c (u.top 0) = 0 → s.freeLogSlot = some i →
       OpDoes (.lopen c t) 0x70 1 s c t 1 [BitVec.ofNat 24 (i + 64 * ((s.hs.slots.get i).gen + 1).toNat)] []
         (fun r => r.openLog c (u.top 0) i)) ∧
     (s.openCode c (u.top 0) ≠ 0 →
       OpRuns (.lopen c t) 0x70 1 s c t 1 [BitVec.ofNat 24 (0x800000 + s.openCode c (u.top 0))] [] id) ∧
     (∀ i, s.handle c (u.top 0) = some i →
       let l := s.hs.slots.get i
       OpDoes (.lstat c t) 0x75 1 s c t 1 [l.stat] [] (fun r => r.modSlot i (fun q => { q with last := 0 })) ∧
       (l.state = .open_ →
         OpDoes (.ldrop c t) 0x74 1 s c t 1 [] [] (fun r => r.dropLog i) ∧
         OpDoes (.lcommit c t) 0x73 1 s c t 1 [] []
           (fun r => (r.modSlot i (fun q => { q with state := .committing })).logReady i) ∧
         (∀ n, n = (u.top 1).toNat → 1 ≤ n → n ≤ 4096 → appendPlace (u.top 2).toNat n = true →
           l.size + 3 * n ≤ 261120 → s.canReserve i (3 * n) = true →
           OpDoes (.lapp c t) 0x71 3 s c t 3 [] [] (fun r =>
             r.modSlot i (fun q => { q with
               segs := q.segs ++ [{ a := u.top 2, n := n, resv := 3 * n, upto := after (u.top 2).toNat n, most := 3 * n }],
               resv := q.resv + 3 * n }))) ∧
         (∀ k w, k = (u.top 1).toNat → k ≤ 15 → (s.fb.rings.get k).oldest = some w → w.copying = false →
           let rg := s.fb.rings.get k
           let room := 3 * (w.d + rg.post.toNat + 47)
           let most := if w.complete then 3 * (w.d + w.postw + if rg.crec then 12 else 0) else room
           (l.segs.filter (fun g => g.copy.isSome)).length < 8 → l.size + most ≤ 261120 → s.canReserve i room = true →
           OpDoes (.lemb c t) 0x72 2 s c t 2 [] [] (fun r =>
             ((r.modSlot i (fun q => { q with
               segs := q.segs ++ [{ copy := some { ring := k, half := w.half, crec := rg.crec }, resv := room, most := most }],
               resv := q.resv + room })).modRing k (fun q =>
                 { q with wins := q.wins.map (fun x => if x = w then { x with copy := .inflight i l.segs.length } else x) })).modFb
               (fun f => { f with copies := f.copies ++ [{ slot := i, ring := k, seg := l.segs.length }] }))))) ∧
     (s.handle c (u.top 0) = none →
       let badH (r : State) : State := r.modCnt c (fun n => { n with logBadh := satInc n.logBadh })
       (appendPlace (u.top 2).toNat (u.top 1).toNat = true → OpDoes (.lapp c t) 0x71 3 s c t 3 [] [] badH) ∧
       OpDoes (.lemb c t) 0x72 2 s c t 2 [] [] badH ∧ OpDoes (.lcommit c t) 0x73 1 s c t 1 [] [] badH ∧
       OpDoes (.ldrop c t) 0x74 1 s c t 1 [] [] badH ∧ OpDoes (.lstat c t) 0x75 1 s c t 1 [0x40] [] badH) ∧
     (appendPlace (u.top 2).toNat (u.top 1).toNat = false → DueOp s c t 0x71 → u.winCheck 3 0 = .ok →
       exec (.lapp c t) s = .next ((s.issued c t).raise c t .buserr u.pc (u.top 2)))) ∧
  (∀ (s : State) (c : CoreId) (v : Cell),
     let cls := (v.extractLsb' 0 8).toNat
     let mine := (List.range 64).countP (fun i =>
       let l := s.hs.slots.get i; l.core = c && (l.state = .open_ || l.state = .committing))
     let p3 := 0x7F < cls ∨ v.extractLsb' 16 8 ≠ 0
     let pC := s.life = 0 ∨ s.life = 4 ∨ s.life = 7
     let pB := s.fb.hearth.down = true ∨ s.hs.vault.fault = true
     let p1 := s.freeLogSlot = none ∨ 16 ≤ mine
     let p2 := 0x40 ≤ cls ∧ s.freeStage < 32
     (s.openCode c v = 3 ↔ p3) ∧
     (s.openCode c v = 0xC ↔ ¬p3 ∧ pC) ∧
     (s.openCode c v = 0xB ↔ ¬p3 ∧ ¬pC ∧ pB) ∧
     (s.openCode c v = 1 ↔ ¬p3 ∧ ¬pC ∧ ¬pB ∧ p1) ∧
     (s.openCode c v = 2 ↔ ¬p3 ∧ ¬pC ∧ ¬pB ∧ ¬p1 ∧ p2) ∧
     (s.openCode c v = 0 ↔ ¬p3 ∧ ¬pC ∧ ¬pB ∧ ¬p1 ∧ ¬p2)) ∧
  ((∀ (s : State) (c : CoreId) (t : ThId),
     let k := ((s.th c t).top 0).toNat
     (k ≤ 15 → (s.fb.rings.get k).trigsel.getLsbD 28 = true →
       OpDoes (.etrig c t) 0x76 1 s c t 1 [] [] (fun r =>
         r.trigger k { src := 28, tick := s.fb.mir.tick, course := s.fb.mir.course, crank := s.fb.mir.crank })) ∧
     ((15 < k ∨ (s.fb.rings.get k).trigsel.getLsbD 28 = false) →
       OpDoes (.etrig c t) 0x76 1 s c t 1 [] [] (fun r => r.modCnt c (fun n => { n with etrigIgn := satInc n.etrigIgn })))) ∧
   (∀ (s : State) (slot : BitVec 6) (pre post : List Seg) (g : Seg),
     let i := slot.toNat
     let l := s.hs.slots.get i
     l.segs = pre ++ g :: post → (∀ x, x ∈ pre → x.fin = true ∨ x.copy ≠ none) → g.fin = false → g.copy = none →
     (l.state = .open_ ∨ l.state = .committing) → s.hearthUp = true → drained (s.core l.core).sb g.upto = true →
     s.linesHeld l.core g.a.toNat g.n = false →
     exec (.appendComplete slot) s = .next ((s.modSlot i (fun q => { q with
       segs := pre ++ { g with cells := s.cellsMem l.core g.a.toNat g.n, fin := true } :: post })).logReady i)))

/-- R171 to R177, R188: an open code with an entry starts its routine; the routine's end pops its operands, pushes its
results, writes the five captured flags and sends its stores, once the store buffer has room for them; a WAIT held for
4,096 cycles, or 8,192 cycles in all with the holds of a load and of its END among them, end it with a sequencer fault, and
so does a word that the sequencer cannot run. -/
def Obligations.OpenRoutines : Prop :=
  ∀ (s : State) (c : CoreId),
    (∀ (t : ThId) (k : BitVec 6) (e : OpenEntry),
      let u := s.th c t
      (s.core c).cs.entry k.toNat = some e → u.status.getLsbD 13 = false → (e.mOnly = true → u.status.getLsbD 6 = true) →
      u.lockN = none → DueOp s c t (0xC0 + k.setWidth 8) → u.winCheck e.nin (e.nout - e.nin) = .ok →
      Does (.openCode c t k) s c t 0 [] [] (fun r => r.modCore c (fun q => { q with seq := some { t := t, pc := u.pc, code := k } }))) ∧
    (∀ r, (s.core c).seq = some r → s.fclkOn = true →
      let u := s.th c r.t
      let stop (f : FClass) (m : Cell) : State :=
        ((s.modCore c (fun k => { k with seq := none, mseq := m })).raise c r.t f r.pc 0).modCore c Core.retry
      (∀ ua outs st wq e, s.routineEnd c r = .done ua outs st wq → (s.core c).cs.entry r.code.toNat = some e →
        (s.core c).sb.length + wq.length ≤ 16 → e.nin ≤ u.w → outs.length ≤ 32 →
        ∃ s', exec (.routineEnd c) s = .next s' ∧ (s'.core c).seq = none ∧
          StackIs u (s'.th c r.t) e.nin (outs.take e.nout).reverse ∧
          FlagsAre u.status (s'.th c r.t).status ((List.range 5).map (fun i => (i, st.getLsbD i))) ∧
          (s'.core c).sb.map (fun x => (x.a, x.size, x.v)) =
            (s.core c).sb.map (fun x => (x.a, x.size, x.v)) ++ wq.map (fun x => (x.1, .cell, x.2.setWidth 48))) ∧
      let fault (cause ua : Nat) : Cell := 0x800000 + BitVec.ofNat 24 (65536 * r.t.toNat + 4096 * cause + ua)
      (∀ cause ua, s.routineEnd c r = .seqFault cause ua → exec (.routineEnd c) s = .next (stop .illegal (fault cause ua))) ∧
      (∀ ua, s.routineEnd c r = .waitTimeout ua → exec (.microWaitTimeout c) s = .next (stop .buserr (fault 3 ua))) ∧
      (∀ ua, (s.routineEnd c r = .tooLong ua ∨ s.routineEnd c r = .held ua ∨
          ∃ outs st wq, s.routineEnd c r = .done ua outs st wq ∧ 16 < (s.core c).sb.length + wq.length) →
        exec (.routineLengthLimit c) s = .next (stop .illegal (fault 4 ua))))

/-- R77, R88, R214, R470, R475: a load whose link lives and whose line is free completes: its operand is replaced by
what it reads, and the read of EMBQ or PH_STATUS has its side effect; over a dead link it raises BUSERR. A deferred
load writes SR_LL. R81, R84, R113: the head of a core's store buffer drains into local or shared memory, unless
another core holds its line; every other cell of these memories stays. All this while FCLK runs (R281, R424). -/
def Obligations.LoadsAndStoresComplete : Prop :=
  (∀ (s : State) (c : CoreId) (t : ThId),
     let u := s.th c t
     (∀ k a pc upto, s.fclkOn = true → u.why = .load k a pc upto → drained (s.core c).sb upto = true → 1 ≤ u.w →
       let b := k.cellAddr a
       let v := s.loadBits c k a
       let reads (i : Instr) : Prop := ∃ r : State, exec i s = .next (r.readEffect c b) ∧
         StackIs u (r.th c t) 1 (match k with
           | .cell => [v.setWidth 24]
           | .dbl => [v.extractLsb' 24 24, v.setWidth 24]
           | .tineS => [(v.setWidth 12).signExtend 24]
           | .tineU => [(v.setWidth 12).setWidth 24]
           | .post => [a + 1, v.setWidth 24]) ∧
         (r.th c t).why ≠ u.why ∧ (r.th c t).pc = u.pc ∧ (r.th c t).status = u.status ∧
         { r with cores := s.cores } = s ∧ ∀ c', c' ≠ c → r.core c' = s.core c'
       (s.linkDead b = false → s.accWaits c b = false →
         reads (.loadComplete c t) ∧ (b = 0x0F00E4 → reads (.embqRead c t)) ∧ (b = 0x0F1006 → reads (.phStatusRead c t))) ∧
       (s.linkDead b = true →
         exec (.loadComplete c t) s = .next (((s.modTh c t (fun v => { v with why := .none })).raise c t .buserr pc a).modCore c Core.retry))) ∧
     (∀ d r, s.fclkOn = true → u.dl = d :: r → s.accWaits c d.a.toNat = false → drained (s.core c).sb d.upto = true →
       u.why ≠ .pushll → region d.a.toNat = .local_ ∨ region d.a.toNat = .shared →
       ∃ s', exec (.deferredLoadComplete c t) s = .next s' ∧
         ((∀ e ∈ r, e.v = none) → (∀ n, u.why ≠ .deferred n) → (s'.th c t).ll = s.cellMem c d.a.toNat ∧ (s'.th c t).dl = r) ∧
         (∀ e x, r = [e] → e.v = some x → (s'.th c t).ll = x ∧ (s'.th c t).dl = [])) ∧
     (∀ x, (s.readEffect c x).fb.prog = s.fb.prog ∧ (x = 0x0F00E4 → ((s.readEffect c x).core c).embq = (s.core c).embq.tail) ∧
       (x = 0x0F1006 → (s.readEffect c x).pil.ph.jumpCourse = false ∧ (s.readEffect c x).pil.ph.jumpCrank = false) ∧
       (x ≠ 0x0F00E4 → x ≠ 0x0F1006 → s.readEffect c x = s))) ∧
  (∀ (s : State) (c : CoreId) (e : SEntry) (r : List SEntry),
     let a := e.a.toNat
     let plain (x : Nat) : Prop := region x = .local_ ∨ region x = .shared
     s.fclkOn = true → (s.core c).sb = e :: r → s.lineHeldByOther c a = false → plain a → (e.size = .dbl → plain (a + 1)) →
     Memory.wf (s.core c).lmem = true → Memory.wf s.fb.shared = true →
     ∃ s', exec (.storeDrain c) s = .next s' ∧ (s'.core c).sb = r ∧
       ∀ x, plain x → s'.cellMem c x =
         match e.size with
         | .cell => if x = a then e.v.setWidth 24 else s.cellMem c x
         | .dbl => if x = a then e.v.setWidth 24 else if x = a + 1 then e.v.extractLsb' 24 24 else s.cellMem c x
         | .tine h => if x = a then setField (s.cellMem c a) (if h then 12 else 0) 12 e.v.toNat else s.cellMem c x)

/-- R73, R74, R113, R116: a line fill that holds a slot brings its sixteen syllables into the I-cache and to every
thread that waits for them; a lock line that no other core holds goes to the core next after its last holder, in the
order of core numbers, whose thread goes on. R125 to R127, R129, R132: the oldest operation asked for starts on a free
Bellows, if it may and a memory slot is free; a spill takes the eight deepest cells of the window to the spill area, a fill
brings eight back, while no other core holds a line of them; a voided spill leaves the window as it is. -/
def Obligations.TransfersAndLines : Prop :=
  ((∀ (s : State) (c : CoreId) (line : BitVec 16), s.fclkOn = true → line ∈ (s.core c).fills →
     ∃ s', exec (.lineFillComplete c line) s = .next s' ∧ line ∉ (s'.core c).fills ∧
       (∃ way, (s'.core c).icache.head? = some { way := way, line := line, data := s.lineData line }) ∧
       ∀ i, i < 8 → ((s.core c).th.get i).want = some line →
         ((s'.core c).th.get i).want = none ∧ ((s'.core c).th.get i).buf = some { line := line, data := s.lineData line }) ∧
   (∀ (s : State) (line : BitVec 18) (h : Hold),
     let last := match s.fb.lastHold.find? (fun p => p.1 = line) with | some p => p.2.toNat | none => 15
     let turn (x : Hold) : Nat := (x.core.toNat + 15 - last) % 16
     s.fclkOn = true → h ∈ s.fb.wants → h.line = line →
     (∀ x, x ∈ s.fb.wants → x.line = line → turn h ≤ turn x ∧ (x.core = h.core → x = h)) →
     (∀ x, x ∈ s.fb.holds → x.line = line → x.core = h.core) →
     ∃ s', exec (.lockGrant line) s = .next s' ∧ h ∈ s'.fb.holds ∧ h ∉ s'.fb.wants ∧
       s'.fb.lastHold.find? (fun p => p.1 = line) = some (line, h.core) ∧ (s'.th h.core h.th).why = .none)) ∧
  (∀ (s : State) (c : CoreId) (t : ThId),
     let k := s.core c
     let u := s.th c t
     let plain (x : Nat) : Prop := x + 8 ≤ 0x4000 ∨ (0x100000 ≤ x ∧ x + 8 ≤ 0x200000)
     let group (v : Thread) (g : Nat) : List Cell := (List.range 8).map (fun p => v.win.get (8 * g + p))
     (∀ o r, s.fclkOn = true → k.bell = none → k.bq = o :: r → s.bellReady c o = true →
       (k.maySlot .bell = true →
         exec (.bellowsStart c) s = .next (s.modCore c (fun k => { (k.unask .bell) with bell := some o, bq := r }))) ∧
       (k.maySlot .bell = false → exec (.bellowsStart c) s = .next (s.modCore c (fun k => k.askSlot .bell)))) ∧
     (∀ x, s.fclkOn = true → k.bell = some (.xfer t) → u.xfer = some x → x.grp < 4 →
       Memory.wf k.lmem = true → Memory.wf s.fb.shared = true →
       (x.kind = .spill → x.voided = true → s.linesHeld c (u.dsbase.toNat + u.spc) 8 = false →
         ∃ s', exec (.spillComplete c) s = .next s' ∧
           let v := s'.th c t
           v.w = u.w ∧ v.spc = u.spc ∧ v.base = u.base ∧ v.win = u.win) ∧
       (x.kind = .spill → x.voided = false → plain (u.dsbase.toNat + u.spc) → s.linesHeld c (u.dsbase.toNat + u.spc) 8 = false →
         ∃ s', exec (.spillComplete c) s = .next s' ∧ s'.cellsMem c (u.dsbase.toNat + u.spc) 8 = group u x.grp ∧
           let v := s'.th c t
           v.w = u.w - 8 ∧ v.spc = u.spc + 8 ∧ v.base = (u.base + 1) % 4 ∧ v.win = u.win) ∧
       (x.kind = .fill → plain (u.dsbase.toNat + u.spc - 8) → s.linesHeld c (u.dsbase.toNat + u.spc - 8) 8 = false →
         ∃ s', exec (.fillComplete c) s = .next s' ∧
           let v := s'.th c t
           group v x.grp = s.cellsMem c (u.dsbase.toNat + u.spc - 8) 8 ∧ v.w = u.w + 8 ∧ v.spc = u.spc - 8 ∧ v.base = x.grp ∧
           ∀ g, g < 4 → g ≠ x.grp → group v g = group u g)))

/-- R138 to R141: SWAPCTX at M level pops its operand and waits for its step 1: the thread's transfer, its deferred loads
and the stores over either block. With these over its products are visible, and it asks the Bellows for the swap, or, on a
block that is not well-formed, raises BUSERR with its operand popped. The completion saves the context into its block and
loads the one at `a`, the bits that its registers do not have left out, ESC kept. -/
def Obligations.ContextSwaps : Prop :=
  ∀ (s : State) (c : CoreId) (t : ThId),
    let u := s.th c t
    let saved := s.saveCtx c u
    (u.status.getLsbD 6 = true →
      let a := u.top 0
      let free : Prop := u.xfer = none ∧ (u.popPush 1 []).wantXfer = none ∧ u.dl = [] ∧
        overCells (s.core c).sb u.ctxa.toNat 64 = [] ∧ overCells (s.core c).sb a.toNat 64 = [] ∧
        .swap t ∉ (s.core c).bq ∧ (s.core c).bell ≠ some (.swap t)
      let good := blockPlace a.toNat && blockOk (s.cellsMem c a.toNat 64)
      let full := u.status.getLsbD 11 = true ∧ 15 ≤ u.rsd
      (¬free → OpRuns (.swapctx c t) 0x63 1 s c t 1 [] [] (fun v => { v with why := .swap a u.pc })) ∧
      (free → good = true →
        OpRuns (.swapctx c t) 0x63 1 s c t 1 [] [] (fun v => { v with why := .swap a u.pc, prod := v.last, pend := [] }) ∧
        (DueOp s c t 0x63 → u.winCheck 1 0 = .ok → ∃ s', exec (.swapctx c t) s = .next s' ∧ .swap t ∈ (s'.core c).bq)) ∧
      (free → good = false → u.status.getLsbD 10 = false → u.status.extractLsb' 7 3 ≠ 7 → ¬full →
        DueOp s c t 0x63 → u.winCheck 1 0 = .ok →
        ∃ s', exec (.swapctx c t) s = .next s' ∧ (s'.th c t).pc = 16 ∧ (s'.th c t).w = u.w - 1 ∧ (s'.th c t).pend = [] ∧
          (s'.th c t).fr = { kind := .fault, vec := 4, cls := 4, arm := 0, saddr := u.pc, oaddr := a })) ∧
    (u.status.getLsbD 6 = false → DueOp s c t 0x63 → u.winCheck 1 0 = .ok →
      exec (.swapctx c t) s = .next ((s.issued c t).raise c t .priv u.pc 0)) ∧
    (∀ a pc, s.fclkOn = true → (s.core c).bell = some (.swap t) → u.why = .swap a pc →
      s.linesHeld c u.ctxa.toNat 64 = false → s.linesHeld c a.toNat 64 = false →
      let b := saved.cellsMem c a.toNat 64
      let x (i : Nat) : Cell := b.getD i 0
      ∃ s', exec (.swapctxComplete c) s = .next s' ∧ (∀ n, s'.cellMem c n = saved.cellMem c n) ∧
        (s'.core c).bell = none ∧
        let v := s'.th c t
        v.status = setBit (x 0 &&& 0x003FFF) 10 (u.status.getLsbD 10) ∧ v.pc = (x 1).setWidth 20 ∧ v.w = ((x 2).extractLsb' 0 6).toNat ∧
        v.base = ((x 2).extractLsb' 6 2).toNat ∧ v.rsd = ((x 2).extractLsb' 8 5).toNat ∧
        v.rsp = ((x 2).extractLsb' 13 4).toNat ∧ v.dsbase = x 3 &&& 0xFFFFF8 ∧ v.dslimit = x 4 &&& 0xFFFFF8 ∧ v.spc = (x 5).toNat ∧
        v.last = x 7 ++ x 6 ∧ v.prod = x 7 ++ x 6 ∧ v.pend = [] ∧ v.ll = x 8 ∧ v.ctxa = a ∧
        (∀ i, i < 16 → v.rs.get i = x (16 + i)) ∧
        (∀ i, i < 32 → liveGroup v.w v.base (i / 8) = true → v.win.get i = x (32 + i))) ∧
    (u.ctxa.toNat % 64 = 0 → (region u.ctxa.toNat = .local_ ∨ region u.ctxa.toNat = .shared) →
      Memory.wf (s.core c).lmem = true → Memory.wf s.fb.shared = true →
      saved.cellsMem c u.ctxa.toNat 32 = u.ctxHead u.pc ++ u.rs.toList ∧
      ∀ g i, g < 4 → i < 8 → u.dirty.getLsbD g = true → liveGroup u.w u.base g = true →
        saved.cellMem c (u.ctxa.toNat + 32 + 8 * g + i) = u.win.get (8 * g + i))

/-- R67, R145 to R155, R413: at an issue boundary a pending level above MASK is entered through vector 23 + P with the
arm that gives it, a stop asked for stops the thread, a halt asked for halts it; a WAITING thread wakes past its WAIT
on a bit that is 1. R161 to R165: a locked-up core whose transfers are done is quiescent; its report reaches the
Pilot, which drives LOCKUP_N; its frozen state then reaches the Pilot, which writes the machine note, or counts it
lost. -/
def Obligations.BoundariesAndLockups : Prop :=
  (∀ (s : State) (c : CoreId) (t : ThId),
     let u := s.th c t
     let p := s.pendLevel c u
     (s.atIssue c t = true → u.stopReq = false → u.haltReq = false → u.step ≠ some true →
       (u.status.extractLsb' 7 3).toNat < p → ¬(u.status.getLsbD 11 = true ∧ 15 ≤ u.rsd) →
       ∃ s', exec (.eventEntry c t) s = .next s' ∧
         let v := s'.th c t
         v.pc = BitVec.ofNat 20 (4 * (23 + p)) ∧ v.rsp = (u.rsp + 2) % 16 ∧
         v.fr = { kind := .event, vec := BitVec.ofNat 5 (23 + p), cls := 0, arm := BitVec.ofNat 3 (s.pendArm c u),
                  saddr := u.pc, oaddr := 0 } ∧
         v.rs.get ((u.rsp + 1) % 16) = u.pc.setWidth 24 ∧ v.rs.get ((u.rsp + 2) % 16) = u.status ∧
         FlagsAre u.status v.status ((6, true) :: (List.range 3).map (fun i => (7 + i, p.testBit i))) ∧ v.w = u.w ∧ v.win = u.win) ∧
     (s.atIssue c t = true → u.stopReq = true →
       ∃ s', exec (.stopTakesEffect c t) s = .next s' ∧ (s'.th c t) = { u with st := .stopped, why := .none, stopReq := false }) ∧
     ((s.atIssue c t = true ∨ (u.st = .waiting ∧ s.fclkOn = true)) → u.haltReq = true →
       ∃ s', exec (.threadHalt c t) s = .next s' ∧ (s'.th c t) = { u with st := .halted, why := .none, haltReq := false }) ∧
     (∀ many a n i, u.st = .waiting → u.why = .bits many → 2 ≤ u.w → s.coresRun = true → s.boundaryTaken c u = false →
       (a, n) = (if many then ((u.top 1).toNat, (u.top 0).toNat) else ((u.top 0).toNat, 1)) →
       i < n → s.readBit c u (a + i) = true → (∀ j, j < i → s.readBit c u (a + j) = false) →
       ∃ s', exec (.eventBitWake c t) s = .next s' ∧ (s'.th c t).pc = u.pc + 1 ∧ (s'.th c t).why = .none ∧
         (if many then StackIs u (s'.th c t) 2 [BitVec.ofNat 24 i] else StackIs u (s'.th c t) 1 []))) ∧
  (∀ (s : State) (c : CoreId) (l : Lockup), (s.core c).lockup = some l →
     ((s.core c).quiescent = true →
       exec (.lockupQuiescent c) s = .next (s.modCore c (fun k => { k with lockup := some { l with quiet := true } }))) ∧
     (s.plinkUp = true →
       ∃ s', exec (.lockupReport c) s = .next s' ∧ (s'.core c).lockup = some { l with reported := true } ∧
         s'.pil.lockups = setBit s.pil.lockups c.toNat true ∧ s'.pil.lockupPin = false) ∧
     (l.quiet = true → l.reported = true → l.sent = false → s.plinkUp = true →
       let s1 := s.modCore c (fun k => { k with lockup := some { l with sent := true } })
       (s.noteOk = true → exec (.frozenStateArrival c) s = .next (s1.pilotLog 0x81 ((s.core c).note c l))) ∧
       (s.noteOk = false →
         exec (.frozenStateArrival c) s = .next { s1 with pil := { s1.pil with noteLost := satInc s1.pil.noteLost } })))

/-- R35, R38, R40: an edge of an angle input inside its hold-off, or a tooth edge less than 25 us or EARLY quarters of
the last interval after the one before, is rejected and counted, and no phase moves; an accepted tooth edge of
the COURSE source advances COURSE to the next whole tooth. R48: an accepted CAM edge in SYNC360 with CAM_EN gives
SYNC720, and half a turn forward when CAM_HALF says that the other half has begun; in SYNC720 the wrong half is
counted. R38, R46: an input that has accepted no tooth edge for 2^24 PLCLK cycles is stopped, and CRANK with its input. -/
def Obligations.AngleInputs : Prop :=
  (∀ (s : State) (i : AngleIn) (level : Bool),
     let n := inputNo i
     let p := s.pil.ph
     let a := p.ang.get n
     let since (t : Option Nat) (d : Nat) : Prop := ∃ x, t = some x ∧ p.clk - x < d
     let tooth := p.edge n = 2 ∨ (p.edge n = 0 ∧ level = true) ∨ (p.edge n ≠ 0 ∧ level = false)
     let early := ∃ x y, a.lastTooth = some x ∧ a.tprev = some y ∧ 4 * (p.clk - x) < p.early n * y
     let rejected := since a.lastTr (10 * ((p.eff.get n).extractLsb' 2 8).toNat) ∨ (tooth ∧ (since a.lastTooth 2500 ∨ early))
     s.plclk = true → s.pw.vddioA = true → a.level ≠ level →
     (rejected → ∃ s', exec (.angleEdge i level) s = .next s' ∧ s'.pil.ph.course = p.course ∧
       s'.pil.ph.crank = p.crank ∧ s'.pil.ph.ang = p.ang.set n { a with level := level, rejects := satInc a.rejects }) ∧
     (¬rejected → tooth → n < 4 → p.src.toNat = n → p.pendCourse = false →
       ∃ s', exec (.angleEdge i level) s = .next s' ∧
         s'.pil.ph.course = BitVec.ofNat 48 ((p.course.toNat / 4096 + 1) * 4096) ∧
         (s'.pil.ph.ang.get n).lastTooth = some p.clk ∧ (s'.pil.ph.ang.get n).tprev = a.lastTooth.map (fun x => p.clk - x) ∧
         (s'.pil.ph.ang.get n).stopped = false ∧ s'.pil.wk.standbyRun = false)) ∧
  (∀ (s : State),
     let p := s.pil.ph
     let half := p.crank.getLsbD 15
     s.plclk = true →
     (∀ level, s.pw.vddioA = true → (p.ang.get 5).level ≠ level → p.rejects 5 (isTooth (p.edge 5) level) = false →
       isTooth (p.edge 5) level = true → p.camEn = true →
       ∃ s', exec (.camEdge level) s = .next s' ∧
         (p.crk = .sync360 → s'.pil.ph.crk = .sync720 ∧ s'.pil.ph.camFault = p.camFault ∧
           s'.pil.ph.crank = if half = p.camHalf then p.crank else p.crank + 32768) ∧
         (p.crk = .sync720 → s'.pil.ph.crank = p.crank ∧
           s'.pil.ph.camFault = if half = p.camHalf then p.camFault else satInc p.camFault)) ∧
     (∀ i x, (p.ang.get (inputNo i)).lastTooth = some x → x + 2 ^ 24 ≤ p.clk →
       ∃ s', exec (.standstillTimeout i) s = .next s' ∧ (s'.pil.ph.ang.get (inputNo i)).stopped = true ∧
         (s'.pil.ph.ang.get (inputNo i)).lastTooth = none ∧ s'.pil.ph.course = p.course ∧ s'.pil.ph.crank = p.crank ∧
         s'.pil.ph.crk = if i = .crank then .nosync else p.crk))

/-- R50, R51: when two SBCLK periods have passed without an edge TICK enters holdover, which is an event, and goes on from
its next step of 32; the next edge ends it; a crystal that fails while PLCLK runs gives no more edges, and one that fails in
standby holds TICK for good. R254: after 10 s of TICK with an advance the Pilot writes a checkpoint through both links, and
remembers it. -/
def Obligations.TickAndCheckpoints : Prop :=
  (∀ (s : State),
     let p := s.pil.ph
     (s.plclk = true → p.xtal = false → p.holdover = false → p.tickLost = false → 2 * p.ts ≤ p.sbN →
       ∃ s', exec .tickHoldover s = .next s' ∧ s'.pil.ph.holdover = true ∧ s'.pil.ph.tick = BitVec.ofNat 48 (32 * (p.sbS + 1)) ∧
         s'.evBit 0x1046 = true) ∧
     (s.plclk = true → p.xtal = false → p.tickLost = false →
       ∃ s', exec .holdoverEnd s = .next s' ∧ s'.pil.ph.holdover = false ∧
         s'.pil.ph.tick = BitVec.ofNat 48 (32 * (p.sbS + 1))) ∧
     (s.plclk = true →
       exec .crystalFailure s = .next { s with pil := { s.pil with ph := { p with xtal := false } } }) ∧
     (s.pw.life = .standby →
       exec .crystalFailure s = .next { s with pil := { s.pil with ph := { p with tickLost := true, xtal := false } } })) ∧
  (∀ (s : State),
     let p := s.pil.ph
     s.plclk = true → p.ckAdv = true → p.ckTick.toNat + 10 * 2 ^ 20 ≤ p.tick.toNat → p.odoValid = true → s.vaultOn = true → s.fb.plink.down = false → s.fb.hearth.down = false →
     exec .checkpointTimer s = .next ((s.pilotLog 0x80 (p.ckPayload 2)).modPh
       (fun q => { q with ckOdo := q.odo, ckTick := q.tick, ckAdv := false })))

/-- R54 to R56, R64, R476: a comparator that is enabled hits when its target has passed by the half-range rule: its
hit bit is set, a one-shot comparator is disabled, a periodic one moves its target on by whole increments past the
value; writes of CTRL, TARGET and INCR. -/
def Obligations.Comparators : Prop :=
  ∀ (s : State) (n : BitVec 6),
    let c := s.fb.cmp.get n.toNat
    let value (k : Nat) : Dbl := if k = 0 then s.fb.mir.course else if k = 1 then s.fb.mir.crank else s.fb.mir.tick
    let v := value c.src.toNat
    let set (d : Compar) : State := { s with fb := { s.fb with cmp := s.fb.cmp.set n.toNat d } }
    (s.fireOn = true → c.en = true → (v - c.target).msb = false →
      ∃ s', exec (.comparatorHit n) s = .next s' ∧ s'.evBit (0x1000 + n.toNat) = true ∧
        let d := s'.fb.cmp.get n.toNat
        (c.periodic = false → d.en = false ∧ d.target = c.target) ∧
        (c.periodic = true → c.incr ≠ 0 → d.en = true ∧
          d.target = c.target + BitVec.ofNat 48 (((v - c.target).toNat / c.incr.toNat + 1) * c.incr.toNat) ∧
          d.skip.toNat = min 255 (c.skip.toNat + (v - c.target).toNat / c.incr.toNat)) ∧
        (s.evBit (0x1000 + n.toNat) = true → d.overrun = satInc c.overrun) ∧
        (s.evBit (0x1000 + n.toNat) = false → d.carried = c.level ∧ d.overrun = c.overrun)) ∧
    (s.fireOn = true → c.en = true → (v - c.target).msb = true →
      exec (.comparatorHit n) s = .next (set { c with first := false })) ∧
    (∀ x : Dbl, exec (.comparatorTargetWrite n x) s = .next (set { c with target := x, first := false })) ∧
    (∀ x : Dbl, exec (.comparatorIncrWrite n x) s = .next
      (if x.msb then s else set { c with incr := x, en := c.en && !(c.periodic && x = 0) })) ∧
    (∀ x : Cell,
      let level := x.extractLsb' 4 3
      let src := x.extractLsb' 1 2
      let bad := level = 0 ∨ src = 3 ∨ (x.getLsbD 3 = true ∧ c.incr = 0)
      let d := { c with en := x.getLsbD 0 && !decide bad, src := src, periodic := x.getLsbD 3, level := level }
      exec (.comparatorCtrlWrite n x) s = .next (set
        (if d.en && !c.en then { d with late := false, skip := 0, overrun := 0, first := !(value src.toNat - c.target).msb } else d)))

/-- R61 to R63, R391: in standby the counted wheels' teeth advance COURSE and the standby count; two source teeth 16
SBCLK periods apart or closer raise a wake request, as do STBY_WAKE_TEETH of them, once a standby, and a selected TRIG
edge. A wake request, where PCIE_WAKE_N is not low already, drives it low, and keeps the first cause. -/
def Obligations.StandbyWakes : Prop :=
  ∀ (s : State),
    let p := s.pil.ph
    let k := s.pil.wk
    let woken (s' : State) (cause : Nat) : Prop :=
      s'.pil.wakePin = false ∧ s'.pil.wk.req = true ∧ s'.pil.wk.wake = true ∧
      (k.wake = false → s'.pil.wk.cause = BitVec.ofNat 3 cause ∧ s'.pil.wk.tick = p.tick) ∧
      (k.wake = true → s'.pil.wk.cause = k.cause ∧ s'.pil.wk.tick = k.tick)
    s.pw.life = .standby →
    (∀ (w : BitVec 2) (level : Bool), k.standbyRun = true → s.pw.vddioA = true → p.counted w.toNat = true → (p.ang.get w.toNat).level ≠ level →
      isTooth (p.edge w.toNat) level = true → p.src = w → p.pendCourse = false →
      let fast := ∃ t, k.lastTooth = some t ∧ p.sbS - t ≤ 16
      ∃ s', exec (.standbyTooth w level) s = .next s' ∧
        s'.pil.ph.course = BitVec.ofNat 48 ((p.course.toNat / 4096 + 1) * 4096) ∧ s'.pil.wk.count = k.count + 1 ∧
        s'.pil.wk.lastTooth = some p.sbS ∧ (fast → s.pil.wakePin = true → woken s' 2)) ∧
    (k.distReq = false → p.wakeTeeth ≤ k.count →
      ∃ s', exec .stbyWakeTeethReached s = .next s' ∧ s'.pil.wk.distReq = true ∧ (s.pil.wakePin = true → woken s' 1)) ∧
    (∀ (i : BitVec 2) (level : Bool), s.pw.vddioA = true → s.pil.cap.trigPin.getLsbD i.toNat ≠ level →
      let rise := k.stbyWake.getLsbD (2 * i.toNat)
      let fall := k.stbyWake.getLsbD (2 * i.toNat + 1)
      ∃ s', exec (.standbyTrigEdge i level) s = .next s' ∧ s'.pil.cap.trigPin = setBit s.pil.cap.trigPin i.toNat level ∧
        ((if level then rise else fall) = true → s.pil.wakePin = true → woken s' (3 + i.toNat)))

/-- R190 to R196: the instant of an enabled periodic channel queues an analog conversion or an SPI slot, or writes the
levels of a discrete channel; a conversion, a transaction and a frame that the store filter passes leave for the ring
engine, with the G of their channel, while the pilot link carries traffic and the channel's stream buffer has room; a
sample that finds none is lost, counted, and sets G. R194: a change under its MASK makes an enabled channel in CHANGE mode
write the levels once its last entry is 1 us old, and waits until then. R202, R206: the filtered level of a TRIG pin takes
the pin's level once that has stood for FILT, is its event bit, and with its selected edge fires its source: a pulse for
every group that selects it. -/
def Obligations.Samples : Prop :=
  (∀ (s : State), s.plclk = true →
     let c := s.pil.cap
     let clk := s.pil.ph.clk
     let room (ch : Nat) : Prop := (c.stream.filter (fun e => e.ch = ch)).length < Config.streamDepth ch + 1
     let sends (s' : State) (ch : Nat) (q : Bool) (cells : List (BitVec 16)) : Prop :=
       (room ch → s'.pil.cap.stream = c.stream ++ [{ ch := ch, g := c.gap.getLsbD ch, q := q, cells := cells }] ∧
         s'.pil.cap.gap = setBit c.gap ch false) ∧
       (¬room ch → s'.pil.cap.stream = c.stream ∧ s'.pil.cap.gap = setBit c.gap ch true ∧
         s'.pil.cap.lost = c.lost.modify ch satInc)
     (∀ ch : BitVec 6, c.chanEn ch.toNat = true →
       (ch.toNat < 8 → ∃ s', exec (.channelSample ch) s = .next s' ∧ s'.pil.cap.adcq.Perm ((ch.toNat + 1, clk) :: c.adcq)) ∧
       (8 ≤ ch.toNat → ch.toNat < 32 → s.pw.vddioB = true →
         let m := (ch.toNat - 8) / 6
         let k := (ch.toNat - 8) % 6
         ∃ s', exec (.channelSample ch) s = .next s' ∧
           (s'.pil.cap.spiDue.get m).Perm ((k, clk) :: (c.spiDue.get m).filter (fun x => x.1 ≠ k)) ∧
           s'.pil.cap.lost.get ch.toNat = if (c.spiDue.get m).any (fun x => x.1 = k) then satInc (c.lost.get ch.toNat) else c.lost.get ch.toNat) ∧
       (34 ≤ ch.toNat → ch.toNat < 48 → (c.objCell (.channel ch.toNat) 0).getLsbD 2 = false → s.plinkUp = true →
         ∃ s', exec (.channelSample ch) s = .next s' ∧ sends s' ch.toNat false [s.discLevels.setWidth 16])) ∧
     (∀ (code : BitVec 16) n t r, c.adcq = (n + 1, t) :: r → s.plinkUp = true →
       ∃ s', exec (.adcConversionDone code) s = .next s' ∧ s'.pil.cap.adcq = r ∧ sends s' n (code = 0 || code = 0xFFFF) [code]) ∧
     (∀ (m : BitVec 2) k t r, c.spiRun.get m.toNat = none → c.spiDue.get m.toNat = (k, t) :: r →
       ∃ s', exec (.spiTransaction m) s = .next s' ∧ s'.pil.cap.spiRun.get m.toNat = some k ∧ s'.pil.cap.spiDue.get m.toNat = r ∧
         s'.pil.cap.spiTx.get m.toNat = c.spiBytes (6 * m.toNat + k)) ∧
     (∀ (m : BitVec 2) (rx : BitVec 48) k, c.spiRun.get m.toNat = some k → k < 6 → c.chanEn (8 + (6 * m.toNat + k)) = true →
       s.pil.tap.scanning = false → s.plinkUp = true →
       let o : Obj := .spi (6 * m.toNat + k)
       let ofs := c.objField o 0 18 6
       let st := spiStatus rx (c.objField o 0 12 3) ofs
       ∃ s', exec (.spiTransactionDone m rx) s = .next s' ∧ s'.pil.cap.spiRun.get m.toNat = none ∧
         sends s' (8 + (6 * m.toNat + k))
           (st &&& ((c.objCell o 4).setWidth 8 ++ c.objCell o 3) != ((c.objCell o 6).setWidth 8 ++ c.objCell o 5))
           [BitVec.ofNat 16 (rx.toNat / 2 ^ (32 - ofs))]) ∧
     (∀ (i : BitVec 1) (f : CanFrame), s.pw.vddioA = true →
       (∃ s', exec (.canFrame i f false) s = .next s' ∧ s'.pil.cap.canErr.get i.toNat = satInc (c.canErr.get i.toNat) ∧
         s'.pil.cap.stream = c.stream) ∧
       (c.chanEn (32 + i.toNat) = true → c.canStored i.toNat f = true → s.plinkUp = true →
         ∃ s', exec (.canFrame i f true) s = .next s' ∧ sends s' (32 + i.toNat) f.esi (canCells f)))) ∧
  (∀ (s : State), s.plclk = true →
     let c := s.pil.cap
     let clk := s.pil.ph.clk
     (∀ (gpio : BitVec 8), s.pw.vddioB = true →
       let now := (s.modCap (fun c => { c with gpioIn := gpio })).discLevels
       ∃ s', exec (.discreteChange gpio) s = .next s' ∧ s'.pil.cap.gpioIn = gpio ∧
         ∀ ch, 34 ≤ ch → ch < 48 →
           let on := c.chanEn ch = true ∧ (c.objCell (.channel ch) 0).getLsbD 2 = true
           let moved := c.discPend.getLsbD (ch - 34) = true ∨
             (now ^^^ c.discLast.get (ch - 34)) &&& (c.objCell (.channel ch) 1).setWidth 12 ≠ 0
           let free := ∀ t, c.discAt.get (ch - 34) = some t → t + 100 ≤ clk
           let mine (l : List StreamEntry) : List StreamEntry := l.filter (fun e => e.ch = ch)
           (¬(on ∧ moved ∧ free) → mine s'.pil.cap.stream = mine c.stream) ∧
           (on → s'.pil.cap.discLast.get (ch - 34) = now) ∧
           (on → moved → ¬free → s'.pil.cap.discPend.getLsbD (ch - 34) = true) ∧
           (on → moved → free → s'.pil.cap.discPend.getLsbD (ch - 34) = false ∧ s'.pil.cap.discAt.get (ch - 34) = some clk ∧
             (s.plinkUp = true → c.streamFull ch = false → mine s'.pil.cap.stream =
               mine c.stream ++ [{ ch := ch, g := c.gap.getLsbD ch, q := false, cells := [now.setWidth 16] }]))) ∧
     (∀ (p : BitVec 2) (level : Bool), s.pw.vddioA = true →
       let edge := c.objField (.trig p.toNat) 0 1 2
       let on := c.objField (.trig p.toNat) 0 0 1 = 1
       let since := if c.trigPin.getLsbD p.toNat = level then c.trigAt.get p.toNat else clk
       let passes := c.trigLev.getLsbD p.toNat ≠ level ∧ since + c.objField (.trig p.toNat) 0 3 7 ≤ clk
       ∃ s', exec (.trigEdge p level) s = .next s' ∧ s'.pil.cap.trigPin.getLsbD p.toNat = level ∧
         s'.pil.cap.trigAt.get p.toNat = since ∧
         (¬passes → s'.pil.cap.trigLev = c.trigLev ∧ s'.pil.cap.pulses = c.pulses ∧ s'.pil.cap.recs = c.recs) ∧
         (passes → s'.pil.cap.trigLev = setBit c.trigLev p.toNat level ∧ s'.evBit (0x10C0 + p.toNat) = level ∧
           (on → (edge = 2 ∨ (edge = 0 ∧ level = true) ∨ (edge = 1 ∧ level = false)) →
             ∀ i, i < 16 → (s.fb.rings.get i).trigsel.getLsbD p.toNat = true →
               ∃ x, x ∈ s'.pil.cap.pulses ++ s'.pil.cap.recs ∧ x.ring = i ∧ x.at_ = clk ∧ x.src ≤ p.toNat) ∧
           (¬on → s'.pil.cap.pulses = c.pulses ∧ s'.pil.cap.recs = c.recs))))

/-- R196 to R200, R207: the oldest sample under way reaches every ring; a ring whose active half takes its channel
writes the entry's cells at its write offset, tagged, wrapping in its area, and moves the offset on. -/
def Obligations.EntriesReachRings : Prop :=
  (∀ (s : State) (e : StreamEntry) (r : List StreamEntry),
    s.pil.cap.stream = e :: r → s.plinkUp = true → s.fireOn = true →
    exec .emberEntryWrite s = .next ((List.range 16).foldl (fun (q : State) i => q.ringEntry i e)
      (s.modCap (fun c => { c with stream := r })))) ∧
  (∀ (s : State) (i : Nat) (e : StreamEntry) (h : Bool) (tag : Nat), i < 16 →
    let r := s.fb.rings.get i
    let cs := entryCells e tag
    r.active = some h → r.tagOf e.ch = some tag → cs.length ≤ r.area → r.wp < r.area → Memory.wf s.fb.ember = true →
    let s' := s.ringEntry i e
    (∀ k, k < cs.length → memRead s'.fb.ember (r.lo h + (r.wp + k) % r.area) = cs.getD k 0) ∧
    (∀ a, (∀ k, k < cs.length → a ≠ r.lo h + (r.wp + k) % r.area) → memRead s'.fb.ember a = memRead s.fb.ember a) ∧
    (r.half h = .armed → (s'.fb.rings.get i).wp = (r.wp + cs.length) % r.area ∧ (s'.fb.rings.get i).depth = r.depth + cs.length) ∧
    (∀ j, j < 16 → j ≠ i → s'.fb.rings.get j = s.fb.rings.get j)) ∧
  (∀ (e : StreamEntry) (tag : Nat) (x : BitVec 16), tag < 16 → e.cells = [x] →
    entryCells e tag = [(if e.g then 0x200000 else 0) ||| (if e.q then 0x100000 else 0) ||| BitVec.ofNat 24 (tag * 65536) ||| x.setWidth 24])

/-- R207 to R213: a trigger freezes the ARMED half of its ring, which goes to POST with a new window at the write
offset; a ring that has no ARMED half misses it and counts it; a ring with EN 0 ignores it. R205, R206, R213: the
oldest pulses reach the ring engine, each to wait for its record, or with source 0x1F at the mirror's phase when the
pilot link is down; the oldest record whose pulse has arrived completes what waits for it. -/
def Obligations.TriggersAct : Prop :=
  (∀ (s : State) (i : Nat) (g : Trig), i < 16 → g.wait = none →
     let r := s.fb.rings.get i
     let s' := s.trigger i g
     let r' := s'.fb.rings.get i
     (r.en = false → s' = s) ∧
     (∀ h, r.en = true → r.active = some h → r.half h = .armed → s.stoppedFor r = false →
       r'.half h = .post ∧ r'.missed = r.missed ∧ s'.evBit (0x1080 + 4 * i) = true ∧
       ∃ w, r'.wins = r.wins ++ [w] ∧ w.half = h ∧ w.fp = r.wp ∧ w.src = g.src ∧ w.tick = g.tick ∧ w.course = g.course ∧
         w.crank = g.crank ∧ w.complete = false ∧ w.d ≤ min r.pre.toNat r.depth) ∧
     (r.en = true → (∀ h, r.active = some h → r.half h ≠ .armed) →
       r'.missed = satInc r.missed ∧ r'.wins = r.wins ∧ s'.evBit (0x1080 + 4 * i + 2) = true ∧
       r'.mlist = if r.mlist.length < 8 then r.mlist ++ [{ src := g.src, tick := g.tick, wait := none }] else r.mlist)) ∧
  (∀ (s : State), s.fireOn = true →
     let m := s.fb.mir
     let at_ (x : Pulse) : Trig :=
       { src := if s.fb.plink.down then 0x1F else x.src, tick := m.tick, course := m.course, crank := m.crank,
         wait := if s.fb.plink.down then none else some x.id }
     (∀ x, s.pil.cap.pulses = [x] →
       exec .triggerPulse s = .next ((s.modCap (fun c => { c with pulses := [] })).trigger x.ring (at_ x))) ∧
     (∀ x r, s.pil.cap.recs = x :: r → s.plinkUp = true → (∀ y, y ∈ s.pil.cap.pulses → y.id ≠ x.id) →
       exec .triggerRecord s = .next ((s.modCap (fun c => { c with recs := r })).record x.ring x.id
         { src := x.src, tick := x.tick, course := x.course, crank := x.crank } false)))

/-- R211, R216 to R218, R222: of the copies in flight the first in turn that has cells to send sends up to 64 cells of its
window, in ring order from its start, to its log, and goes behind the others; when a copy's window is complete and sent the
copy ends, the segment is final, a window is gone and the missed triggers go with it: those of its ring, or those that were
kept for a window of a ring enabled again since. -/
def Obligations.WindowCopies : Prop :=
  ∀ (s : State) (k : Copy) (p r : List Copy) (w : Win),
    let l := s.hs.slots.get k.slot
    let g := l.segs.getD k.seg {}
    let rg := s.fb.rings.get k.ring
    s.fb.copies = p ++ k :: r → k.slot < 64 → s.copyWin k = some w → k.ring < 16 → k.seg < l.segs.length →
    s.hearthUp = true → s.fireOn = true →
    (k.sent < w.d + w.postw → (∀ x v, x ∈ p → s.copyWin x = some v → v.d + v.postw ≤ x.sent) →
      let n := min 64 (w.d + w.postw - k.sent)
      ∃ s', exec .copyBurst s = .next s' ∧ s'.fb.copies = p ++ r ++ [{ k with sent := k.sent + n }] ∧
        (s'.hs.slots.get k.slot).segs.getD k.seg {} = { g with
          cells := g.cells ++
            (List.range n).map (fun j => memRead s.fb.ember (w.lo + (w.fp + w.size - w.d % w.size + (k.sent + j)) % w.size)) }) ∧
    (w.complete = true → w.d + w.postw ≤ k.sent → g.copy ≠ none →
      (∀ x v, x ∈ p → x.slot = k.slot → s.copyWin x = some v → v.complete = true → x.sent < v.d + v.postw) →
      ∃ s', exec (.copyComplete (BitVec.ofNat 6 k.slot)) s = .next s' ∧ k ∉ s'.fb.copies ∧
        let g' := (s'.hs.slots.get k.slot).segs.getD k.seg {}
        let rg' := s'.fb.rings.get k.ring
        g'.fin = true ∧ rg'.wins.length < rg.wins.length ∧
        (w.old = none → rg'.missed = 0 ∧ rg'.mlist = [] ∧ g'.copy.map (fun x => x.missed) = some rg.missed.toNat) ∧
        (∀ o, w.old = some o → g'.copy.map (fun x => x.missed) = some o.missed.toNat))

/-- R198, R199, R220, R222, R477: a release frees the half of the oldest window without a copy and drops that window;
a disabled ring takes its configuration cells; EN is set when the checks hold, else CFGERR says which failed; an
enabled ring refuses other values with CFGERR 6, and EN 0 disables it. -/
def Obligations.RingCells : Prop :=
  ∀ (s : State) (k : BitVec 4),
    let i := k.toNat
    let r := s.fb.rings.get i
    let cfg (off : BitVec 7) (v : Cell) : Answer := exec (.ringCellWrite k off v) s
    (∀ v : Cell, v.getLsbD 0 = true → exec (.release k v) s = .next (s.modRing i EmRing.release)) ∧
    (∀ w, r.oldestFree = some w → r.release.wins = r.wins.erase w ∧
      (r.paired = false → r.release.h0 = .armed) ∧
      (r.paired = true → (r.half (!w.half)).active = true → r.release.half w.half = .free) ∧
      (r.paired = true → (r.half (!w.half)).active = false → r.release.half w.half = .armed)) ∧
    (∀ v : Cell, r.en = false →
      cfg 1 v = .next (s.modRing i (fun q => { q with base := v.setWidth 22 })) ∧
      cfg 2 v = .next (s.modRing i (fun q => { q with len := v.setWidth 22 })) ∧
      cfg 3 v = .next (s.modRing i (fun q => { q with pre := v.setWidth 22 })) ∧
      cfg 4 v = .next (s.modRing i (fun q => { q with post := v.setWidth 22 })) ∧
      (∀ j, j < 16 → cfg (8 + BitVec.ofNat 7 j) v = .next (s.modRing i (fun q => { q with chmap := q.chmap.set j (v &&& 0x80003F) })))) ∧
    (∀ v : Cell, r.en = false → v.getLsbD 0 = true →
      let s1 := s.modRing i (fun q => { q with paired := v.getLsbD 1, crec := v.getLsbD 2, core := v.extractLsb' 3 4 })
      ∃ s', cfg 0 v = .next s' ∧
        (s1.ringCheck i = 0 → (s'.fb.rings.get i).en = true ∧ (s'.fb.rings.get i).h0 = .armed ∧ (s'.fb.rings.get i).h1 = .free ∧
          (s'.fb.rings.get i).wp = 0 ∧ (s'.fb.rings.get i).depth = 0 ∧ (s'.fb.rings.get i).missed = 0) ∧
        (s1.ringCheck i ≠ 0 → (s'.fb.rings.get i).en = false ∧ (s'.fb.rings.get i).cfgerr = BitVec.ofNat 4 (s1.ringCheck i))) ∧
    (∀ v : Cell, r.en = true → v ≠ r.base.setWidth 24 → v.extractLsb' 22 2 = 0 → cfg 1 v = .next (s.modRing i (fun q => { q with cfgerr := 6 }))) ∧
    (∀ v : Cell, r.en = true → v.getLsbD 0 = false →
      ∃ s', cfg 0 v = .next s' ∧ (s'.fb.rings.get i).en = false ∧ (s'.fb.rings.get i).h0 = .free ∧ (s'.fb.rings.get i).h1 = .free)

/-- R265, R276 to R278, R281, R379: a HOLD_SENSE conversion, where its instant is the oldest, joins the last five and arms
the warning comparator above HU_VFAIL; a measurement takes the lowest voltage and the energy above HU_VMIN, and up to a
power-fail warning then judges the waiting requests: whatever it admits, the credits of the admitted commits and the
odometer reserve stay within the available energy, what was admitted stays so, and nothing is admitted without a valid
lane, an armed comparator and both links. -/
def Obligations.DamperGrants : Prop :=
  ∀ (s : State), s.plclk = true →
    let d := s.pil.dmp
    let adm (x : State) : List Nat := x.hs.vault.adm.map (fun c => c.id)
    let v := match d.codes with | [] => 0 | x :: r => d.hu.mv (r.foldl (fun m y => min m y.toNat) x.toNat)
    let c := match d.cBist with | some b => min d.hu.c b | none => d.hu.c
    let energy := if v ≤ d.hu.vmin then 0 else c * (v * v - d.hu.vmin * d.hu.vmin) * d.hu.eff / (2000000 * 256)
    (∀ (code : BitVec 16) t r, s.pil.cap.adcq = (0, t) :: r →
      ∃ s', exec (.holdSenseConversion code) s = .next s' ∧ s'.pil.cap.adcq = r ∧ s'.pil.dmp.codes = (code :: d.codes).take 5 ∧
        (s'.pil.dmp.armed = true ↔ d.armed = true ∨ (d.huValid = true ∧ d.hu.vfail < code.toNat * d.hu.scale / 1000))) ∧
    (d.pfWarn = true → ∃ s', exec .damperMeasurement s = .next s' ∧ s'.pil.dmp.v = v ∧ s'.pil.dmp.avail = energy ∧
      s'.pil.dmp.rsv = d.rsv ∧ s'.pil.dmp.rsvM = d.rsv ∧ s'.hs.vault = s.hs.vault) ∧
    (d.pfWarn = false →
      ∃ s', exec .damperMeasurement s = .next s' ∧ s'.pil.dmp.v = v ∧ s'.pil.dmp.avail = energy ∧
        s'.pil.dmp.rsvM = s'.pil.dmp.rsv ∧
        (s'.pil.dmp.rsv = d.rsv ∨ s'.pil.dmp.rsv + (if d.hu.odoRes = 0 then 400 else d.hu.odoRes) ≤ s'.pil.dmp.avail) ∧
        (∀ k, k ∈ adm s → k ∈ adm s') ∧
        (¬(d.huValid = true ∧ d.hu.c ≠ 0 ∧ d.armed = true ∧ s.plinkUp = true ∧ s.hearthUp = true ∧ s.vaultOn = true) →
          s'.hs.vault.adm = s.hs.vault.adm ∧ s'.pil.dmp.rsv = d.rsv))

/-- R261, R265, R272, R273, R278: the stream serves the first admitted write of the highest class that has one; when the
write that has all of its lines next gets its COMMIT record it leaves the admitted ones, its credits return, and a log is
durable, unless a write that follows it overwrites its lines; a record's value is then the recorded one. The scrub rewrites
a corrected line through admission and counts an uncorrectable one; a failing block goes into a spare, or is marked bad
when none is left. -/
def Obligations.VaultCommits : Prop :=
  ∀ (s : State), s.vaultOn = true →
    let v := s.hs.vault
    let ids (x : State) : List Nat := x.hs.vault.adm.map (fun c => c.id)
    (∀ c, s.classOrder = [.system, .prot, .rolling] → v.adm.find? (fun x => x.cls = c.cls) = some c →
      (c.cls = .system ∨ ((∀ x, x ∈ v.adm → x.cls ≠ .system) ∧ (c.cls = .prot ∨ ∀ x, x ∈ v.adm → x.cls ≠ .prot))) →
      s.nextWrite = some c) ∧
    (∀ (k : WClass) (c : Commit), s.streamed.hs.vault.curWrite = some c →
      (c.cls ≠ k → exec (.commitDurable k) s = .next s) ∧
      (c.cls = k → (s.pil.dmp.pfWarn = false ∨ c.fromPilot = false) →
        ∃ s', exec (.commitDurable k) s = .next s' ∧ ids s' = (ids s).filter (fun i => i ≠ c.id) ∧
          s'.pil.dmp.rsv = (if s.fb.hearth.down then s.pil.dmp.rsv else s.pil.dmp.rsv - c.cost) ∧
          (∀ l, l ∈ v.logs → c.seq = some l.seq →
            (∀ x, x ∈ v.adm → x.seq ≠ some l.seq → ∀ a, a ∈ l.at_ → a ∉ x.at_) →
            ∃ y, y ∈ s'.hs.vault.logs ∧ y.seq = l.seq ∧ y.durable = true) ∧
          (c.seq = none →
            (∀ ms, c.kind = .cordTime ms → s'.hs.vault.cordMs = ms) ∧
            (∀ id, c.kind = .tokenId id → s'.hs.vault.tokenMax = some id) ∧
            (∀ n m, n < 4 → c.kind = .marks n m → s'.hs.vault.marks.get n = m) ∧
            (∀ n, c.kind = .svnFloor 0 n → s'.hs.vault.svnImg = max v.svnImg n) ∧
            (∀ leaf, c.kind = .reserve leaf → s'.hs.se.nextLeaf = leaf + 1)))) ∧
    (∀ b : BitVec 12, v.retiring.contains b.toNat = false → v.bad.contains b.toNat = false →
      ∃ s', exec (.blockRetire b) s = .next s' ∧
        (0 < v.spares → s'.hs.vault.spares = v.spares - 1 ∧ s'.hs.vault.retiring = v.retiring ++ [b.toNat] ∧ s'.hs.vault.bad = v.bad) ∧
        (v.spares = 0 → s'.hs.vault.bad = v.bad ++ [b.toNat] ∧ s'.hs.vault.retiring = v.retiring)) ∧
    (∀ b : BitVec 12, v.retiring.contains b.toNat = true →
      ∃ s', exec (.blockCopyDone b) s = .next s' ∧ s'.hs.vault.retiring.contains b.toNat = false ∧ s'.hs.vault.logs = v.logs) ∧
    (∀ (line : BitVec 17) (errs : BitVec 10), s.pil.dmp.pfWarn = false →
      (errs = 0 → exec (.vaultScrub line errs) s = .next s) ∧
      (1 ≤ errs.toNat → errs.toNat ≤ 3 → s.life ≠ 4 → s.life ≠ 7 →
        ∃ s', exec (.vaultScrub line errs) s = .next s' ∧ Queues s s' (.rewrite line.toNat)) ∧
      (4 ≤ errs.toNat → ∃ s', exec (.vaultScrub line errs) s = .next s' ∧ s'.hs.vault.ue = satInc v.ue ∧
        line.toNat ∈ s'.hs.vault.ueLines ∧ s'.hs.vault.logs = v.logs))

/-- R241 to R253, R260, R370: CORD_TIME after the first leaf the timer closes the open cord when the queue has room, else
its close stays due; a leaf is reserved before it signs, where no seal record of an earlier cord is under way (log entry
99), signs the next cord once it is reserved, and never before; the seal is then released with its record requested; trees,
key pairs and build progress are recorded. -/
def Obligations.SealCycle : Prop :=
  ∀ (s : State),
    let e := s.hs.se
    (∀ n, s.vaultOn = true → s.pil.dmp.pfWarn = false → e.timer = some n → n + 100000 * s.hs.vault.cordMs ≤ s.pil.ph.clk →
      e.openCord ≠ [] → e.due = none →
      ∃ s', exec .cordTimer s = .next s' ∧
        (e.queue.length < 4 → ∃ c, c ∈ s'.hs.se.queue ∧ c.no = e.nextCord ∧ c.leaves = e.openCord ∧ c.reason = .timer) ∧
        (4 ≤ e.queue.length → s'.hs.se.due = some .timer ∧ s'.hs.se.queue = e.queue)) ∧
    (∀ c, e.nextCord? = some c → s.sealOn = true → e.run = .idle → e.nextLeaf / 2 ^ 20 = e.tree →
      (∀ x, x ∈ e.queue → x.released = false) →
      ∃ s', exec .sealStart s = .next s' ∧ s'.hs.se = { e with run := .reserving e.nextLeaf } ∧ Queues s s' (.reserve e.nextLeaf)) ∧
    ((∀ q, e.run ≠ .reserved q) → exec .sealRelease s = .next s) ∧
    (∀ q c, e.run = .reserved q → e.nextCord? = some c → s.vaultOn = true → s.pil.dmp.pfWarn = false →
      ∃ s', exec .sealRelease s = .next s' ∧ s'.hs.se.run = .idle ∧
        (∃ x, x ∈ s'.hs.vault.seals ∧ x.cord = c.no ∧ x.sealBytes = e.sealBytes c q ∧ x.leaves = c.leaves ∧ x.durable = false) ∧
        (∀ l f, l ∈ s'.hs.vault.logs → f ∈ c.leaves → f.seq = l.seq → l.sealed = true) ∧
        (∀ x, x ∈ s'.hs.se.queue → x.no = c.no → x.no < e.nextCord → x.released = true) ∧
        (s.life ≠ 4 → s.life ≠ 7 → ∃ x, x ∈ s'.hs.vault.wait ∧ x.kind = .sealRec c.no)) ∧
    (s.sealOn = true → s.pw.throt.getLsbD 1 = false → e.building = true → e.nextReady = false → e.nextPub = [] →
      ∃ s', exec .treeBuildDone s = .next s' ∧ s'.hs.se.nextPub = treePub e.w8 e.seedN e.iN ∧ Queues s s' .treeReady) ∧
    (s.vaultOn = true → s.pw.throt.getLsbD 1 = false → s.pil.dmp.pfWarn = false → s.life ≠ 4 → s.life ≠ 7 → e.keyRun = true →
      (e.keyDone = false → e.pub = [] → ∃ s', exec .keypairCreated s = .next s' ∧
        s'.hs.se.pub = [0, 0, 0, 2] ++ treePub e.w8 e.topSeed e.topI ∧ s'.hs.se.curPub = treePub e.w8 e.seed e.i ∧ Queues s s' .keyPair) ∧
      (∃ s', exec .buildProgressSave s = .next s' ∧ s'.hs.se = e ∧ Queues s s' (.progress (e.built + 4096))))

/-- R280 to R282, R379, R389, R436: a rail that falls, or the armed comparator, gives the power-fail warning, which drops
what is not admitted but its own REASON 5 checkpoint, the open logs and the commands, and keeps what is admitted; a
comparator that is not armed gives none; with every admitted commit durable SHUTDOWN is the newest journal record and the device is in
VAULT_SAFE; standby follows when a rail falls; VSTBY out of range ends everything until the COLD reset. -/
def Obligations.PowerLoss : Prop :=
  ∀ (s : State),
    (∀ cause, (s.pw.life = .running ∧ (cause = .rail ∨ s.pil.dmp.armed = true)) ∨
        (s.pw.life = .starting ∧ ((cause = .rail ∧ (s.pw.everRails = true ∨ s.pw.start.s2 = true)) ∨ (cause = .cap ∧ s.pil.dmp.armed = true))) →
      ∃ s', exec (.powerFailWarning cause) s = .next s' ∧ s'.pw.life = .pfail ∧ s'.pw.plan = none ∧ s'.pil.dmp.pfWarn = true ∧
        (∀ x, x ∈ s'.hs.vault.wait → ∃ h p, x.kind = .hw h p true ∧ h.cls = 0x80) ∧
        (∀ c, c ∈ s.hs.vault.adm → ∃ x, x ∈ s'.hs.vault.adm ∧ x.id = c.id) ∧ s'.fl.runs = [] ∧ s'.fb.copies = [] ∧
        (∀ i, i < 64 → let l := s.hs.slots.get i
          (l.state = .open_ ∨ l.state = .committing → (s'.hs.slots.get i).state = .invalid ∧ (s'.hs.slots.get i).gen = l.gen) ∧
          (l.state ≠ .open_ → l.state ≠ .committing → s'.hs.slots.get i = l))) ∧
    (s.pw.life = .running ∨ s.pw.life = .starting → s.pil.dmp.armed = false → exec (.powerFailWarning .cap) s = .next s) ∧
    (s.pw.life = .pfail → s.pw.warmWait = false → s.hs.vault.adm = [] →
      ∃ s', exec .vaultSafe s = .next s' ∧ s'.pw.life = .vaultSafe ∧
        (s.vaultOn = true → ∃ r, s'.hs.vault.journal.getLast? = some r ∧ r.ty = .shutdown)) ∧
    (s.pw.life = .running → s.pw.plan = some 4 → s.pw.warmWait = false → s.hs.vault.wait = [] → s.hs.vault.adm = [] →
      ∃ s', exec .vaultSafe s = .next s' ∧ s'.pw.life = .vaultSafe ∧ s'.pil.wk.ready = true) ∧
    (s.pw.life = .vaultSafe ∨ s.pw.life = .pfail →
      ∃ s', exec .standbyEntry s = .next s' ∧ s'.pw.life = .standby ∧ s'.pil.wk.count = 0 ∧ s'.pil.wk.distReq = false ∧
        s'.pil.ph.course = s.pil.ph.course ∧ s'.pil.ph.odo = s.pil.ph.odo ∧ s'.hs.vault.logs = s.hs.vault.logs) ∧
    exec .vstbyLoss s = .next { s with pw := { s.pw with vstby := false, life := .off },
                                       pil := { s.pil with lockupPin := true, wakePin := true } }

/-- R381 to R383 and Table 14.3, R166, R267, R464, R465: a COLD reset clears what stands in every die and keeps the vault
and the fuses; the rails' return begins a WARM start, which keeps the phases; a falling PERST_N and the reset key raise a
HOST reset, which resets the Flue, the images and every core at once but for a locked one whose state the Pilot still has
to get; once every such state has reached the Pilot and the admitted commits are durable the rest of it follows. It keeps
the Pilot's timebase and the fuses. -/
def Obligations.ResetKinds : Prop :=
  ∀ (s : State),
    let swept (s' : State) : Prop := s'.fb.prog = [] ∧ s'.fb.shared = [] ∧ s'.fb.ember = [] ∧
      s'.fl.runs = [] ∧ s'.img = {} ∧ s'.pw.life = .starting
    let host (s' : State) : Prop := swept s' ∧ s'.pw.hostWait = true ∧ s'.pil.ph = s.pil.ph ∧ s'.hs.vault = s.hs.vault ∧
      s'.hs.otp.norm = s.hs.otp.norm ∧ ∀ c : CoreId, s'.core c = if s.mayReset c then {} else s.core c
    (∃ s', exec .coldReset s = .next s' ∧ swept s' ∧ s'.cores = Tab.fill 16 {} ∧ s'.pw.start = {} ∧ s'.pil.ph.course = 0 ∧
      s'.pil.ph.tick = 0 ∧ s'.pil.ph.odoValid = false ∧ s'.hs.otp.norm = s.hs.otp.norm ∧ s'.hs.vault.journal = s.hs.vault.journal ∧
      s'.hs.vault.adm = s.hs.vault.adm) ∧
    (s.pw.life = .standby ∨ s.pw.life = .vaultSafe →
      ∃ s', exec .mainRailsRestored s = .next s' ∧ swept s' ∧ s'.cores = Tab.fill 16 {} ∧
        s'.pw.start = { kind := .warm, s1 := s.plclk } ∧ s'.pil.ph.course = s.pil.ph.course ∧ s'.pil.ph.tick = s.pil.ph.tick ∧
        s'.pil.ph.odo = s.pil.ph.odo ∧ s'.hs.otp.norm = s.hs.otp.norm ∧ s'.pil.dmp.rsv = 0) ∧
    (s.pw.perst = false → s.pw.life = .running →
      ∃ s', exec .perstNFall s = .next s' ∧ host s' ∧ s'.pw.perst = true ∧ s'.fl.linkReady = false) ∧
    (s.barOn = true → s.pw.life = .running → ∃ s', exec (.rstCtlWrite 0x5AFE0316) s = .next s' ∧ host s' ∧ s'.hs.otp.busy = none) ∧
    (∀ v, v ≠ 0x5AFE0316 → exec (.rstCtlWrite v) s = .next s) ∧
    (s.pw.hostWait = true → s.pw.life = .starting → s.hs.vault.adm = [] ∨ s.vaultOn = false → (∀ c : CoreId, s.mayReset c = true) →
      ∃ s', exec .hostResetBegin s = .next s' ∧ s'.cores = Tab.fill 16 {} ∧ s'.pw.hostWait = false ∧ s'.pw.life = .starting ∧
        s'.pil.ph = s.pil.ph ∧ s'.pil.dmp = s.pil.dmp ∧ s'.hs.otp.norm = s.hs.otp.norm) ∧
    (s.pw.hostWait = true → s.vaultOn = true → s.hs.vault.adm ≠ [] → exec .hostResetBegin s = .next s) ∧
    (∀ c : CoreId, s.mayReset c = false → exec .hostResetBegin s = .next s) ∧
    (s.pw.perst = true → s.pw.life = .running →
      ∃ s', exec .perstNRise s = .next s' ∧ s'.pw.perst = false ∧ s'.pil.wakePin = true ∧ s'.fl.linkReady = true)

/-- R377, R378, R360 to R362, R369, R386, R268 and Table 14.1: each start step that is due completes: PLL lock, the
release of the dies, the start read, the Sweep with the keys behind it, recovery with its HEADS record and the TORN count
of the commits that had begun, the Pilot's load, and the boot ROM, after which the device runs. A frame that the OTP
controller sends on a lane reads as its GEN and its payload. Two equal good frames are adopted; a frame that differs under
the same GEN puts the user back to its safe values. -/
def Obligations.StartSteps : Prop :=
  (∀ (gen : Byte) (pay : List (BitVec 32)), (pay.length = 10 → goodFrame 0 10 (laneFrame 0 gen pay) = some (gen, pay)) ∧
    (pay.length = 12 → goodFrame 1 12 (laneFrame 1 gen pay) = some (gen, pay))) ∧
  ∀ (s : State),
    let st := s.pw.start
    s.pw.life = .starting → s.pw.hostWait = false →
    (st.s1 = false → ∃ s', exec .pllLock s = .next s' ∧ s'.pw.start = { st with s1 := true } ∧ s'.pil.ph.crk = .nosync ∧
      ∀ i, i < 6 → (s'.pil.ph.ang.get i).stopped = true) ∧
    (st.s1 = true → st.s2 = false → s.pw.rails = true →
      ∃ s', exec .resetRelease s = .next s' ∧ s'.pw.start = { st with s2 := true, s11 := st.s11 || !s.pw.perst } ∧
        (s.pw.perst = false → s'.fl.linkReady = true)) ∧
    (∀ o, st.s2 = true → st.s3 = false →
      ∃ s', exec (.otpStartReadDone o) s = .next s' ∧ s'.pw.start = { st with s3 := true, s6 := st.s6 || st.s5 } ∧
        s'.hs.otp.done = true ∧ (o.vfuse = false → s'.hs.otp.norm = s.hs.otp.norm ∧ s'.hs.otp.strict = s.hs.otp.strict)) ∧
    (st.s2 = true → st.s5 = false → ∃ s', exec .sweepDone s = .next s' ∧ s'.pw.start = { st with s5 := true, s6 := st.s6 || st.s3 } ∧
      (st.s3 = true → st.s6 = false → s'.hs.keys = s.hs.otp.deriveKeys)) ∧
    (∀ l errs x, st.s2 = true → st.s3 = true → s.sentFrame l ≠ [] →
      goodFrame (match l with | .f => 0 | .p => 1) (match l with | .f => 10 | .p => 12) (withErrors (s.sentFrame l) errs) = some x →
      let lane (h : Hearth) : LaneUser := match l with | .f => h.lanes.f | .p => h.lanes.p
      ∃ s', exec (.fuseFrame l errs) s = .next s' ∧ (lane s'.hs).lastGood = some x ∧
        ((lane s.hs).lastGood = some x → (lane s'.hs).held = some x) ∧
        (∀ y, (lane s.hs).lastGood ≠ some x → (lane s.hs).held = some y → (lane s'.hs).held = if y.1 = x.1 ∧ y.2 ≠ x.2 then none else some y)) ∧
    (∀ nb, st.s3 = true → st.s7 = false → st.kind ≠ .host →
      ∃ s', exec (.vaultRecovery nb) s = .next s' ∧ s'.pw.start.s7 = true ∧ s'.hs.vault.adm = [] ∧
        (nb = false → s'.hs.vault.torn = (s.hs.vault.adm.filter (·.begun)).foldl (fun n _ => satInc n) s.hs.vault.torn) ∧
        (nb = true → s'.hs.vault.unclean = true) ∧ (∃ r, s'.hs.vault.journal.getLast? = some r ∧ r.ty = .heads)) ∧
    (st.s7 = true → st.s8 = false → st.kind ≠ .host →
      ∃ s', exec .pilotStartLoad s = .next s' ∧ s'.pw.start = { st with s8 := true } ∧ s'.pil.ph.odoValid = true ∧
        (s.pil.msgs = [] → s.pil.ph.odoValid = false → s.pil.ph.pending = 0 → s.hs.vault.remBest < 100000 →
          s'.pil.ph.odo = BitVec.ofNat 48 s.hs.vault.odoBest ∧ s'.pil.ph.rem = s.hs.vault.remBest)) ∧
    (st.s2 = true → st.s4 = true → st.s5 = true → st.s6 = true → st.s7 = true →
      ∃ s', exec .bootRom s = .next s' ∧ s'.pw.life = .running ∧ s'.pw.start.s9 = true ∧ s'.pil.wakePin = true)

/-- R14, R15, R438, R456: a failed flit is replayed and counted, after eight failed replays the link retrains, after
three failed retrains it is down; 120, 130 and 125 degrees warn, throttle and release a die; the inputs of an I/O bank
without supply hold their levels and come back without edges. R374, R375, R371: the startup test gives the TRNG its
output; 26 equal samples in a row, or 665 of 1,024 equal to the first, take it away, and the third such failure in a row
latches it off; a nonce expires 2^26 ticks after it was drawn. R390, R464, R465: STBY_REQ starts a planned entry, and WAKE is cleared by a 1. -/
def Obligations.LinksAndSensors : Prop :=
  (∀ (s : State),
     (∀ l, s.fireOn = true → (s.fb.link l).down = false → (s.fb.link l).training = false →
       let k := s.fb.link l
       ∃ s', exec (.flitCrcError l) s = .next s' ∧
         (k.replays = 0 → s'.fb.link l = { k with replays := 1 }) ∧
         (0 < k.replays → k.replays < 8 → s'.fb.link l = { k with replays := k.replays + 1, errors := satInc k.errors }) ∧
         (8 ≤ k.replays → s'.fb.link l = { k with replays := 0, training := true, retrains := satInc k.retrains })) ∧
     (∀ l, (s.fb.link l).training = true →
       let k := s.fb.link l
       (∃ s', exec (.linkRetrainDone l true) s = .next s' ∧ ((s'.fb.link l).training = false ∧ (s'.fb.link l).fails = 0 ∧
         (s'.fb.link l).down = k.down)) ∧
       (∃ s', exec (.linkRetrainDone l false) s = .next s' ∧
         (k.fails < 2 → (s'.fb.link l).training = true ∧ (s'.fb.link l).down = k.down) ∧
         (2 ≤ k.fails → (s'.fb.link l).training = false ∧ (s'.fb.link l).down = true))) ∧
     (∀ (d : Die) (temp : BitVec 8),
       let n := dieNo d
       let was := s.pw.throt.getLsbD n
       ∃ s', exec (.thermalThreshold d temp) s = .next s' ∧ s'.pw.temp.get n = temp ∧
         (s'.pw.warn.getLsbD n = true ↔ 120 ≤ temp.toInt) ∧
         (s'.pw.throt.getLsbD n = true ↔ 130 ≤ temp.toInt ∨ (was = true ∧ 125 ≤ temp.toInt)) ∧
         s'.pw.throttle = (if was = false ∧ 130 ≤ temp.toInt then satInc s.pw.throttle else s.pw.throttle)) ∧
     (s.pw.life ≠ .off → ∀ k, ∃ s', exec (.vddioDrop k) s = .next s' ∧
       (match k with | .vddioA => s'.pw = { s.pw with vddioA := false } | .vddioB => s'.pw = { s.pw with vddioB := false }) ∧
       s'.pil.ph = s.pil.ph ∧ s'.pil.cap.trigPin = s.pil.cap.trigPin ∧ s'.gpioLevels = s.gpioLevels ∧ s'.fb = s.fb) ∧
     (∀ lv : BitVec 10, s.pw.vddioA = false →
       ∃ s', exec (.vddioReturn .vddioA lv) s = .next s' ∧ s'.pw.vddioA = true ∧ s'.pil.ph.course = s.pil.ph.course ∧
         s'.pil.ph.crank = s.pil.ph.crank ∧ s'.pil.cap.stream = s.pil.cap.stream ∧ s'.pil.cap.pulses = s.pil.cap.pulses ∧
         (∀ i, i < 6 → (s'.pil.ph.ang.get i).level = lv.getLsbD i) ∧
         ∀ i, i < 4 → s'.pil.cap.trigLev.getLsbD i = lv.getLsbD (6 + i) ∧ s'.evBit (0x10C0 + i) = lv.getLsbD (6 + i)) ∧
     (∀ lv : BitVec 10, s.pw.vddioB = false →
       ∃ s', exec (.vddioReturn .vddioB lv) s = .next s' ∧ s'.pw.vddioB = true ∧ s'.pil.cap.gpioIn = lv.setWidth 8 ∧
         s'.pil.cap.stream = s.pil.cap.stream)) ∧
  (∀ (s : State),
     (s.vaultOn = true ∨ s.flueOn = true →
       (s.hs.trng.started = false → s.hs.trng.latched = false →
         ∃ s', exec .trngStartupDone s = .next s' ∧ s'.hs.trng.started = true ∧ s'.hs.trng.latched = false ∧ s'.hs.trng.since = s.pil.ph.clk) ∧
       (∀ (cell : BitVec 5) (x : BitVec 1024),
         let bad : Prop := (∃ i, i + 26 ≤ 1024 ∧ ∀ j, j < 26 → x.getLsbD (i + j) = x.getLsbD i) ∨
           665 ≤ (List.range 1024).countP (fun j => x.getLsbD j = x.getLsbD 0)
         let n := if s.pil.ph.clk - s.hs.trng.since < 419431 then s.hs.trng.fails + 1 else 1
         (bad → ∃ s', exec (.trngHealthFail cell x) s = .next s' ∧
           s'.hs.trng = { fifo := [], started := false, fails := n, latched := s.hs.trng.latched || decide (3 ≤ n), since := s.pil.ph.clk }) ∧
         (¬bad → exec (.trngHealthFail cell x) s = .next s))) ∧
     (s.hs.chal.at_.toNat + 2 ^ 26 ≤ s.pil.ph.tick.toNat →
       ∃ s', exec .nonceExpiry s = .next s' ∧ s'.hs.chal = { s.hs.chal with nonce := none } ∧ s'.fl = s.fl ∧ s'.pil = s.pil) ∧
     (s.pil.ph.tick.toNat < s.hs.chal.at_.toNat + 2 ^ 26 → exec .nonceExpiry s = .next s) ∧
     (s.barOn = true → s.pw.life = .running → s.pw.plan = none →
       exec (.stbyReq 1) s = .next (s.modPw (fun p => { p with plan := some 0 })) ∧ exec (.stbyReq 0) s = .next s) ∧
     (∀ v : BitVec 32, s.barOn = true →
       exec (.wakeClear v) s = .next (if v.getLsbD 2 then s.modWk (fun w => { w with wake := false, cause := 0, tick := 0 }) else s)))

/-- R296 to R299, R467: polling starts when POLL_EN is set with both page addresses there; a poll that is due reads
the page; a page whose indices changed, or did not, is taken; eight failures in a row end polling and set POLL_HALT.
R290, R298: a poll moves an enabled ring's index to the page's value when it is valid, and else puts the ring into
ring error, after which a shadow write is due. -/
def Obligations.Polling : Prop :=
  (∀ (s : State),
     let p := s.fl.poll
     let tick := s.fb.mir.tick
     (∀ v : BitVec 32, s.barOn = true → p.en = false → s.fl.dbAddr ≠ 0 → s.fl.shAddr ≠ 0 → s.fl.dbAddr ≠ s.fl.shAddr →
       ∃ s', exec (.pollEnSet v) s = .next s' ∧ s'.fl.poll.en = true ∧ s'.fl.poll.halt = false ∧ s'.fl.poll.idleMode = false ∧
         s'.fl.poll.act = (if fieldN v 8 8 = 0 then p.act else BitVec.ofNat 8 (fieldN v 8 8)) ∧
         s'.fl.poll.idle = (if fieldN v 16 16 < 2 then p.idle else BitVec.ofNat 16 (fieldN v 16 16))) ∧
     (s.flueTalks = true → p.en = true → p.reading = false → (tick - p.target).msb = false →
       let next : Dbl := tick + BitVec.ofNat 48 (if p.idleMode then p.idle.toNat else p.act.toNat)
       ∃ s', exec .poll s = .next s' ∧ s'.fl.poll = { p with reading := true, target := next } ∧
         s'.fl.stats.get 0 = s.fl.stats.get 0 + 1) ∧
     (p.reading = true → s.flueOn = true →
       (∀ b : List Byte, (∀ i, i < 16 → (s.fl.sqs.get i).en = false) → (∀ i, i < 16 → (s.fl.cqs.get i).en = false) →
         (∀ i, i < 4 → (s.fl.eqs.get i).en = false) →
         ∃ s', exec (.pollComplete (some b)) s = .next s' ∧ s'.fl.gecho = BitVec.ofNat 32 (leAt b 0 4) ∧ s'.fl.poll.reading = false ∧
           s'.fl.poll.fails = 0 ∧ s'.fl.poll.prev = some (bytesAt b 0 4 ++ bytesAt b 0x10 0x50) ∧ s'.fl.poll.en = p.en) ∧
       (∃ s', exec (.pollComplete none) s = .next s' ∧ s'.fl.poll.reading = false ∧ s'.fl.poll.fails = p.fails + 1 ∧
         s'.fl.stats.get 2 = s.fl.stats.get 2 + 1 ∧
         (p.fails < 7 → s'.fl.poll.en = p.en) ∧ (7 ≤ p.fails → s'.fl.poll.en = false ∧ s'.fl.poll.halt = true)))) ∧
  (∀ (s : State) (b : List Byte) (n : Nat),
     let ok (size : BitVec 4) (prod cons old new : BitVec 16) : Prop :=
       (prod - cons).toNat ≤ 2 ^ size.toNat ∧ (new - old).toNat ≤ 2 ^ size.toNat
     s.fl.poll.reading = true → s.flueOn = true → n < 16 →
     ∃ s', exec (.pollComplete (some b)) s = .next s' ∧
       (let q := s.fl.sqs.get n
        let t : BitVec 16 := BitVec.ofNat 16 (leAt b (0x10 + 2 * n) 2)
        q.en = true → q.err = false →
          (ok q.size t q.head q.tail t → s'.fl.sqs.get n = { q with tail := t }) ∧
          (¬ok q.size t q.head q.tail t → s'.fl.sqs.get n = { q with err := true } ∧ s'.fl.shadowDirty = true)) ∧
       (let q := s.fl.cqs.get n
        let h : BitVec 16 := BitVec.ofNat 16 (leAt b (0x30 + 2 * n) 2)
        q.en = true → q.err = false →
          (ok q.size q.tail h q.head h → s'.fl.cqs.get n = { q with head := h }) ∧
          (¬ok q.size q.tail h q.head h → s'.fl.cqs.get n = { q with err := true } ∧ s'.fl.shadowDirty = true)))

/-- R303, R307: the SQ whose turn it is reads a burst of descriptors, up to the ring's end; the descriptors that the
read brings are fetched and the head moves on; a failed read is repeated once, then the ring is in error. R306 to
R311: the first item of the protected queue that has its buffers and record entries starts before the rolling queue's;
its data is written in order, in writes of at most 256 bytes, into the buffers of its BQ entries; once it is, the record of
each of its parts follows and the item is done; changed marks are requested. -/
def Obligations.DescriptorsAndExports : Prop :=
  (∀ (s : State) (sq : BitVec 4),
     let n := sq.toNat
     let q := s.fl.sqs.get n
     let may : Prop := q.rdHeld = false ∨ s.fl.canTalk = true
     (s.flueTalks = true → s.pw.plan = none → s.sqTurn = some n →
       let k := s.burst n
       ∃ s', exec (.descriptorFetch sq) s = .next s' ∧ s'.fl.sqs.get n = { q with rd := some (q.head, k, false) } ∧ s'.fl.rrSq = n ∧
         0 < k ∧ k ≤ 16 ∧ k ≤ (q.tail - q.head).toNat ∧ q.head.toNat % 2 ^ q.size.toNat + k ≤ 2 ^ q.size.toNat) ∧
     (∀ i k b retry, q.rd = some (i, k, retry) → may →
       ∃ s', exec (.descriptorReadComplete sq (some b)) s = .next s' ∧ s'.fl.shadowDirty = true ∧
         let q' := s'.fl.sqs.get n
         q'.rd = none ∧ q'.head = i + BitVec.ofNat 16 k ∧ q'.fetched.length = q.fetched.length + k ∧ q'.nextOrd = q.nextOrd + k ∧
         ∀ j, j < k → q'.fetched.getD (q.fetched.length + j) default = { bytes := bytesAt (b.drop (32 * j)) 0 32, ord := q.nextOrd + j }) ∧
     (∀ i k, q.rd = some (i, k, false) →
       ∃ s', exec (.descriptorReadComplete sq none) s = .next s' ∧
         s'.fl.sqs.get n = { q with rd := some (i, k, true), rdHeld := !s.fl.canTalk }) ∧
     (∀ i k, q.rd = some (i, k, true) → may →
       ∃ s', exec (.descriptorReadComplete sq none) s = .next s' ∧ s'.fl.sqs.get n = { q with rd := none, rdHeld := false, err := true } ∧
         s'.fl.shadowDirty = true ∧ s'.fl.evcnt = s.fl.evcnt + 1)) ∧
  (∀ (s : State) (q : BitVec 2),
     let n := q.toNat
     let e := s.fl.eqs.get n
     (∀ i r, s.flueTalks = true → e.en = true → e.err = false → e.bqErr = false → e.run = none → s.hearthUp = true →
       let ps := s.itemParts e i
       let run (prot : Bool) : ExpRun := { item := i, prot := prot, parts := ps, need := (ps.map (partBufs e)).sum, first := e.bqHead }
       e.canStart ps = true → ps ≠ [] →
       (e.protQ = i :: r → ∃ s', exec (.exportStart q) s = .next s' ∧ s'.fl.eqs.get n = { e with protQ := r, run := some (run true) }) ∧
       (e.protQ = [] → e.rollQ = i :: r →
         ∃ s', exec (.exportStart q) s = .next s' ∧ s'.fl.eqs.get n = { e with rollQ := r, run := some (run false) })) ∧
     (∀ x, e.run = some x → x.rd = false → s.flueOn = true → x.held = false ∨ s.fl.canTalk = true →
       (∀ b, (∀ i, i < x.need → leAt b (16 * i) 8 % 256 = 0 ∧ leAt b (16 * i + 12) 4 = 0) → x.need = (x.parts.map (partBufs e)).sum →
         ∃ s' data, exec (.bqFetchComplete q (some b)) s = .next s' ∧
           s'.fl.eqs.get n = { e with bqHead := x.first + BitVec.ofNat 16 x.need, run := some { x with rd := true, held := false, data := data } } ∧
           (data.map (·.2)).flatten = (x.parts.map (·.bytes)).flatten ∧ (∀ w, w ∈ data → 0 < w.2.length ∧ w.2.length ≤ 256) ∧
           (∀ p, x.parts = [p] → x.need = 1 → ∀ k, 256 * k < p.bytes.length →
             data[k]? = some (BitVec.ofNat 64 (leAt b 0 8 + 256 * k), (p.bytes.drop (256 * k)).take 256))) ∧
       (∃ s', exec (.bqFetchComplete q none) s = .next s' ∧
         (x.retry = false → (s'.fl.eqs.get n).run = some { x with retry := true, held := !s.fl.canTalk }) ∧
         (x.retry = true → (s'.fl.eqs.get n).run = none ∧ (s'.fl.eqs.get n).err = true ∧ (s'.fl.eqs.get n).bqErr = true))) ∧
     (∀ x, e.run = some x → x.rd = true → s.flueTalks = true → e.err = false →
       ∃ s', exec (.exportRecord q) s = .next s' ∧ (s'.fl.eqs.get n).run = none ∧
         (s'.fl.eqs.get n).tail = e.tail + BitVec.ofNat 16 x.parts.length ∧
         (∀ p l, p ∈ x.parts → p.isSeal = false → l ∈ s'.hs.vault.logs → l.seq = p.val → n ∈ l.exps) ∧
         (∀ p, x.parts = [p] →
           (s'.fl.eqs.get n).recs = e.recs ++ [{ idx := e.tail, prot := x.prot, isSeal := p.isSeal, val := p.val }] ∧
           (s.fl.held = [] → (∀ m, m < 4 → m ≠ n → (s.fl.eqs.get m).toWrite = []) →
             s'.fl.out = s.fl.out ++ x.data.map (fun w => HostOut.write w.1 w.2) ++
               [.write (entryAddr e.base e.tail e.size 32) (exportBytes e p x.first (partBufs e p))]))) ∧
     (s.changedMarks = [] ∨ s.markDue = false → exec .exportMarkWrite s = .next s) ∧
     (s.flueOn = true → s.vaultOn = true → s.fb.hearth.down = false → s.changedMarks ≠ [] → s.markDue = true →
       ∃ s', exec .exportMarkWrite s = .next s' ∧ s'.fl.markTick = some s.fb.mir.tick ∧
         (s.life ≠ 4 → s.life ≠ 7 → s'.hs.vault.wait.map (·.kind) =
           s.hs.vault.wait.map (·.kind) ++ s.changedMarks.map (fun x => .marks x.1 x.2))))

/-- R288, R295, R302, R304, R315: the shadow page goes out with the next generation number, then the messages that waited
for it, and a disabled SQ whose commands have completed is then STOPPED; a masked vector becomes pending and unmasking
sends it; a coalescing time that has passed sends the vector of its ring. R286, R318, R320, R321, R381: Bus Master Enable and the power state hold the Flue's traffic back and let it go
in order; the link idles in L1 when no read is outstanding; a Hot Reset disables every ring and polling. -/
def Obligations.HostTraffic : Prop :=
  (∀ (s : State),
     let f := s.fl
     (s.flueTalks = true → f.shAddr ≠ 0 → f.shadowDirty = true → f.held = [] → (∀ v, v ∈ f.msixWait → (f.msix.get v).ctl.getLsbD 0 = false) →
       ∃ s', exec .shadowWrite s = .next s' ∧ s'.fl.sgen = f.sgen + 1 ∧ s'.fl.shadowDirty = false ∧ s'.fl.msixWait = [] ∧
         s'.fl.out = f.out ++ .write f.shAddr (s.shadowPage (f.sgen + 1)) :: f.msixWait.map HostOut.msix ∧
         ∀ i, i < 16 → (f.sqs.get i).stopping = true → (f.sqs.get i).begun = [] →
           (s'.fl.sqs.get i).stopped = true ∧ (s'.fl.sqs.get i).stopping = false) ∧
     (∀ n : BitVec 4, (f.cqs.get n.toNat).since ≠ 0 → (f.cqs.get n.toNat).coalTime ≠ 0 →
       (f.cqs.get n.toNat).coalTime.toNat ≤ (s.fb.mir.tick - (f.cqs.get n.toNat).first).toNat →
       ∃ s', exec (.coalesceTimer (.cq n)) s = .next s' ∧ (s'.fl.cqs.get n.toNat).since = 0 ∧
         (f.shadowDirty = true → s'.fl.msixWait = f.msixWait ++ [(f.cqs.get n.toNat).vec.toNat])) ∧
     (∀ n : BitVec 2, (f.eqs.get n.toNat).since ≠ 0 → (f.eqs.get n.toNat).coalTime ≠ 0 →
       (f.eqs.get n.toNat).coalTime.toNat ≤ (s.fb.mir.tick - (f.eqs.get n.toNat).first).toNat →
       ∃ s', exec (.coalesceTimer (.eq n)) s = .next s' ∧ (s'.fl.eqs.get n.toNat).since = 0 ∧
         (f.shadowDirty = true → s'.fl.msixWait = f.msixWait ++ [(f.eqs.get n.toNat).vec.toNat])) ∧
     (∀ (e : BitVec 4) (v : BitVec 32), s.barOn = true → v.getLsbD 0 = false → f.pend.getLsbD e.toNat = true → f.canTalk = true → f.held = [] →
       ∃ s', exec (.msixTableWrite e 3 v) s = .next s' ∧ ((s'.fl.msix.get e.toNat).ctl = 0 ∧ s'.fl.pend.getLsbD e.toNat = false ∧
         s'.fl.out = f.out ++ [.msix e.toNat])) ∧
     (∀ (e : BitVec 4) (v : BitVec 32), s.barOn = true → f.pend.getLsbD e.toNat = false →
       let m := f.msix.get e.toNat
       let put (x : MsixEntry) : State := { s with fl := { f with msix := f.msix.set e.toNat x } }
       exec (.msixTableWrite e 0 v) s = .next (put { m with lo := v &&& 0xFFFFFFFC }) ∧
       exec (.msixTableWrite e 1 v) s = .next (put { m with hi := v }) ∧
       exec (.msixTableWrite e 2 v) s = .next (put { m with data := v }) ∧
       exec (.msixTableWrite e 3 v) s = .next (put { m with ctl := v &&& 1 }))) ∧
  (∀ (s : State), s.flueOn = true →
     let f := s.fl
     (f.reading = false → exec .linkL1Entry s = .next { s with fl := { f with l1 := true } }) ∧
     (∀ on, ∃ s', exec (.busMasterEnable on) s = .next s' ∧ s'.fl.bme = on ∧
       (on = true → f.d3hot = false → s'.fl.out = f.out ++ f.held ∧ s'.fl.held = []) ∧
       (on = false → s'.fl.out = f.out ∧ s'.fl.held = f.held)) ∧
     (∀ d3 pme, ∃ s', exec (.powerStateChange d3 pme) s = .next s' ∧ s'.fl.d3hot = d3 ∧ s'.fl.pmeEn = pme ∧
       (d3 = false → f.bme = true → s'.fl.out = f.out ++ f.held ∧ s'.fl.held = []) ∧
       (d3 = true → s'.fl.out = f.out ∧ s'.fl.held = f.held ∧ s'.barOn = false)) ∧
     (∃ s', exec .linkHotReset s = .next s' ∧ s'.fl.bme = false ∧ s'.fl.d3hot = false ∧ s'.fl.poll.en = false ∧ s'.fl.out = f.out ∧
       (∀ i, i < 16 → (s'.fl.sqs.get i).en = false ∧ (s'.fl.cqs.get i).en = false) ∧ (∀ i, i < 4 → (s'.fl.eqs.get i).en = false) ∧
       s'.cores = s.cores ∧ s'.hs = s.hs ∧ s'.pil = s.pil))

/-- R314 to R317, R462, R468, R469: enabling a ring starts it with its own indices at 0 and its configuration; a size
out of range is refused with CFGERR 2. A disabled SQ completes what it has fetched with RING_STOPPED and stops; without a
shadow page it is STOPPED with its last command, else with the next shadow write. A disabled EQ leaves its items in the
vault. -/
def Obligations.HostRings : Prop :=
  ∀ (s : State), s.barOn = true →
    let f := s.fl
    (∀ (n : BitVec 4) (v : BitVec 32), (f.sqs.get n.toNat).en = false →
      let z := fieldN v 1 4
      ∃ s', exec (.ringEnable (.sq n) v) s = .next s' ∧
        let q := s'.fl.sqs.get n.toNat
        (4 ≤ z → z ≤ 12 → (f.cqs.get (fieldN v 5 4)).en = true → q.en = true ∧ q.size.toNat = z ∧ q.cq.toNat = fieldN v 5 4 ∧
          q.head = 0 ∧ q.tail = 0 ∧ q.err = false ∧ q.stopped = false ∧ q.cfgerr = 0) ∧
        (4 ≤ z → z ≤ 12 → (f.cqs.get (fieldN v 5 4)).en = false → q.en = false ∧ q.cfgerr = 3) ∧
        (z < 4 ∨ 12 < z → q.en = false ∧ q.cfgerr = 2)) ∧
    (∀ (n : BitVec 4) (v : BitVec 32), (f.cqs.get n.toNat).en = false →
      let z := fieldN v 1 4
      ∃ s', exec (.ringEnable (.cq n) v) s = .next s' ∧
        let q := s'.fl.cqs.get n.toNat
        (4 ≤ z → z ≤ 12 → q.en = true ∧ q.size.toNat = z ∧ q.vec.toNat = fieldN v 5 4 ∧ q.head = 0 ∧ q.tail = 0 ∧ q.cfgerr = 0) ∧
        (z < 4 ∨ 12 < z → q.en = false ∧ q.cfgerr = 2)) ∧
    (∀ (n : BitVec 2) (v : BitVec 32), (f.eqs.get n.toNat).en = false →
      let z := fieldN v 1 4
      ∃ s', exec (.ringEnable (.eq n) v) s = .next s' ∧
        let q := s'.fl.eqs.get n.toNat
        (4 ≤ z → z ≤ 12 → q.en = true ∧ q.size.toNat = z ∧ q.head = 0 ∧ q.tail = 0 ∧ q.bqHead = 0 ∧ q.bqTail = 0 ∧ q.cfgerr = 0) ∧
        (z < 4 ∨ 12 < z → q.en = false ∧ q.cfgerr = 2)) ∧
    (∀ n : BitVec 4, (f.sqs.get n.toNat).en = true →
      let q := f.sqs.get n.toNat
      ∃ s', exec (.sqDisable n) s = .next s' ∧ (s'.fl.sqs.get n.toNat).en = false ∧ (s'.fl.sqs.get n.toNat).fetched = [] ∧
        (f.shAddr ≠ 0 → (s'.fl.sqs.get n.toNat).stopped = false ∧ (s'.fl.sqs.get n.toNat).stopping = true ∧ s'.fl.shadowDirty = true) ∧
        (f.shAddr = 0 → (s'.fl.sqs.get n.toNat).stopped = q.begun.isEmpty ∧ (s'.fl.sqs.get n.toNat).stopping = !q.begun.isEmpty) ∧
        ((f.cqs.get q.cq.toNat).en = true → (f.cqs.get q.cq.toNat).err = false →
          s'.fl.stats.get 3 = s.fl.stats.get 3 + BitVec.ofNat 48 q.fetched.length)) ∧
    (∀ n : BitVec 2, (f.eqs.get n.toNat).en = true →
      ∃ s', exec (.eqDisable n) s = .next s' ∧ (s'.fl.eqs.get n.toNat).en = false ∧ (s'.fl.eqs.get n.toNat).protQ = [] ∧
        (s'.fl.eqs.get n.toNat).rollQ = [] ∧ s'.hs.vault.logs = s.hs.vault.logs ∧
        ((f.eqs.get n.toNat).run = none → (s'.fl.eqs.get n.toNat).stopped = true)) ∧
    (∀ a : BitVec 64, f.poll.en = false → f.anyRing = false →
      exec (.registerWrite (.bar64 0x040 a)) s = .next { s with fl := { f with dbAddr := a &&& 0xFFFFFFFFFFFFF000,
                                                                               lowStage := f.lowStage.filter (fun x => x.1 ≠ 0x040) } }) ∧
    (∀ v : BitVec 32, exec (.registerWrite (.bar 0x058 0xF v)) s = .next { s with fl := { f with evtVec := v.setWidth 4 } }) ∧
    (∀ v : BitVec 32, exec (.registerWrite (.bar 0x020 0x1 v)) s = .next (s.modWk (fun w => { w with stbyWake := v.setWidth 8 })))

/-- R316: clearing the enable bit of a CQ sets CFGERR and is ignored while an SQ bound to it is enabled or not yet
stopped; else it takes effect at once. -/
def Obligations.CqDisable : Prop :=
  ∀ (s : State) (n : BitVec 4), s.barOn = true → (s.fl.cqs.get n.toNat).en = true →
    let q := s.fl.cqs.get n.toNat
    let inUse := ∃ i, i < 16 ∧ (s.fl.sqs.get i).cq = n ∧ ((s.fl.sqs.get i).en = true ∨ (s.fl.sqs.get i).stopping = true)
    let becomes (s' : State) (x : CqRing) : Prop :=
      { s' with fl := { s'.fl with shadowDirty := s.fl.shadowDirty } } = { s with fl := { s.fl with cqs := s.fl.cqs.set n.toNat x } }
    ∃ s', exec (.cqDisable n) s = .next s' ∧ (inUse → becomes s' { q with cfgerr := 5 }) ∧ (¬inUse → becomes s' { q with en := false })

/-- R301 to R304, R324 to R328: a command begins when its descriptor is the oldest of its SQ, no ORDERED command waits
for an earlier one, and commands may begin. A reserved bit, a buffer or the life-cycle state that its row does not
allow ends it with BAD_FIELD, BAD_BUFFER, STATE_DENIED; an unassigned opcode with BAD_OPCODE. Its completion takes the
next entry of the CQ of its SQ, with its CID, status, SQ head and phase bit, and counts. -/
def Obligations.CommandChecks : Prop :=
  ∀ (s : State) (sq : BitVec 4) (d : Desc),
    (s.nextDesc sq.toNat = some d → s.mayBegin = true →
      (d.byte 0 ∉ [0x01, 0x02, 0x03, 0x04, 0x05, 0x10, 0x11, 0x20, 0x21, 0x22, 0x23, 0x30, 0x31, 0x40, 0x41, 0x42, 0x50, 0x60, 0x70, 0x80,
          0x81, 0x90] → Answers (.badOpcode sq) s sq d id 0x01 []) ∧
      (d.byte 0 = 0x01 → (2 ≤ d.byte 1 ∨ ∃ i, i < 16 ∧ d.p i ≠ 0) → Answers (.identify sq) s sq d id 0x02 []) ∧
      (d.byte 0 = 0x01 → d.reserved0 [] = true → d.bufOk = false → Answers (.identify sq) s sq d id 0x03 []) ∧
      (d.byte 0 = 0x40 → d.reserved0 [0, 1, 2, 3, 4, 5] = true → d.bufOk = true → s.fLife ∉ [1, 2, 3] →
        Answers (.logRead sq) s sq d id 0x04 [])) ∧
    ((s.fl.sqs.get sq.toNat).fetched.head? = some d → d.byte 1 % 2 = 1 → (s.fl.sqs.get sq.toNat).begun ≠ [] →
      exec (.identify sq) s = .next s) ∧
    (∀ (t : Nat) (r : Run) (st : Byte) (res : List Byte),
      let q := s.fl.sqs.get r.sq
      let c := s.fl.cqs.get q.cq.toNat
      let s' := s.finish t st res
      let phase := 1 - c.tail.toNat / 2 ^ c.size.toNat % 2
      let bytes := leBytes 2 r.cid.toNat ++ [BitVec.ofNat 8 (r.sq % 16), st] ++ leBytes 2 q.head.toNat ++ bytesAt res 0 8 ++ [0, BitVec.ofNat 8 phase]
      let entry := c.base + BitVec.ofNat 64 (c.tail.toNat % 2 ^ c.size.toNat * 16)
      s.run? t = some r → r.sq < 16 → (∀ x, x ∈ s'.fl.runs → x.tag ≠ t) ∧ (s'.fl.sqs.get r.sq).begun = q.begun.filter (· ≠ r.ord) ∧
        (c.en = true → c.err = false → s'.fl.stats.get 3 = s.fl.stats.get 3 + 1) ∧
        (c.en = true → c.err = false → s.fl.canTalk = true → s.fl.held = [] →
          s'.fl.out = s.fl.out ++ [.write entry bytes] ∧ (s'.fl.cqs.get q.cq.toNat).tail = c.tail + 1 ∧ s'.fl.shadowDirty = true))

/-- R332: PUBKEY_READ writes the 60 bytes of the HSS public key; before the key pair exists it completes with
NOT_FOUND. -/
def Obligations.PubkeyRead : Prop :=
  ∀ (s : State) (sq : BitVec 4) (d : Desc),
    Begins s sq d 0x03 [] [1, 2, 3, 4, 7] → s.fb.hearth.down = false → s.fb.hearth.training = false → 60 ≤ d.dlen →
    (s.hs.se.keyDone = true → s.hs.se.pub.length = 60 → s.hs.vault.recSpoilt 20 = false →
      Answers (.pubkeyRead sq) s sq d (fun r => r.modFl (fun f => f.emit (.write d.dptr s.hs.se.pub))) 0 []) ∧
    (s.hs.se.keyDone = false → Answers (.pubkeyRead sq) s sq d id 0x0B [])

/-- R326, R330 to R332, R344 to R346, R350 and Table 12.3: the commands that read answer with what they name: the
identify block, the counters of a group, the thread states, a log, a seal record with its index, the odometer, and
random bytes, of which a command takes what the FIFO holds and waits for the rest. R15: one whose data crosses the
hearth link waits while that link retrains. -/
def Obligations.ReadCommands : Prop :=
  ∀ (s : State) (sq : BitVec 4) (d : Desc),
    let t := s.fl.nextTag
    let out (l : List Byte) (r : State) : State := r.dmaOut d l
    let up : Prop := s.fb.hearth.down = false ∧ s.fb.hearth.training = false
    (Begins s sq d 0x01 [] [0, 1, 2, 3, 4, 7] → 64 ≤ d.dlen → Answers (.identify sq) s sq d (out s.identifyBlock) 0 []) ∧
    (Begins s sq d 0x02 [0, 1] [0, 1, 2, 3, 4, 7] → d.p 0 ≤ 6 → d.p 1 ≤ 1 → 8 * (s.statList (d.p 0)).length ≤ d.dlen →
      let es := s.statList (d.p 0)
      let bytes := (es.map (fun e => leBytes 2 e.1 ++ leBytes 6 e.2)).flatten
      Answers (.statsRead sq) s sq d (fun r => (if d.p 1 = 1 then r.statsClear (es.map (·.1)) else r).dmaOut d bytes) 0 (leBytes 4 (8 * es.length))) ∧
    (Begins s sq d 0x23 [0] [0, 1, 2, 3, 4, 7] → d.p 0 < 16 → d.dlen = 0 → s.coreTurn t (d.p 0) = true →
      Answers (.threadQuery sq) s sq d id 0 ((s.cores.get (d.p 0)).th.toList.map (fun u => BitVec.ofNat 8 u.st.num))) ∧
    (∀ l, Begins s sq d 0x40 [0, 1, 2, 3, 4, 5] [1, 2, 3] → up →
      s.hs.vault.logs.find? (fun x => x.seq = d.pn 0 6) = some l → l.durable = true → s.hs.vault.spoilt l.at_ = false → l.bytes.length ≤ d.dlen →
      Answers (.logRead sq) s sq d (out l.bytes) 0 (leBytes 3 l.bytes.length ++ [l.cls] ++ leBytes 2 l.flags.toNat)) ∧
    (Begins s sq d 0x40 [0, 1, 2, 3, 4, 5] [1, 2, 3] → s.fb.hearth.training = true →
      ∃ s', exec (.logRead sq) s = .next s' ∧ Running s s' sq (.onLink d []) [] ∧ s'.fl.out = s.fl.out) ∧
    (∀ v, s.cordNamed 0 v = .inl v) ∧
    (∀ k x, Begins s sq d 0x41 [0, 2, 3, 4, 5, 6, 7] [1, 2, 3] → d.p 0 ≤ 1 → up →
      s.cordNamed (d.p 0) (d.pn 2 6) = .inl k →
      s.hs.vault.seals.find? (fun y => y.cord = k) = some x → s.hs.vault.spoilt x.at_ = false → x.record.length ≤ d.dlen →
      Answers (.cordRead sq) s sq d (out x.record) 0 (leBytes 6 k ++ leBytes 2 x.count)) ∧
    (Begins s sq d 0x42 [0] [1, 2, 3, 4, 7] → d.p 0 ≤ 1 → d.dlen = 0 →
      let valid : Byte := if s.fb.mir.status.getLsbD 12 then 1 else 0
      (d.p 0 = 0 → Answers (.odoRead sq) s sq d id 0 (leBytes 6 s.fb.mir.odo.toNat ++ [valid])) ∧
      (d.p 0 = 1 → up → s.hs.vault.odoSpoilt = false → Answers (.odoRead sq) s sq d id 0 (leBytes 6 s.hs.vault.odoBest ++ [valid]))) ∧
    (Begins s sq d 0x60 [] [0, 1, 2, 3] → 1 ≤ d.dlen → d.dlen ≤ 4096 → s.hs.trng.latched = false → s.hs.trng.started = true → up →
      let held := 32 * s.hs.trng.fifo.length
      (d.dlen ≤ held →
        Answers (.random sq) s sq d (fun r => (r.trngTaken d.dlen).modFl (fun f => f.emitData d.dptr (s.trngBytes d.dlen))) 0 (leBytes 4 d.dlen)) ∧
      (held < d.dlen → ∃ s', exec (.random sq) s = .next s' ∧ Running s s' sq (.random d.dptr d.dlen held) [] ∧ s'.hs.trng.fifo = []))

/-- R26, R341, R342, R343, R347 to R349: the clock is set once no routine runs and VCORE is high enough; the phase
block and the cord time are recorded; a ring or a capture object takes its cells; EMBER_CONTROL enables, disables,
releases and reports; a setting is logged, and a release names the protected logs that it frees. A command with an input
buffer begins while the Flue may issue traffic (R286). -/
def Obligations.ConfigurationCommands : Prop :=
  ∀ (s : State) (sq : BitVec 4) (d : Desc),
    let t := s.fl.nextTag
    let here := s.fb.hearth.down = false ∧ s.hs.vault.fault = false
    (∀ vcore : BitVec 16, Begins s sq d 0x04 [0] [0, 1, 2, 3] → 30 ≤ d.p 0 → d.p 0 ≤ 120 → d.dlen = 0 → s.exclusiveRuns t = false →
      vmin (25 * d.p 0) ≤ vcore.toNat → s.fb.relock = none → (∀ c : CoreId, (s.core c).seq = none) →
      ∃ s', exec (.setFclk sq vcore) s = .next s' ∧ s'.fb.relock = some (d.p 0) ∧ s'.fb.fclk = s.fb.fclk ∧
        Running s s' sq (.setFclk s.fb.fclk (d.p 0)) []) ∧
    (∀ n, s.fb.relock = some n → ∃ s', exec .fclkRelockDone s = .next s' ∧ s'.fb.relock = none ∧ s'.fb.fclk = n ∧
      (∀ r p m, r ∈ s'.fl.runs → r.kind ≠ .setFclk p m)) ∧
    (Begins s sq d 0x05 [0, 4, 5] [1, 2, 3] → here → s.life ≠ 4 → s.life ≠ 7 →
      (∀ buf, d.p 0 = 2 → 10 ≤ d.pn 4 2 → d.pn 4 2 ≤ 10000 → d.dlen = 0 →
        ∃ s', exec (.configWrite sq buf) s = .next s' ∧ Queues s s' (.cordTime (d.pn 4 2)) ∧ Running s s' sq .plain []) ∧
      (∀ b, d.p 0 = 1 → d.pn 4 2 = 0 → d.dlen = 48 → s.fl.canTalk = true →
        let cells := unpackCells 16 (bytesAt b 0 48)
        phaseOk cells = true →
        (cells.getD 14 0 = s.pil.ph.cfg.get 14 →
          ∃ s', exec (.configWrite sq (some b)) s = .next s' ∧ Queues s s' (.phaseCfg cells) ∧ Running s s' sq .plain []) ∧
        (cells.getD 14 0 ≠ s.pil.ph.cfg.get 14 → s.fLife = 1 →
          ∃ s' h pay, exec (.configWrite sq (some b)) s = .next s' ∧ Queues s s' (.hw h pay false) ∧ h.cls = 0x83 ∧
            pay.take 6 = leBytes 6 (cells.getD 14 0).toNat ∧ Running s s' sq .plain [.phaseCfg cells]))) ∧
    (∀ b, Begins s sq d 0x30 [0, 1] [1, 2, 3] → d.dlen = 3 * cfgCells (d.p 0) (d.p 1) → s.fl.canTalk = true →
      let cells := unpackCells (cfgCells (d.p 0) (d.p 1)) (bytesAt b 0 d.dlen)
      (d.p 0 = 7 → d.p 1 < 16 → (s.fb.rings.get (d.p 1)).en = false → (∀ o, o < 24 → cells.getD o 0 &&& ~~~(ringMask o) = 0) →
        ∃ s', exec (.emberConfig sq (some b)) s = .next s' ∧
          (∀ o, o < 24 → o ≠ 0 → ((s'.fb.rings.get (d.p 1)).cfgCell o ^^^ cells.getD o 0) &&& ringMask o = 0) ∧
          (s'.fb.rings.get (d.p 1)).en = false ∧ s'.fl = ((s.begin_ sq.toNat d).finish t 0).fl) ∧
      (∀ o, objOf (d.p 0) (d.p 1) = some o → s.fb.plink.down = false → s.fb.plink.training = false → Memory.wf s.pil.cap.objs = true → (∀ k, k < o.size → cells.getD k 0 &&& ~~~(o.mask k) = 0) →
        s.pil.cap.objCheck o (fun k => cells.getD k 0) = 0 →
        ∃ s', exec (.emberConfig sq (some b)) s = .next s' ∧ (∀ k, k < o.size → s'.pil.cap.objCell o k = cells.getD k 0))) ∧
    (Begins s sq d 0x31 [0, 1] [1, 2, 3] → d.p 0 < 16 →
      let r := s.fb.rings.get (d.p 0)
      (d.p 1 = 1 → d.dlen = 0 → r.en = true ∨ s.ringCheck (d.p 0) = 0 →
        ∃ s', exec (.emberControl sq) s = .next s' ∧ (s'.fb.rings.get (d.p 0)).en = true ∧ s'.fl = ((s.begin_ sq.toNat d).finish t 0 [0]).fl) ∧
      (d.p 1 = 2 → d.dlen = 0 → s.fb.copies = [] → s.fl.runs = [] →
        ∃ s', exec (.emberControl sq) s = .next s' ∧ (s'.fb.rings.get (d.p 0)).en = false ∧ s'.fl.runs = []) ∧
      (d.p 1 = 3 → d.dlen = 0 → r.oldestFree ≠ none →
        Answers (.emberControl sq) s sq d (fun q => q.modRing (d.p 0) EmRing.release) 0 [0]) ∧
      (d.p 1 = 4 → 216 ≤ d.dlen → Answers (.emberControl sq) s sq d (fun q => q.dmaOut d r.statusBytes) 0 [0])) ∧
    (Begins s sq d 0x50 [0, 1, 2, 3, 4, 5, 6, 7] [1, 2, 3] → here → s.life ≠ 4 → s.life ≠ 7 →
      let logs (s' : State) (action param : Nat) (token : Option Nat) : Prop :=
        ∃ h pay, Queues s s' (.hw h pay false) ∧ h.cls = (if action = 1 then 0x82 else 0x83) ∧ pay.take 6 = leBytes 6 param ∧
          Running s s' sq (.service action) (match token with | some k => [.tokenId k] | none => [])
      (∀ buf, d.p 0 = 1 → d.p 1 = 1 ∨ (d.p 1 = 2 ∧ d.pn 2 6 ≤ 16777215) → s.fLife = 1 → d.dlen = 0 →
        ∃ s', exec (.service sq buf) s = .next s' ∧ logs s' (d.p 1) (d.pn 2 6) none) ∧
      (∀ x, d.p 0 = 0 → d.dlen = 0 ∨ s.fl.canTalk = true →
        let b := bytesAt x 0 d.dlen
        if s.tokenCheck b d.dlen = 0 then
          (fld b 5 1 = 1 ∨ (fld b 5 1 = 2 ∧ fld b 40 6 ≤ 16777215) →
            ∃ s', exec (.service sq (some x)) s = .next s' ∧ logs s' (fld b 5 1) (fld b 40 6) (some (fld b 16 8))) ∧
          (fld b 5 1 = 3 → s.marksToWrite = [] →
            let freed := (s.releasable (fld b 40 6)).map (fun l => BitVec.ofNat 48 l.seq)
            ∃ s' h pay, exec (.service sq (some x)) s = .next s' ∧ Queues s s' (.hw h pay false) ∧ h.cls = 0x86 ∧
              Running s s' sq (.service 3) [.release freed (fld b 16 8)])
        else Answers (.service sq (some x)) s sq d id (s.tokenCheck b d.dlen) []))

/-- R137, R144, R166, R189, R327, R338 to R340: in its turn on the core THREAD_START resumes a stopped thread where it stands
or starts it afresh at its entry point or at the address given, THREAD_STOP asks its threads to stop, and CORE_RESET stops
every thread of the core, sweeps it once what it started is done, and is complete when the reinstall of its bundles is. -/
def Obligations.ThreadCommands : Prop :=
  ∀ (s : State) (sq : BitVec 4) (d : Desc),
    let t := s.fl.nextTag
    let c : CoreId := BitVec.ofNat 4 (d.p 0)
    let th : ThId := BitVec.ofNat 3 (d.p 1)
    let u := s.th c th
    let turn := s.coreTurn t (d.p 0) = true
    let ends (s' : State) (res : List Byte) : Prop := s'.fl = ((s.begin_ sq.toNat d).finish t 0 res).fl
    (Begins s sq d 0x20 [0, 1, 2, 4, 5, 6] [1, 2, 3] → d.p 0 < 16 → d.p 1 < 8 → d.p 6 < 16 → d.dlen = 0 → turn →
      s.coreBusy t c = false → s.bistHolds c = false → (s.core c).lockup = none → s.img.runLoad = false → s.img.valid = true →
      s.coreFailed c = false → u.st = .stopped →
      (d.p 2 = 0 → u.fresh = false → ∃ s', exec (.threadStart sq) s = .next s' ∧ ends s' [] ∧ (s'.th c th).pc = u.pc ∧
        (s'.th c th).w = u.w ∧ (s'.th c th).status = u.status ∧ ((s'.th c th).st = .ready ∨ (s'.th c th).st = .blocked)) ∧
      (d.p 2 = 1 ∨ d.p 2 = 2 → (s.core c).idleThread th = true →
        ∀ e, s.img.entry c th = e → (d.p 2 = 1 → e ≠ none) →
        let at_ := if d.p 2 = 1 then fld (e.getD []) 2 3 else d.pn 4 3
        ∃ s', exec (.threadStart sq) s = .next s' ∧ ends s' [] ∧ (s'.th c th).pc = BitVec.ofNat 20 at_ ∧
          (s'.th c th).w = 0 ∧ (s'.th c th).rsd = 0 ∧ (s'.th c th).pk = 0 ∧ (∀ i, i < 8 → ((s'.th c th).arms.get i).en = false) ∧
          (s'.th c th).status &&& 0xFC0 = 0x840 ∧ ((s'.th c th).st = .ready ∨ (s'.th c th).st = .blocked) ∧
          (∀ b, e = some b → (s'.th c th).dsbase = BitVec.ofNat 24 (fld b 5 3) &&& 0xFFFFF8 ∧
            (s'.th c th).dslimit = BitVec.ofNat 24 (fld b 8 3) &&& 0xFFFFF8))) ∧
    (Begins s sq d 0x21 [0, 1] [0, 1, 2, 3, 4, 7] → d.p 0 < 16 → d.dlen = 0 → turn →
      ∃ s', exec (.threadStop sq) s = .next s' ∧
        (∀ v : ThId, (d.p 1).testBit v.toNat = true → (s.th c v).st ≠ .stopped → (s.th c v).st ≠ .frozen → (s'.th c v).stopReq = true) ∧
        (∀ v : ThId, (d.p 1).testBit v.toNat = false → s'.th c v = s.th c v) ∧
        ((s.core c).stopsDone (d.p 1) = true → s.fl.runs = [] → ends s' [(s.core c).stoppedMask &&& BitVec.ofNat 8 (d.p 1)])) ∧
    (Begins s sq d 0x22 [0] [0, 1, 2, 3, 4, 7] → d.p 0 < 16 → d.dlen = 0 → s.fl.runs = [] →
      (s.mayReset c = true → ((s.haltCore c).core c).quiescent = true →
        ∃ s', exec (.coreReset sq) s = .next s' ∧ s'.core c = { reinst := installState s.fLife, attached := (s.core c).attached } ∧
          (installState s.fLife = true → Running s s' sq (.coreReset (d.p 0) true) []) ∧
          (installState s.fLife = false → s'.fl.runs = [])) ∧
      ((s.core c).lockup = none → ((s.haltCore c).core c).quiescent = false →
        ∃ s', exec (.coreReset sq) s = .next s' ∧ Running s s' sq (.coreReset (d.p 0) false) [] ∧ ∀ v : ThId, (s'.th c v).st = .stopped)) ∧
    (∀ k : CoreId, (s.core k).reinst = true → s.fireOn = true → (∀ r j, r ∈ s.fl.runs → r.kind ≠ .coreReset j false) →
      ∃ s', exec (.bundleReinstallDone k) s = .next s' ∧ (s'.core k).reinst = false ∧
        (s.img.instPatch = [] → s.img.instOpen = [] → ((s'.core k).rfail = ((s.core k).rfail || !s.coreEnabled k))) ∧
        (∀ r, r ∈ s'.fl.runs → r.kind ≠ .coreReset k.toNat true))

/-- R335 to R337, R385: an image or a bundle whose header passes is copied and verified, and a load to RUN writes its
segments, once no lock line is held (R113); at the end of its verification an image to RUN is the running image, or the
record of its SVN is requested first; one for a slot is requested as its lines, a bundle is requested whole; a check or a
signature that fails ends the load, and a load to RUN then leaves no image. -/
def Obligations.LoadCommands : Prop :=
  ∀ (s : State) (sq : BitVec 4) (d : Desc) (x : List Byte),
    let t := s.fl.nextTag
    let b := bytesAt x 0 d.dlen
    let here := s.fb.hearth.down = false ∧ s.hs.vault.fault = false ∧ s.exclusiveRuns t = false ∧ s.fl.canTalk = true
    (Begins s sq d 0x10 [0] [1, 2, 3] → d.p 0 ≤ 2 → 64 ≤ d.dlen → d.dlen ≤ 196608 → here →
      let st := s.imageHead b d.dlen
      (d.p 0 = 0 → s.allStopped = true →
        (st = 0 → s.fb.holds = [] →
          ∃ s', exec (.imageLoad sq (some x)) s = .next s' ∧ Running s s' sq (.image 0 b) [] ∧
            s'.img.runLoad = true ∧ (∀ p, imageParts b = some p → s'.fb = (p.2.foldl State.putSeg s.invalAll).fb)) ∧
        (st = 0 → s.fb.holds ≠ [] →
          ∃ s', exec (.imageLoad sq (some x)) s = .next s' ∧ Running s s' sq (.imageWait b) [] ∧ s'.img.runLoad = true ∧ s'.fb = s.fb) ∧
        (st ≠ 0 → Answers (.imageLoad sq (some x)) s sq d State.wipeImage st [])) ∧
      (d.p 0 = 1 ∨ d.p 0 = 2 →
        if st = 0 then
          ∃ s', exec (.imageLoad sq (some x)) s = .next s' ∧ Running s s' sq (.image (d.p 0) b) [] ∧ s'.fb = s.fb ∧ s'.img = s.img
        else Answers (.imageLoad sq (some x)) s sq d id st [])) ∧
    (Begins s sq d 0x11 [] [1, 2, 3] → 64 ≤ d.dlen → d.dlen ≤ 16384 → here →
      if s.bundleHead b = 0 then
        ∃ s', exec (.bundleLoad sq (some x)) s = .next s' ∧ Running s s' sq (.bundle b) [] ∧ s'.fb = s.fb ∧ s'.cores = s.cores
      else Answers (.bundleLoad sq (some x)) s sq d id (s.bundleHead b) []) ∧
    (∀ r k img, s.fl.runs.find? Run.verifying = some r → r.kind = .image k img →
      if imageSigned img = true then
        (k = 0 → imageSvn img ≤ s.hs.vault.svnImg →
          exec .verificationEnd s = .next ((s.takeImage img 2).finish r.tag 0 (leBytes 4 (imageId img)))) ∧
        (k = 0 → s.hs.vault.svnImg < imageSvn img → s.life ≠ 4 → s.life ≠ 7 →
          ∃ s', exec .verificationEnd s = .next s' ∧ Queues s s' (.svnFloor 0 (imageSvn img)) ∧ s'.img = s.img) ∧
        (0 < k → s.life ≠ 4 → s.life ≠ 7 → ∃ s', exec .verificationEnd s = .next s' ∧ Queues s s' (.image (k = 2) img))
      else
        (0 < k → exec .verificationEnd s = .next ((s.finish r.tag 0x13).setEv 0x1181)) ∧
        (k = 0 → ∃ s', exec .verificationEnd s = .next s' ∧ s'.img.valid = false ∧ s'.fb.prog = [] ∧ s'.fb.shared = [])) ∧
    (∀ r bun, s.fl.runs.find? Run.verifying = some r → r.kind = .bundle bun → s.life ≠ 4 → s.life ≠ 7 →
      if (s.bundleCheck bun).1 = 0 then ∃ s', exec .verificationEnd s = .next s' ∧ Queues s s' (.bundle (bundleOpen bun) bun)
      else exec .verificationEnd s = .next (s.finish r.tag (s.bundleCheck bun).1))

/-- R371 to R373, R406: a nonce of 32 random bytes is given to the ring or to the TAP; an answer is judged once its
try is recorded, its verdict is logged, and no second answer is taken meanwhile. R15: a request of the TAP waits while a
link on its way retrains. -/
def Obligations.DebugChallenge : Prop :=
  ∀ (s : State) (sq : BitVec 4) (d : Desc),
    let t := s.fl.nextTag
    let c := s.hs.chal
    let nonce := s.trngBytes 32
    let ready := s.hs.otp.blank 4 16 8 = false ∧ s.hs.otp.huBlank = false ∧ s.hs.trng.latched = false ∧ s.hs.trng.started = true
    let tap (ir : TapIr) : Prop := s.tapOn = true ∧ s.pil.tap.ir = ir ∧ s.pil.tap.chalQ = [] ∧ s.vaultOn = true ∧ s.plinkUp = true ∧
      s.hearthUp = true
    (Begins s sq d 0x80 [] [1, 2, 3] → 32 ≤ d.dlen → s.hearthUp = true → c.judging = none → ready →
      ∃ s', exec (.challengeGet sq) s = .next s' ∧ s'.hs.chal.nonce = some nonce ∧ s'.hs.trng.fifo = s.hs.trng.fifo.drop 1 ∧
        (s.fl.canTalk = true → s.fl.held = [] → .write d.dptr nonce ∈ s'.fl.out)) ∧
    (tap .dbgChal → c.judging = none → ready →
      ∃ s', exec .dbgChal s = .next s' ∧ s'.hs.chal.nonce = some nonce ∧ s'.pil.tap.chalStatus = 0 ∧ s'.fl = s.fl) ∧
    (s.tapOn = true → s.pil.tap.ir = .dbgChal → s.vaultOn = true → s.fb.plink.down = false → s.fb.hearth.down = false →
      s.plinkUp = false ∨ s.hearthUp = false → exec .dbgChal s = .next (s.modTap (fun x => { x with chalQ := x.chalQ ++ [none] }))) ∧
    (∀ x n, Begins s sq d 0x81 [] [1, 2, 3] → 0 < d.dlen → s.fl.canTalk = true → s.hearthUp = true → s.hs.vault.fault = false →
      c.judging = none → c.nonce = some n → s.triesLeft ≠ 0 → s.life ≠ 4 → s.life ≠ 7 →
      ∃ s', exec (.challengeAnswer sq (some x)) s = .next s' ∧
        s'.hs.chal.judging = some { bytes := bytesAt x 0 d.dlen, nonce := n, tap := false, tag := some t } ∧
        Queues s s' (.tries (lifeEpoch s.hs.otp.thermo) (s.triesLeft - 1))) ∧
    (∀ bytes n, tap .dbgAns → c.judging = none → c.nonce = some n → s.triesLeft ≠ 0 → s.life ≠ 4 → s.life ≠ 7 →
      ∃ s', exec (.dbgAns (8 * bytes.length) bytes) s = .next s' ∧
        s'.hs.chal.judging = some { bytes := bytes, nonce := n, tap := true, tag := none } ∧
        Queues s s' (.tries (lifeEpoch s.hs.otp.thermo) (s.triesLeft - 1))) ∧
    (∀ bits bytes, tap .dbgAns → c.judging ≠ none →
      exec (.dbgAns bits bytes) s = .next { s with pil := { s.pil with tap := { s.pil.tap with chalStatus := 0x17 } } }) ∧
    (∀ j, c.judging = some j → j.tryDone = true → j.verdict = none → s.life ≠ 4 → s.life ≠ 7 →
      ∃ s' h pay, exec .challengeJudge s = .next s' ∧ Queues s s' (.hw h pay false) ∧ h.cls = 0x85 ∧
        s'.hs.chal.judging = some { j with verdict := some (s.judgeAnswer j.nonce j.bytes) })

/-- R351, R394 to R401: a self-test starts with the first of its items whose precondition holds; each item that ends
leaves a record, item 21 once it has the 2,000 conversions of each of its fits, and BIST_RUN completes after the last item
with SUCCESS, or BIST_FAIL and the mask of those that failed or did not run. -/
def Obligations.SelfTest : Prop :=
  ∀ (s : State) (sq : BitVec 4) (d : Desc) (vcore : BitVec 16) (temp : BitVec 8) (i : Nat),
    let t := s.fl.nextTag
    (Begins s sq d 0x70 [0, 1, 2, 3] [0, 1, 2, 3] → d.pn 0 4 = 2 ^ i → i < 22 → d.dlen = 0 ∨ 384 ≤ d.dlen → s.exclusiveRuns t = false →
      (∀ r m p n, r ∈ s.fl.runs → r.kind ≠ .bist m p n) → s.bist = {} →
      (s.bistCause i = 0 → ∃ s', exec (.bistRun sq vcore temp) s = .next s' ∧ s'.bist.items = [i] ∧ s'.bist.failed = 0 ∧
        Running s s' sq (.bist (2 ^ i) d.dptr d.dlen) []) ∧
      (s.bistCause i ≠ 0 → d.dlen = 0 → ∃ s', exec (.bistRun sq vcore temp) s = .next s' ∧ s'.bist = {} ∧ s'.cores = s.cores)) ∧
    (∀ (x : BistResult) r m, i < 22 → s.bist.items = [i] → (i = 21 → s.bist.fitA.n = 2000 ∧ s.bist.fitB.n = 2000) → s.fl.runs = [r] → r.kind = .bist m 0 0 →
      (∀ q, s.hs.se.run ≠ .reserved q) → (∀ w, w ∈ s.hs.chal.waitGet → w ≠ some r.tag) →
      ∃ s', exec (.bistItemDone x) s = .next s' ∧ s'.bist = {} ∧ s'.fl.runs = [])

/-- R353, R364 to R367: a transition that its prerequisites allow is logged, or where the Damper can admit nothing
goes on without a log; a block of an owner or vendor is checked first. Then its fuse bits are set one at a time, the
thermometer's first, each in copy 0, then 1, then 2; after the last the rights end, every transition but FIELD to SERVICE
wipes the Firebox, and the command completes. -/
def Obligations.LifeCycle : Prop :=
  ∀ (s : State) (sq : BitVec 4) (d : Desc),
    let t := s.fl.nextTag
    let src := s.life
    let dst := d.p 0
    let logged := s.pil.dmp.huValid && s.pil.dmp.hu.c ≠ 0
    let begun (s' : State) (todo : List CKind) : Prop :=
      (∃ l, s'.hs.life = some l ∧ l.src = src ∧ l.dst = dst ∧ l.tag = t ∧ l.ready = !logged ∧ l.shots = none) ∧
      Running s s' sq .lifecycle (if logged then todo else []) ∧
      (logged = true → ∃ h pay, Queues s s' (.hw h pay false) ∧ h.cls = 0x84 ∧ pay.take 2 = [BitVec.ofNat 8 src, BitVec.ofNat 8 dst])
    (Begins s sq d 0x90 [0] [0, 1, 2, 3] → dst ≤ 4 → s.exclusiveRuns t = false → s.fb.hearth.down = false →
      (src, dst) ∈ [(0, 1), (1, 2), (2, 3), (3, 2), (0, 4), (1, 4), (2, 4), (3, 4)] → s.lifePrereq src dst = true →
      (src, dst) = (2, 3) ∨ s.enabledStopped = true →
      ((src, dst) ∉ [(2, 3), (2, 4), (3, 4)] → d.dlen = 0 →
        ∀ buf, ∃ s', exec (.lifecycle sq buf) s = .next s' ∧ begun s' []) ∧
      (∀ x, (src, dst) ∈ [(2, 3), (2, 4), (3, 4)] → d.dlen = 0 ∨ s.fl.canTalk = true →
        let b := bytesAt x 0 d.dlen
        if s.blockCheck b d.dlen dst = 0 then ∃ s', exec (.lifecycle sq (some x)) s = .next s' ∧ begun s' [.tokenId (fld b 16 8)]
        else Answers (.lifecycle sq (some x)) s sq d id (s.blockCheck b d.dlen dst) [])) ∧
    (∀ l, s.Inv → s.hs.life = some l →
      let n := lifeN s.hs.otp.thermo
      let all : List (Nat × Nat) :=
        if l.dst = 4 then [(0, 31), (1, 31), (2, 31), (3, 0), (4, 0), (5, 0)]
        else if (l.src, l.dst) = (0, 1) then
          [(0, n), (1, n), (2, n), (6, 8), (7, 8), (8, 8), (6, 9), (7, 9), (8, 9), (6, 24), (7, 24), (8, 24), (6, 25), (7, 25), (8, 25)]
        else if (l.src, l.dst) = (1, 2) then [(0, n), (1, n), (2, n), (6, 1), (7, 1), (8, 1), (6, 2), (7, 2), (8, 2), (6, 3), (7, 3), (8, 3)]
        else [(0, n), (1, n), (2, n)]
      let may : Prop := l.ready = true ∧ s.hs.otp.busy = none ∧ s.lifeSealed l = true ∧ s.pw.hostWait = false ∧
        ((l.src, l.dst) = (2, 3) ∨ ∀ c : CoreId, s.mayReset c = true)
      ∀ w b rest, (l.shots = none ∧ may ∧ all = (w, b) :: rest) ∨ l.shots = some ((w, b) :: rest) →
        ∃ s', exec .lifecycleFuseBurn s = .next s' ∧
          (∀ a, memRead s'.hs.otp.norm a = if a = w then memRead s.hs.otp.norm a ||| BitVec.ofNat 39 (2 ^ b) else memRead s.hs.otp.norm a) ∧
          (rest ≠ [] → s'.hs.life = some { l with shots := some rest } ∧ s'.fl = s.fl ∧ s'.cores = s.cores) ∧
          (rest = [] → s'.hs.life = none ∧ s'.hs.chal.unlocked = false ∧ s'.pil.tap.rights = 0 ∧ (∀ r, r ∈ s'.fl.runs → r.tag ≠ l.tag) ∧
            ((l.src, l.dst) ≠ (2, 3) → s'.fb.prog = [] ∧ s'.fb.shared = [] ∧ s'.fb.ember = [] ∧ s'.img.valid = false)))

/-- R355 to R360, R466 and Table 13.3: FUSE_CMD runs one command at a time and is BUSY until it ends. A read gives the
corrected word, or LOCKED; a write, a lock, or the generation of the device root secret programs exactly its bits
where region, state and write lock allow it, with VFUSE in range, and else changes nothing. A secret is stored scrambled
and reads back as the key engine's; its generation waits for the TRNG's startup test (R375). -/
def Obligations.FuseCommands : Prop :=
  ∀ (s : State) (g : BitVec 4) (w : BitVec 5) (o : FuseShot),
    let z := s.hs.otp
    let a := 32 * g.toNat + w.toNat
    let gate := s.life ∈ fuseStates g.toNat ∧ z.locks.getLsbD g.toNat = false
    let kept (s' : State) : Prop := s'.hs.otp.norm = z.norm ∧ s'.hs.otp.strict = z.strict
    let ends (s' : State) (res cause data : Nat) : Prop := s'.hs.otp.busy = some (res, cause, data)
    s.Inv →
    (s.barOn = true → z.busy = none → s.hs.life = none →
      (∃ s', exec (.fuseRead g w) s = .next s' ∧ kept s' ∧
        (g = 8 ∨ z.locks.getLsbD (16 + g.toNat) = true → ends s' 3 0 z.data.toNat) ∧
        (∀ x, g ≠ 8 → z.locks.getLsbD (16 + g.toNat) = false → z.word g.toNat w.toNat = some x →
          ends s' (if memRead z.norm a = memRead z.strict a then 0 else 1) 0 x.toNat)) ∧
      (let new := otpEncode (if (g = 8 ∨ g = 9) ∧ w.toNat < 8 then scrambled a z.data else z.data)
       ∃ s', exec (.fuseWrite g w o) s = .next s' ∧
        (gate → g ≠ 8 → o.vfuse = true → (memRead z.norm a ||| memRead z.strict a) &&& ~~~new = 0 → o.unset = 0 → o.weak = 0 →
          ends s' 0 0 z.data.toNat ∧ memRead s'.hs.otp.norm a = memRead z.norm a ||| (new &&& ~~~(memRead z.strict a)) ∧
          (∀ b, b ≠ a → memRead s'.hs.otp.norm b = memRead z.norm b)) ∧
        (s.life ∉ fuseStates g.toNat → kept s') ∧ (z.locks.getLsbD g.toNat = true → kept s') ∧ (o.vfuse = false → kept s')) ∧
      (∀ rd, ∃ s', exec (.fuseLock g rd o) s = .next s' ∧
        (gate → o.vfuse = true → o.unset = 0 → o.weak = 0 →
          ends s' 0 0 z.data.toNat ∧ s'.hs.otp.locks.getLsbD (g.toNat + if rd then 16 else 0) = true) ∧ (o.vfuse = false → kept s')) ∧
      (∃ s', exec (.fuseGenerate 8 o) s = .next s' ∧
        (s.life = 0 → z.locks.getLsbD 8 = false → o.vfuse = true → s.trngOk = true → o.unset = 0 → o.weak = 0 →
          (∀ i, i < 8 → memRead z.norm (256 + i) = 0 ∧ memRead z.strict (256 + i) = 0) →
          ends s' 0 0 z.data.toNat ∧ ∀ i, i < 8 → memRead s'.hs.otp.norm (256 + i) =
            otpEncode (scrambled (256 + i) (BitVec.ofNat 32 (leAt (s.trngBytes 32) (4 * i) 4)))) ∧
        (s.life = 0 → z.locks.getLsbD 8 = false → o.vfuse = true → s.hs.trng.started = false → s.hs.trng.latched = false →
          s'.hs.otp.genWait = some o ∧ s'.hs.otp.busy ≠ none ∧ kept s'))) ∧
    (∀ x : BitVec 32, unscrambled a (scrambled a x) = x) ∧
    (z.busy ≠ none → exec (.fuseRead g w) s = .next s ∧ exec (.fuseWrite g w o) s = .next s) ∧
    (∀ res cause data, z.busy = some (res, cause, data) → z.genWait = none → res < 8 → cause < 8 →
      ∃ s', exec .fuseCommandEnd s = .next s' ∧ s'.hs.otp.busy = none ∧ s'.hs.otp.result.toNat = res ∧ s'.hs.otp.cause.toNat = cause ∧
        s'.hs.otp.valid = true ∧ kept s' ∧ s'.hs.otp.data = if res ≤ 1 then BitVec.ofNat 32 data else 0)

/-- R73, R75, R145, R177, R418, R420, R473, R474, R479, R482: a write of an arm, of the I-cache cell, of MSEQ_FAULT,
of a watchpoint, of the trace cells and of a capture object; the same cells are reached by a core's store of them. -/
def Obligations.CellWrites : Prop :=
  ∀ (s : State),
    (∀ (c : CoreId) (t : ThId) (i : BitVec 3) (v : Cell),
      let b := v.extractLsb' 0 16
      let l := v.extractLsb' 16 3
      let arm : Arm := { bit := b, level := l, en := v.getLsbD 19 && decide (0x80 ≤ b.toNat ∧ b.toNat < 0x1400 ∧ l ≠ 0) }
      exec (.armWrite c t i v) s = .next (s.modTh c t (fun u => { u with arms := u.arms.set i.toNat arm })) ∧
      exec (.registerWrite (.cell c (BitVec.ofNat 24 (0x0F0080 + 8 * t.toNat + i.toNat)) v)) s = exec (.armWrite c t i v) s) ∧
    (∀ (c : CoreId) (v : Cell), ∃ s', exec (.icacheInval c v) s = .next s' ∧ (s'.core c).icLock = v.setWidth 2 ∧
      (v.getLsbD 8 = true → (s'.core c).icache = []) ∧ (v.getLsbD 8 = false → (s'.core c).icache = (s.core c).icache)) ∧
    (∀ (c : CoreId) (v : Cell), ∃ s', exec (.mseqFaultClear c v) s = .next s' ∧
      (v.getLsbD 23 = true → (s'.core c).mseq.getLsbD 23 = false) ∧ (v.getLsbD 23 = false → s' = s)) ∧
    (∀ (c : CoreId) (i : BitVec 3) (v : Cell),
      let wp (s' : State) : Watchpt := (s'.core c).wp.get i.toNat
      (∃ s', exec (.watchpointWrite c i 0 v) s = .next s' ∧
        (v.getLsbD 5 = false → (wp s').ctl = v &&& 0x00FF3F) ∧
        (v.getLsbD 5 = true → (wp s').ctl.extractLsb' 4 2 = (wp s).ctl.extractLsb' 4 2)) ∧
      (∃ s', exec (.watchpointWrite c i 1 v) s = .next s' ∧ wp s' = { wp s with addr := v }) ∧
      (∃ s', exec (.watchpointWrite c i 2 v) s = .next s' ∧ wp s' = { wp s with amask := v }) ∧
      (∃ s', exec (.watchpointWrite c i 3 v) s = .next s' ∧ wp s' = { wp s with count := v })) ∧
    (∀ v : Cell, ∃ s', exec (.traceCtlWrite v) s = .next s' ∧
      (s'.fb.trace.ctl.getLsbD 0 = (v.getLsbD 0 && s.rights.getLsbD 2)) ∧
      (∀ i, 0 < i → i < 19 → s'.fb.trace.ctl.getLsbD i = v.getLsbD i)) ∧
    (∀ v : Cell, ∃ s', exec (.traceFullClear v) s = .next s' ∧
      (v.getLsbD 0 = true → s'.fb.trace.full = false ∧ (s.fb.trace.ctl.getLsbD 1 = true → s'.fb.trace.wptr = 0)) ∧
      (v.getLsbD 0 = false → s' = s)) ∧
    (∀ (p : BitVec 2) (v : Cell), v.extractLsb' 1 2 ≠ 3 → Memory.wf s.pil.cap.objs = true →
      ∃ s', exec (.captureObjectWrite (.trig p) v) s = .next s' ∧ s'.pil.cap.objCell (.trig p.toNat) 0 = v &&& 0x3FF) ∧
    (∀ (f : BitVec 3) (k : BitVec 3) (v : Cell), 1 ≤ k.toNat → k.toNat < 5 → Memory.wf s.pil.cap.stg = true →
      ∃ s', exec (.captureObjectWrite (.cf f k) v) s = .next s' ∧ s'.pil.cap.objs = s.pil.cap.objs ∧
        s'.pil.cap.staged (.cf f.toNat) k.toNat = v &&& (Obj.cf f.toNat).mask k.toNat) ∧
    (∀ v : Cell, Memory.wf s.pil.cap.objs = true → ∃ s', exec (.captureObjectWrite (.gpio 1) v) s = .next s' ∧ memRead s'.pil.cap.objs 0x0F31E1 = v &&& 0xFF)

/-- R402 to R405, R408 to R416: a TAP instruction that state and rights allow takes effect, another acts as BYPASS
with DENIED, which the next capture shows; the boundary register; a debug request without its right is DENIED, with it
acts: reads and writes of memory, halt, step, resume, attach, invalidation; while one is PENDING another is ignored. One
waits PENDING for a retraining link (R15) or for a line that another core has locked, and is OFF while the Firebox does not
run. -/
def Obligations.DebugPort : Prop :=
  ∀ (s : State),
    let tap := s.pil.tap
    let ends (q : State) (op : DbgOp) (r : DbgReq) (st : BitVec 4) (data : Option Cell) : State :=
      q.modTap (fun x => { x with dbgOp := op, dbgReq := r, dbgStat := st, dbgData := data })
    let idle : Prop := s.tapOn = true ∧ tap.ir = .dbgAccess ∧ tap.dbgStat ≠ 1
    let open_ (bit : Nat) : Prop := idle ∧ s.rights.getLsbD bit = true ∧ s.dbgLive = true ∧ s.fb.plink.training = false
    (∀ ir : BitVec 8, s.tapOn = true →
      (s.tapAllowed (tapCode ir) = true → exec (.tapInstruction ir) s = .next (s.modTap (fun x => { x with ir := tapCode ir, denied := false }))) ∧
      (s.tapAllowed (tapCode ir) = false → exec (.tapInstruction ir) s = .next (s.modTap (fun x => { x with ir := .bypass, denied := true })))) ∧
    (s.irCapture.getLsbD 0 = true ∧ s.irCapture.getLsbD 1 = false ∧ s.irCapture.getLsbD 2 = tap.denied) ∧
    (∀ bits, s.tapOn = true → tap.ir = .extest ∨ tap.ir = .sample →
      exec (.boundaryUpdate bits) s = .next (s.modTap (fun x => { x with bnd := bits }))) ∧
    (s.tapOn = true → tap.ir = .dbgAccess → tap.dbgStat = 1 → ∀ r, exec (.dbgNop r) s = .next s ∧ exec (.dbgHalt r) s = .next s) ∧
    (idle → ∀ r,
      exec (.dbgNop r) s = .next (ends s .nop r 0 none) ∧
      (s.rights.getLsbD 0 = false → exec (.dbgHalt r) s = .next (ends s .halt r 2 none)) ∧
      (s.rights.getLsbD 0 = true → s.dbgLive = false → exec (.dbgHalt r) s = .next (ends s .halt r 6 none)) ∧
      (s.rights.getLsbD 0 = true → s.dbgLive = true → s.fb.plink.training = true → exec (.dbgHalt r) s = .next (ends s .halt r 1 none))) ∧
    (open_ 1 → ∀ r : DbgReq,
      let a := r.addr.toNat
      let c := r.core
      (r.space = 1 → progMapped a = true →
        exec (.dbgRd r) s = .next (ends s .rd r 0 (some ((s.sylAt a).setWidth 24))) ∧
        exec (.dbgRdx r) s = .next (ends s .rdx r 0 (some ((s.sylAt a).setWidth 24)))) ∧
      (r.space = 0 → a < 0x4000 → (s.core c).sb = [] →
        exec (.dbgRd r) s = .next (ends s .rd r 0 (some (memRead (s.core c).lmem a)))) ∧
      (r.space = 0 → 0x100000 ≤ a → a < 0x200000 → (s.core c).sb = [] → s.lineHeldByOther c a = true →
        exec (.dbgRd r) s = .next (ends s .rd r 1 none)) ∧
      (r.space = 1 → a < 0xC0000 → exec (.dbgWr r) s =
        .next (ends (s.modFb (fun f => { f with prog := memWrite f.prog a (r.data.setWidth 12) })) .wr r 0 none)) ∧
      (r.space = 0 → a < 0x4000 → (s.core c).sb.length < 16 →
        ∃ s', exec (.dbgWr r) s = .next s' ∧ s'.pil.tap.dbgStat = 0 ∧ sbLook (s'.core c).sb a .cell = .hit (r.data.setWidth 48)) ∧
      (r.space = 3 → (s.th c r.thread).st ≠ .halted → (s.th c r.thread).st ≠ .stopped →
        exec (.dbgWr r) s = .next (ends s .wr r 3 none))) ∧
    (open_ 0 → ∀ r : DbgReq,
      let c := r.core
      let t := r.thread
      (∃ s', exec (.dbgHalt r) s = .next s' ∧ s'.pil.tap.dbgStat = 0 ∧
        ∀ v : ThId, (s'.th c v).haltReq = ((s.th c v).haltReq ||
          (r.data.getLsbD v.toNat && decide ((s.th c v).st = .ready ∨ (s.th c v).st = .waiting ∨ (s.th c v).st = .blocked)))) ∧
      (∃ s', exec (.dbgResume r) s = .next s' ∧ s'.pil.tap.dbgStat = 0 ∧
        ∀ v : ThId, r.data.getLsbD v.toNat = true → (s.th c v).st = .halted → (s'.th c v).pc = (s.th c v).pc ∧
          ((s.th c v).stopReq = true → (s'.th c v).st = .stopped) ∧
          ((s.th c v).stopReq = false → (s'.th c v).st = .ready ∨ (s'.th c v).st = .blocked)) ∧
      ((s.th c t).st = .halted → (s.th c t).stopReq = false →
        ∃ s', exec (.dbgStep r) s = .next s' ∧ s'.pil.tap.dbgStat = 0 ∧ (s'.th c t).step = some (r.data.getLsbD 0) ∧
          (s'.th c t).pc = (s.th c t).pc) ∧
      ((s.th c t).st ≠ .halted → exec (.dbgStep r) s = .next (ends s .step r 3 none)) ∧
      exec (.dbgAttach r) s = .next (ends (s.modCore c (fun k => { k with attached := r.data.getLsbD 0 })) .attach r 0 none) ∧
      (∃ s', exec (.dbgInval r) s = .next s' ∧ s'.pil.tap.dbgStat = 0 ∧ (s'.core c).icache = []))
end

