-- ==== Sys2Proof/Laws/Word.lean ====
section
/-! SUPPORT. The read-after-write laws of the tables. -/

namespace Sys2Proof

@[simp] theorem Tab.get_set_self {α : Type} [Inhabited α] {n : Nat} (v : Tab α n) (i : Nat) (x : α)
    (h : i < n) : (v.set i x).get i = x := by
  simp [Tab.get, Tab.set, h]

theorem Tab.get_set_ne {α : Type} [Inhabited α] {n : Nat} (v : Tab α n) (i j : Nat) (x : α)
    (h : i ≠ j) : (v.set i x).get j = v.get j := by
  unfold Tab.get Tab.set
  by_cases hi : i < n <;> by_cases hj : j < n <;> simp [hi, hj, h]

@[simp] theorem Tab.get_modify_self {α : Type} [Inhabited α] {n : Nat} (v : Tab α n) (i : Nat)
    (f : α → α) (h : i < n) : (v.modify i f).get i = f (v.get i) := by
  simp [Tab.modify, h]

theorem Tab.get_modify_ne {α : Type} [Inhabited α] {n : Nat} (v : Tab α n) (i j : Nat)
    (f : α → α) (h : i ≠ j) : (v.modify i f).get j = v.get j :=
  Tab.get_set_ne v i j _ h

/-- Two changes of one entry are one. -/
theorem Tab.modify_modify {α : Type} [Inhabited α] {n : Nat} (v : Tab α n) (i : Nat) (f g : α → α) (h : i < n) :
    (v.modify i f).modify i g = v.modify i (fun x => g (f x)) := by
  simp only [Tab.modify, Tab.get_set_self _ _ _ h]
  simp only [Tab.set, h, dite_true]
  apply Vector.ext
  intro j hj
  simp only [Vector.getElem_set]
  split <;> rfl

/-- Changing an entry by nothing. -/
theorem Tab.modify_id {α : Type} [Inhabited α] {n : Nat} (v : Tab α n) (i : Nat) : v.modify i id = v := by
  unfold Tab.modify Tab.set Tab.get
  split
  · apply Vector.ext
    intro j hj
    simp only [Vector.getElem_set, id]
    split
    · next e => subst e; rfl
    · rfl
  · rfl

@[simp] theorem Tab.get_fill {α : Type} [Inhabited α] {n : Nat} (i : Nat) (x : α) (h : i < n) :
    (Tab.fill n x).get i = x := by
  simp [Tab.get, Tab.fill, h]

end Sys2Proof
end

