-- ==== Sys2Proof/Laws/State.lean ====
section
/-! SUPPORT. Each field of the state after each named update of it. -/

namespace Sys2Proof.Machine

@[simp] theorem State.modCore_pending (s : State) (c : CoreId) (f : Core → Core) : (s.modCore c f).pending = s.pending := rfl
@[simp] theorem State.modCore_free (s : State) (c : CoreId) (f : Core → Core) : (s.modCore c f).free = s.free := rfl
@[simp] theorem State.modCore_pw (s : State) (c : CoreId) (f : Core → Core) : (s.modCore c f).pw = s.pw := rfl
@[simp] theorem State.modCore_cores (s : State) (c : CoreId) (f : Core → Core) : (s.modCore c f).cores = s.cores.modify c.toNat f := rfl
@[simp] theorem State.modCore_fb (s : State) (c : CoreId) (f : Core → Core) : (s.modCore c f).fb = s.fb := rfl
@[simp] theorem State.modCore_pil (s : State) (c : CoreId) (f : Core → Core) : (s.modCore c f).pil = s.pil := rfl
@[simp] theorem State.modCore_hs (s : State) (c : CoreId) (f : Core → Core) : (s.modCore c f).hs = s.hs := rfl
@[simp] theorem State.modCore_fl (s : State) (c : CoreId) (f : Core → Core) : (s.modCore c f).fl = s.fl := rfl
@[simp] theorem State.modCore_img (s : State) (c : CoreId) (f : Core → Core) : (s.modCore c f).img = s.img := rfl
@[simp] theorem State.modCore_bist (s : State) (c : CoreId) (f : Core → Core) : (s.modCore c f).bist = s.bist := rfl

@[simp] theorem State.modTh_pending (s : State) (c : CoreId) (t : ThId) (f : Thread → Thread) : (s.modTh c t f).pending = s.pending := rfl
@[simp] theorem State.modTh_free (s : State) (c : CoreId) (t : ThId) (f : Thread → Thread) : (s.modTh c t f).free = s.free := rfl
@[simp] theorem State.modTh_pw (s : State) (c : CoreId) (t : ThId) (f : Thread → Thread) : (s.modTh c t f).pw = s.pw := rfl
@[simp] theorem State.modTh_cores (s : State) (c : CoreId) (t : ThId) (f : Thread → Thread) : (s.modTh c t f).cores = s.cores.modify c.toNat (fun k => k.modTh t f) := rfl
@[simp] theorem State.modTh_fb (s : State) (c : CoreId) (t : ThId) (f : Thread → Thread) : (s.modTh c t f).fb = s.fb := rfl
@[simp] theorem State.modTh_pil (s : State) (c : CoreId) (t : ThId) (f : Thread → Thread) : (s.modTh c t f).pil = s.pil := rfl
@[simp] theorem State.modTh_hs (s : State) (c : CoreId) (t : ThId) (f : Thread → Thread) : (s.modTh c t f).hs = s.hs := rfl
@[simp] theorem State.modTh_fl (s : State) (c : CoreId) (t : ThId) (f : Thread → Thread) : (s.modTh c t f).fl = s.fl := rfl
@[simp] theorem State.modTh_img (s : State) (c : CoreId) (t : ThId) (f : Thread → Thread) : (s.modTh c t f).img = s.img := rfl
@[simp] theorem State.modTh_bist (s : State) (c : CoreId) (t : ThId) (f : Thread → Thread) : (s.modTh c t f).bist = s.bist := rfl

@[simp] theorem State.modFb_pending (s : State) (f : Fire → Fire) : (s.modFb f).pending = s.pending := rfl
@[simp] theorem State.modFb_free (s : State) (f : Fire → Fire) : (s.modFb f).free = s.free := rfl
@[simp] theorem State.modFb_pw (s : State) (f : Fire → Fire) : (s.modFb f).pw = s.pw := rfl
@[simp] theorem State.modFb_cores (s : State) (f : Fire → Fire) : (s.modFb f).cores = s.cores := rfl
@[simp] theorem State.modFb_fb (s : State) (f : Fire → Fire) : (s.modFb f).fb = f s.fb := rfl
@[simp] theorem State.modFb_pil (s : State) (f : Fire → Fire) : (s.modFb f).pil = s.pil := rfl
@[simp] theorem State.modFb_hs (s : State) (f : Fire → Fire) : (s.modFb f).hs = s.hs := rfl
@[simp] theorem State.modFb_fl (s : State) (f : Fire → Fire) : (s.modFb f).fl = s.fl := rfl
@[simp] theorem State.modFb_img (s : State) (f : Fire → Fire) : (s.modFb f).img = s.img := rfl
@[simp] theorem State.modFb_bist (s : State) (f : Fire → Fire) : (s.modFb f).bist = s.bist := rfl

@[simp] theorem State.modPh_pending (s : State) (f : Phase → Phase) : (s.modPh f).pending = s.pending := rfl
@[simp] theorem State.modPh_free (s : State) (f : Phase → Phase) : (s.modPh f).free = s.free := rfl
@[simp] theorem State.modPh_pw (s : State) (f : Phase → Phase) : (s.modPh f).pw = s.pw := rfl
@[simp] theorem State.modPh_cores (s : State) (f : Phase → Phase) : (s.modPh f).cores = s.cores := rfl
@[simp] theorem State.modPh_fb (s : State) (f : Phase → Phase) : (s.modPh f).fb = s.fb := rfl
@[simp] theorem State.modPh_pil (s : State) (f : Phase → Phase) : (s.modPh f).pil = { s.pil with ph := f s.pil.ph } := rfl
@[simp] theorem State.modPh_hs (s : State) (f : Phase → Phase) : (s.modPh f).hs = s.hs := rfl
@[simp] theorem State.modPh_fl (s : State) (f : Phase → Phase) : (s.modPh f).fl = s.fl := rfl
@[simp] theorem State.modPh_img (s : State) (f : Phase → Phase) : (s.modPh f).img = s.img := rfl
@[simp] theorem State.modPh_bist (s : State) (f : Phase → Phase) : (s.modPh f).bist = s.bist := rfl

@[simp] theorem State.modWk_pending (s : State) (f : Wake → Wake) : (s.modWk f).pending = s.pending := rfl
@[simp] theorem State.modWk_free (s : State) (f : Wake → Wake) : (s.modWk f).free = s.free := rfl
@[simp] theorem State.modWk_pw (s : State) (f : Wake → Wake) : (s.modWk f).pw = s.pw := rfl
@[simp] theorem State.modWk_cores (s : State) (f : Wake → Wake) : (s.modWk f).cores = s.cores := rfl
@[simp] theorem State.modWk_fb (s : State) (f : Wake → Wake) : (s.modWk f).fb = s.fb := rfl
@[simp] theorem State.modWk_pil (s : State) (f : Wake → Wake) : (s.modWk f).pil = { s.pil with wk := f s.pil.wk } := rfl
@[simp] theorem State.modWk_hs (s : State) (f : Wake → Wake) : (s.modWk f).hs = s.hs := rfl
@[simp] theorem State.modWk_fl (s : State) (f : Wake → Wake) : (s.modWk f).fl = s.fl := rfl
@[simp] theorem State.modWk_img (s : State) (f : Wake → Wake) : (s.modWk f).img = s.img := rfl
@[simp] theorem State.modWk_bist (s : State) (f : Wake → Wake) : (s.modWk f).bist = s.bist := rfl

@[simp] theorem State.modCap_pending (s : State) (f : Capture → Capture) : (s.modCap f).pending = s.pending := rfl
@[simp] theorem State.modCap_free (s : State) (f : Capture → Capture) : (s.modCap f).free = s.free := rfl
@[simp] theorem State.modCap_pw (s : State) (f : Capture → Capture) : (s.modCap f).pw = s.pw := rfl
@[simp] theorem State.modCap_cores (s : State) (f : Capture → Capture) : (s.modCap f).cores = s.cores := rfl
@[simp] theorem State.modCap_fb (s : State) (f : Capture → Capture) : (s.modCap f).fb = s.fb := rfl
@[simp] theorem State.modCap_pil (s : State) (f : Capture → Capture) : (s.modCap f).pil = { s.pil with cap := f s.pil.cap } := rfl
@[simp] theorem State.modCap_hs (s : State) (f : Capture → Capture) : (s.modCap f).hs = s.hs := rfl
@[simp] theorem State.modCap_fl (s : State) (f : Capture → Capture) : (s.modCap f).fl = s.fl := rfl
@[simp] theorem State.modCap_img (s : State) (f : Capture → Capture) : (s.modCap f).img = s.img := rfl
@[simp] theorem State.modCap_bist (s : State) (f : Capture → Capture) : (s.modCap f).bist = s.bist := rfl

@[simp] theorem State.modDmp_pending (s : State) (f : Damper → Damper) : (s.modDmp f).pending = s.pending := rfl
@[simp] theorem State.modDmp_free (s : State) (f : Damper → Damper) : (s.modDmp f).free = s.free := rfl
@[simp] theorem State.modDmp_pw (s : State) (f : Damper → Damper) : (s.modDmp f).pw = s.pw := rfl
@[simp] theorem State.modDmp_cores (s : State) (f : Damper → Damper) : (s.modDmp f).cores = s.cores := rfl
@[simp] theorem State.modDmp_fb (s : State) (f : Damper → Damper) : (s.modDmp f).fb = s.fb := rfl
@[simp] theorem State.modDmp_pil (s : State) (f : Damper → Damper) : (s.modDmp f).pil = { s.pil with dmp := f s.pil.dmp } := rfl
@[simp] theorem State.modDmp_hs (s : State) (f : Damper → Damper) : (s.modDmp f).hs = s.hs := rfl
@[simp] theorem State.modDmp_fl (s : State) (f : Damper → Damper) : (s.modDmp f).fl = s.fl := rfl
@[simp] theorem State.modDmp_img (s : State) (f : Damper → Damper) : (s.modDmp f).img = s.img := rfl
@[simp] theorem State.modDmp_bist (s : State) (f : Damper → Damper) : (s.modDmp f).bist = s.bist := rfl

@[simp] theorem State.modHs_pending (s : State) (f : Hearth → Hearth) : (s.modHs f).pending = s.pending := rfl
@[simp] theorem State.modHs_free (s : State) (f : Hearth → Hearth) : (s.modHs f).free = s.free := rfl
@[simp] theorem State.modHs_pw (s : State) (f : Hearth → Hearth) : (s.modHs f).pw = s.pw := rfl
@[simp] theorem State.modHs_cores (s : State) (f : Hearth → Hearth) : (s.modHs f).cores = s.cores := rfl
@[simp] theorem State.modHs_fb (s : State) (f : Hearth → Hearth) : (s.modHs f).fb = s.fb := rfl
@[simp] theorem State.modHs_pil (s : State) (f : Hearth → Hearth) : (s.modHs f).pil = s.pil := rfl
@[simp] theorem State.modHs_hs (s : State) (f : Hearth → Hearth) : (s.modHs f).hs = f s.hs := rfl
@[simp] theorem State.modHs_fl (s : State) (f : Hearth → Hearth) : (s.modHs f).fl = s.fl := rfl
@[simp] theorem State.modHs_img (s : State) (f : Hearth → Hearth) : (s.modHs f).img = s.img := rfl
@[simp] theorem State.modHs_bist (s : State) (f : Hearth → Hearth) : (s.modHs f).bist = s.bist := rfl

@[simp] theorem State.modVault_pending (s : State) (f : Vault → Vault) : (s.modVault f).pending = s.pending := rfl
@[simp] theorem State.modVault_free (s : State) (f : Vault → Vault) : (s.modVault f).free = s.free := rfl
@[simp] theorem State.modVault_pw (s : State) (f : Vault → Vault) : (s.modVault f).pw = s.pw := rfl
@[simp] theorem State.modVault_cores (s : State) (f : Vault → Vault) : (s.modVault f).cores = s.cores := rfl
@[simp] theorem State.modVault_fb (s : State) (f : Vault → Vault) : (s.modVault f).fb = s.fb := rfl
@[simp] theorem State.modVault_pil (s : State) (f : Vault → Vault) : (s.modVault f).pil = s.pil := rfl
@[simp] theorem State.modVault_hs (s : State) (f : Vault → Vault) : (s.modVault f).hs = { s.hs with vault := f s.hs.vault } := rfl
@[simp] theorem State.modVault_fl (s : State) (f : Vault → Vault) : (s.modVault f).fl = s.fl := rfl
@[simp] theorem State.modVault_img (s : State) (f : Vault → Vault) : (s.modVault f).img = s.img := rfl
@[simp] theorem State.modVault_bist (s : State) (f : Vault → Vault) : (s.modVault f).bist = s.bist := rfl

@[simp] theorem State.modSeal_pending (s : State) (f : SealSt → SealSt) : (s.modSeal f).pending = s.pending := rfl
@[simp] theorem State.modSeal_free (s : State) (f : SealSt → SealSt) : (s.modSeal f).free = s.free := rfl
@[simp] theorem State.modSeal_pw (s : State) (f : SealSt → SealSt) : (s.modSeal f).pw = s.pw := rfl
@[simp] theorem State.modSeal_cores (s : State) (f : SealSt → SealSt) : (s.modSeal f).cores = s.cores := rfl
@[simp] theorem State.modSeal_fb (s : State) (f : SealSt → SealSt) : (s.modSeal f).fb = s.fb := rfl
@[simp] theorem State.modSeal_pil (s : State) (f : SealSt → SealSt) : (s.modSeal f).pil = s.pil := rfl
@[simp] theorem State.modSeal_hs (s : State) (f : SealSt → SealSt) : (s.modSeal f).hs = { s.hs with se := f s.hs.se } := rfl
@[simp] theorem State.modSeal_fl (s : State) (f : SealSt → SealSt) : (s.modSeal f).fl = s.fl := rfl
@[simp] theorem State.modSeal_img (s : State) (f : SealSt → SealSt) : (s.modSeal f).img = s.img := rfl
@[simp] theorem State.modSeal_bist (s : State) (f : SealSt → SealSt) : (s.modSeal f).bist = s.bist := rfl

@[simp] theorem State.modSlot_pending (s : State) (i : Nat) (f : LogSlot → LogSlot) : (s.modSlot i f).pending = s.pending := rfl
@[simp] theorem State.modSlot_free (s : State) (i : Nat) (f : LogSlot → LogSlot) : (s.modSlot i f).free = s.free := rfl
@[simp] theorem State.modSlot_pw (s : State) (i : Nat) (f : LogSlot → LogSlot) : (s.modSlot i f).pw = s.pw := rfl
@[simp] theorem State.modSlot_cores (s : State) (i : Nat) (f : LogSlot → LogSlot) : (s.modSlot i f).cores = s.cores := rfl
@[simp] theorem State.modSlot_fb (s : State) (i : Nat) (f : LogSlot → LogSlot) : (s.modSlot i f).fb = s.fb := rfl
@[simp] theorem State.modSlot_pil (s : State) (i : Nat) (f : LogSlot → LogSlot) : (s.modSlot i f).pil = s.pil := rfl
@[simp] theorem State.modSlot_hs (s : State) (i : Nat) (f : LogSlot → LogSlot) : (s.modSlot i f).hs = { s.hs with slots := s.hs.slots.modify i f } := rfl
@[simp] theorem State.modSlot_fl (s : State) (i : Nat) (f : LogSlot → LogSlot) : (s.modSlot i f).fl = s.fl := rfl
@[simp] theorem State.modSlot_img (s : State) (i : Nat) (f : LogSlot → LogSlot) : (s.modSlot i f).img = s.img := rfl
@[simp] theorem State.modSlot_bist (s : State) (i : Nat) (f : LogSlot → LogSlot) : (s.modSlot i f).bist = s.bist := rfl

@[simp] theorem State.modFl_pending (s : State) (f : Flue → Flue) : (s.modFl f).pending = s.pending := rfl
@[simp] theorem State.modFl_free (s : State) (f : Flue → Flue) : (s.modFl f).free = s.free := rfl
@[simp] theorem State.modFl_pw (s : State) (f : Flue → Flue) : (s.modFl f).pw = s.pw := rfl
@[simp] theorem State.modFl_cores (s : State) (f : Flue → Flue) : (s.modFl f).cores = s.cores := rfl
@[simp] theorem State.modFl_fb (s : State) (f : Flue → Flue) : (s.modFl f).fb = s.fb := rfl
@[simp] theorem State.modFl_pil (s : State) (f : Flue → Flue) : (s.modFl f).pil = s.pil := rfl
@[simp] theorem State.modFl_hs (s : State) (f : Flue → Flue) : (s.modFl f).hs = s.hs := rfl
@[simp] theorem State.modFl_fl (s : State) (f : Flue → Flue) : (s.modFl f).fl = f s.fl := rfl
@[simp] theorem State.modFl_img (s : State) (f : Flue → Flue) : (s.modFl f).img = s.img := rfl
@[simp] theorem State.modFl_bist (s : State) (f : Flue → Flue) : (s.modFl f).bist = s.bist := rfl

@[simp] theorem State.modRing_pending (s : State) (r : Nat) (f : EmRing → EmRing) : (s.modRing r f).pending = s.pending := rfl
@[simp] theorem State.modRing_free (s : State) (r : Nat) (f : EmRing → EmRing) : (s.modRing r f).free = s.free := rfl
@[simp] theorem State.modRing_pw (s : State) (r : Nat) (f : EmRing → EmRing) : (s.modRing r f).pw = s.pw := rfl
@[simp] theorem State.modRing_cores (s : State) (r : Nat) (f : EmRing → EmRing) : (s.modRing r f).cores = s.cores := rfl
@[simp] theorem State.modRing_fb (s : State) (r : Nat) (f : EmRing → EmRing) : (s.modRing r f).fb = { s.fb with rings := s.fb.rings.modify r f } := rfl
@[simp] theorem State.modRing_pil (s : State) (r : Nat) (f : EmRing → EmRing) : (s.modRing r f).pil = s.pil := rfl
@[simp] theorem State.modRing_hs (s : State) (r : Nat) (f : EmRing → EmRing) : (s.modRing r f).hs = s.hs := rfl
@[simp] theorem State.modRing_fl (s : State) (r : Nat) (f : EmRing → EmRing) : (s.modRing r f).fl = s.fl := rfl
@[simp] theorem State.modRing_img (s : State) (r : Nat) (f : EmRing → EmRing) : (s.modRing r f).img = s.img := rfl
@[simp] theorem State.modRing_bist (s : State) (r : Nat) (f : EmRing → EmRing) : (s.modRing r f).bist = s.bist := rfl

@[simp] theorem State.modPw_pending (s : State) (f : Power → Power) : (s.modPw f).pending = s.pending := rfl
@[simp] theorem State.modPw_free (s : State) (f : Power → Power) : (s.modPw f).free = s.free := rfl
@[simp] theorem State.modPw_pw (s : State) (f : Power → Power) : (s.modPw f).pw = f s.pw := rfl
@[simp] theorem State.modPw_cores (s : State) (f : Power → Power) : (s.modPw f).cores = s.cores := rfl
@[simp] theorem State.modPw_fb (s : State) (f : Power → Power) : (s.modPw f).fb = s.fb := rfl
@[simp] theorem State.modPw_pil (s : State) (f : Power → Power) : (s.modPw f).pil = s.pil := rfl
@[simp] theorem State.modPw_hs (s : State) (f : Power → Power) : (s.modPw f).hs = s.hs := rfl
@[simp] theorem State.modPw_fl (s : State) (f : Power → Power) : (s.modPw f).fl = s.fl := rfl
@[simp] theorem State.modPw_img (s : State) (f : Power → Power) : (s.modPw f).img = s.img := rfl
@[simp] theorem State.modPw_bist (s : State) (f : Power → Power) : (s.modPw f).bist = s.bist := rfl

@[simp] theorem State.modTap_pending (s : State) (f : Tap → Tap) : (s.modTap f).pending = s.pending := rfl
@[simp] theorem State.modTap_free (s : State) (f : Tap → Tap) : (s.modTap f).free = s.free := rfl
@[simp] theorem State.modTap_pw (s : State) (f : Tap → Tap) : (s.modTap f).pw = s.pw := rfl
@[simp] theorem State.modTap_cores (s : State) (f : Tap → Tap) : (s.modTap f).cores = s.cores := rfl
@[simp] theorem State.modTap_fb (s : State) (f : Tap → Tap) : (s.modTap f).fb = s.fb := rfl
@[simp] theorem State.modTap_pil (s : State) (f : Tap → Tap) : (s.modTap f).pil = { s.pil with tap := f s.pil.tap } := rfl
@[simp] theorem State.modTap_hs (s : State) (f : Tap → Tap) : (s.modTap f).hs = s.hs := rfl
@[simp] theorem State.modTap_fl (s : State) (f : Tap → Tap) : (s.modTap f).fl = s.fl := rfl
@[simp] theorem State.modTap_img (s : State) (f : Tap → Tap) : (s.modTap f).img = s.img := rfl
@[simp] theorem State.modTap_bist (s : State) (f : Tap → Tap) : (s.modTap f).bist = s.bist := rfl

@[simp] theorem State.draw_pending (s : State) : (s.draw).pending = s.pending := rfl
@[simp] theorem State.draw_free (s : State) : (s.draw).free = s.free + 1 := rfl
@[simp] theorem State.draw_pw (s : State) : (s.draw).pw = s.pw := rfl
@[simp] theorem State.draw_cores (s : State) : (s.draw).cores = s.cores := rfl
@[simp] theorem State.draw_fb (s : State) : (s.draw).fb = s.fb := rfl
@[simp] theorem State.draw_pil (s : State) : (s.draw).pil = s.pil := rfl
@[simp] theorem State.draw_hs (s : State) : (s.draw).hs = s.hs := rfl
@[simp] theorem State.draw_fl (s : State) : (s.draw).fl = s.fl := rfl
@[simp] theorem State.draw_img (s : State) : (s.draw).img = s.img := rfl
@[simp] theorem State.draw_bist (s : State) : (s.draw).bist = s.bist := rfl

@[simp] theorem State.putEv_pending (s : State) (a : Nat) (b : Bool) : (s.putEv a b).pending = s.pending := rfl
@[simp] theorem State.putEv_free (s : State) (a : Nat) (b : Bool) : (s.putEv a b).free = s.free := rfl
@[simp] theorem State.putEv_pw (s : State) (a : Nat) (b : Bool) : (s.putEv a b).pw = s.pw := rfl
@[simp] theorem State.putEv_cores (s : State) (a : Nat) (b : Bool) : (s.putEv a b).cores = s.cores := rfl
@[simp] theorem State.putEv_fb (s : State) (a : Nat) (b : Bool) : (s.putEv a b).fb = { s.fb with ev := setBit s.fb.ev (a - 0x1000) (b && evAssigned a) } := rfl
@[simp] theorem State.putEv_pil (s : State) (a : Nat) (b : Bool) : (s.putEv a b).pil = s.pil := rfl
@[simp] theorem State.putEv_hs (s : State) (a : Nat) (b : Bool) : (s.putEv a b).hs = s.hs := rfl
@[simp] theorem State.putEv_fl (s : State) (a : Nat) (b : Bool) : (s.putEv a b).fl = s.fl := rfl
@[simp] theorem State.putEv_img (s : State) (a : Nat) (b : Bool) : (s.putEv a b).img = s.img := rfl
@[simp] theorem State.putEv_bist (s : State) (a : Nat) (b : Bool) : (s.putEv a b).bist = s.bist := rfl

@[simp] theorem State.setEv_pending (s : State) (a : Nat) : (s.setEv a).pending = s.pending := rfl
@[simp] theorem State.setEv_free (s : State) (a : Nat) : (s.setEv a).free = s.free := rfl
@[simp] theorem State.setEv_pw (s : State) (a : Nat) : (s.setEv a).pw = s.pw := rfl
@[simp] theorem State.setEv_cores (s : State) (a : Nat) : (s.setEv a).cores = s.cores := rfl
@[simp] theorem State.setEv_fb (s : State) (a : Nat) : (s.setEv a).fb = { s.fb with ev := setBit s.fb.ev (a - 0x1000) (true && evAssigned a) } := rfl
@[simp] theorem State.setEv_pil (s : State) (a : Nat) : (s.setEv a).pil = s.pil := rfl
@[simp] theorem State.setEv_hs (s : State) (a : Nat) : (s.setEv a).hs = s.hs := rfl
@[simp] theorem State.setEv_fl (s : State) (a : Nat) : (s.setEv a).fl = s.fl := rfl
@[simp] theorem State.setEv_img (s : State) (a : Nat) : (s.setEv a).img = s.img := rfl
@[simp] theorem State.setEv_bist (s : State) (a : Nat) : (s.setEv a).bist = s.bist := rfl

/-- A core's own update reads back. -/
@[simp] theorem State.core_modCore_self (s : State) (c : CoreId) (f : Core → Core) :
    (s.modCore c f).core c = f (s.core c) :=
  Tab.get_modify_self _ _ _ c.isLt

/-- Every other core is left alone. -/
theorem State.core_modCore_ne (s : State) (c d : CoreId) (f : Core → Core) (h : c ≠ d) :
    (s.modCore c f).core d = s.core d :=
  Tab.get_modify_ne _ _ _ _ (fun e => h (BitVec.eq_of_toNat_eq e))

/-- A thread's own update reads back. -/
@[simp] theorem Core.th_modTh_self (k : Core) (t : ThId) (f : Thread → Thread) :
    (k.modTh t f).th.get t.toNat = f (k.th.get t.toNat) :=
  Tab.get_modify_self _ _ _ t.isLt

/-- Every other thread of a core is left alone. -/
theorem Core.th_modTh_ne (k : Core) (t u : ThId) (f : Thread → Thread) (h : t ≠ u) :
    (k.modTh t f).th.get u.toNat = k.th.get u.toNat :=
  Tab.get_modify_ne _ _ _ _ (fun e => h (BitVec.eq_of_toNat_eq e))

/-- A thread's own update reads back. -/
@[simp] theorem State.th_modTh_self (s : State) (c : CoreId) (t : ThId) (f : Thread → Thread) :
    (s.modTh c t f).th c t = f (s.th c t) := by
  simp [State.th, State.modTh]

/-- The core of an updated thread. -/
@[simp] theorem State.core_modTh_self (s : State) (c : CoreId) (t : ThId) (f : Thread → Thread) :
    (s.modTh c t f).core c = (s.core c).modTh t f := by
  simp [State.modTh]

/-- Every other thread is left alone. -/
theorem State.th_modTh_ne (s : State) (c : CoreId) (t u : ThId) (f : Thread → Thread) (h : t ≠ u) :
    (s.modTh c t f).th c u = s.th c u := by
  simp [State.th, Core.th_modTh_ne _ _ _ _ h]

/-- Two updates of one core are one. -/
theorem State.modCore_modCore (s : State) (c : CoreId) (f g : Core → Core) :
    (s.modCore c f).modCore c g = s.modCore c (fun k => g (f k)) := by
  simp only [State.modCore, State.mk.injEq, true_and, and_true]
  exact Tab.modify_modify _ _ _ _ c.isLt

/-- An update of a core by a function that changes the core as it stands is that of any function that agrees there. -/
theorem State.modCore_congr (s : State) (c : CoreId) (f g : Core → Core) (h : f (s.core c) = g (s.core c)) :
    s.modCore c f = s.modCore c g := by
  unfold State.modCore Tab.modify
  simp only [State.core] at h
  rw [h]

/-- An update that changes nothing. -/
theorem State.modCore_id (s : State) (c : CoreId) (f : Core → Core) (h : f (s.core c) = s.core c) :
    s.modCore c f = s := by
  rw [State.modCore_congr s c f id h]
  simp [State.modCore, Tab.modify_id]

end Sys2Proof.Machine
end

