-- ==== Sys2Proof/Laws/Issue.lean ====
section
/-! SUPPORT. What the issue of a syllable does, once for every syllable. -/

namespace Sys2Proof.Machine

/-- The thread without the marks of its fetch, of its window transfer, and of the debugger's one-time marks. -/
def Thread.settled (u : Thread) : Thread :=
  { u with st := .ready, want := none, buf := none, xfer := none, skipWp := none, haltReq := false, step := none }
/-- The core without the bookkeeping of thread `t`. -/
def Core.settled (k : Core) (t : ThId) : Core :=
  { (k.modTh t Thread.settled) with icache := [], fills := [], slotq := [], bq := [], lastTh := 7 }
/-- The state without the bookkeeping of thread `t` of core `c`. -/
def State.settled (s : State) (c : CoreId) (t : ThId) : State := s.modCore c (fun k => k.settled t)

/-- No watchpoint matches where none is enabled. -/
theorem Core.wpHits_quiet (k : Core) (t : ThId) (xs : List WAddr)
    (h : ∀ i, i < 8 → (k.wp.get i).ctl.getLsbD 0 = false) : k.wpHits t xs = [] := by
  simp only [Core.wpHits, List.filter_eq_nil_iff, List.mem_range]
  intro i hi
  have a : ∀ x, (k.wp.get i).hits t x = false := fun x => by simp only [Watchpt.hits, h i hi, Bool.false_and]
  simp [a]

/-- A syllable that is due and that no check stops is performed. -/
theorem issue_performs (s : State) (c : CoreId) (t : ThId) (y : Sylb) (h : Due s c t y.word)
    (hp : isOp y.word = true → (s.th c t).pk = 0) (hl : y.noLock = true → (s.th c t).lockN = none)
    (hi : y.illegal = false) (hw : (s.th c t).winCheck y.need y.net = .ok) (hv : y.waits = false)
    (hm : y.slot = true → (s.core c).maySlot (.thread t) = true)
    (hr : (s.th c t).rsBad y.rpops y.rpushes = false) (hf : y.fault = none) :
    issue c t y s = s.perform c t y := by
  have h1 : ((s.th c t).lockN.any (fun n => decide (15 ≤ n)) && y.word != opW 0x4D) = false := by
    by_cases e : y.word = opW 0x4D
    · simp [e]
    · have hx : y.word ≠ 0xF4D := e
      cases hn : (s.th c t).lockN with
      | none => simp
      | some n =>
        have := h.room hx n hn
        simp; omega
  have h2 : ((isOp y.word && decide (0 < (s.th c t).pk)) || ((s.th c t).lockN.isSome && y.noLock) || y.illegal) = false := by
    have a : (isOp y.word && decide (0 < (s.th c t).pk)) = false := by
      cases e : isOp y.word with
      | false => simp
      | true => simp [hp e]
    have b : ((s.th c t).lockN.isSome && y.noLock) = false := by
      cases e : y.noLock with
      | false => simp
      | true => simp [hl e]
    simp [a, b, hi]
  have h3 : s.watched c t y = s.perform c t y := by
    simp [State.watched, Core.wpHits_quiet _ _ _ h.quiet]
  have h4 : ((s.th c t).lockN.any (fun n => decide (15 ≤ n)) && decide (y.word ≠ opW 0x4D)) = false := by
    rw [← h1]; cases (s.th c t).lockN.any (fun n => decide (15 ≤ n)) <;> by_cases e : y.word = opW 0x4D <;> simp [e]
  have h5 : (y.slot && !(s.core c).maySlot (.thread t)) = false := by
    cases e : y.slot with
    | false => simp
    | true => simp [hm e]
  unfold issue State.checked
  simp only [h.may, h.mapped, h.word, h4, h2, h5, hw, hv, hr, hf, h3, ne_eq, not_true, Bool.not_true, if_false, Bool.false_eq_true]

/-- A change of a thread that is bookkeeping only. -/
theorem Core.settled_modTh (k : Core) (t : ThId) (g : Thread → Thread) (h : ∀ u, (g u).settled = u.settled) :
    (k.modTh t g).settled t = k.settled t := by
  have e : (k.modTh t g).modTh t Thread.settled = k.modTh t Thread.settled := by
    simp only [Core.modTh, Tab.modify_modify _ _ _ _ t.isLt, h]
  simp only [Core.settled, e]

/-- A change of a core that is bookkeeping only. -/
theorem State.settled_modCore (s : State) (c : CoreId) (t : ThId) (f : Core → Core)
    (h : (f (s.core c)).settled t = (s.core c).settled t) : (s.modCore c f).settled c t = s.settled c t := by
  simp only [State.settled, State.modCore_modCore]
  exact State.modCore_congr _ _ _ _ h

/-- A request for a memory slot changes bookkeeping only. -/
theorem Core.settled_askSlot (k : Core) (t : ThId) (r : SlotReq) : (k.askSlot r).settled t = k.settled t := by
  unfold Core.askSlot
  split <;> rfl
/-- The turns of line fills change bookkeeping only. -/
theorem Core.settled_fillTurns (k : Core) (t : ThId) : k.fillTurns.settled t = k.settled t := rfl
/-- A request for a line fill changes bookkeeping only. -/
theorem Core.settled_askFill (k : Core) (t : ThId) (l : BitVec 16) : (k.askFill l).settled t = k.settled t := by
  unfold Core.askFill
  split
  · rfl
  · rw [Core.settled_fillTurns, Core.settled_askSlot]
/-- The use of an I-cache line changes bookkeeping only. -/
theorem Core.settled_usedLine (k : Core) (t : ThId) (l : ILine) : (k.usedLine l).settled t = k.settled t := rfl

/-- Looking up a line changes bookkeeping only. -/
theorem State.settled_fetchLine (s : State) (c : CoreId) (t : ThId) : (s.fetchLine c t).settled c t = s.settled c t := by
  unfold State.fetchLine
  simp only
  split
  · rfl
  · split
    · rfl
    · split
      · exact State.settled_modCore _ _ _ _ (Core.settled_modTh (s.core c) t _ (fun _ => rfl))
      · exact State.settled_modCore _ _ _ _ ((Core.settled_askFill _ t _).trans (Core.settled_modTh (s.core c) t _ (fun _ => rfl)))

/-- Looking up the line of a waiting thread changes bookkeeping only. -/
theorem State.settled_lookAhead (s : State) (c : CoreId) (t : ThId) (pc : PAddr) :
    (s.lookAhead c t pc).settled c t = s.settled c t := by
  unfold State.lookAhead
  simp only
  split
  · rfl
  · split
    · rfl
    · split
      · exact State.settled_modCore _ _ _ _ rfl
      · exact State.settled_modCore _ _ _ _ (Core.settled_askFill _ t _)

/-- The window's request changes bookkeeping only. -/
theorem Core.settled_testXfer (k : Core) (t : ThId) : (k.testXfer t).settled t = k.settled t := by
  unfold Core.testXfer
  split
  · rfl
  · exact Core.settled_modTh k t _ (fun _ => rfl)

/-- What follows every syllable changes bookkeeping only. -/
theorem State.settled_retire (s : State) (c : CoreId) (t : ThId) : (s.retire c t).settled c t = s.settled c t := by
  have a : ((((s.core c).testXfer t).modTh t Thread.retired).fillTurns).settled t = (s.core c).settled t :=
    (Core.settled_modTh ((s.core c).testXfer t) t Thread.retired (fun _ => rfl)).trans (Core.settled_testXfer _ t)
  unfold State.retire
  simp only
  split
  · rfl
  · split
    · rw [State.settled_lookAhead]
      exact State.settled_modCore _ _ _ _ a
    · exact State.settled_modCore _ _ _ _ a
    · rw [State.settled_fetchLine]
      exact State.settled_modCore _ _ _ _ a

/-- A syllable that is due and that no check stops has its effect, and changes bookkeeping besides. -/
theorem issue_settled (s : State) (c : CoreId) (t : ThId) (y : Sylb) (h : Due s c t y.word)
    (hp : isOp y.word = true → (s.th c t).pk = 0) (hl : y.noLock = true → (s.th c t).lockN = none)
    (hi : y.illegal = false) (hw : (s.th c t).winCheck y.need y.net = .ok) (hv : y.waits = false)
    (hm : y.slot = true → (s.core c).maySlot (.thread t) = true)
    (hr : (s.th c t).rsBad y.rpops y.rpushes = false) (hf : y.fault = none) :
    (issue c t y s).settled c t = (y.effect ((s.issued c t).modTh c t Thread.advance)).settled c t := by
  rw [issue_performs s c t y h hp hl hi hw hv hm hr hf, State.perform, State.settled_retire]

/-- What the issue counts and the step of the PC, up to bookkeeping. -/
theorem State.settled_issued (s : State) (c : CoreId) (t : ThId) (g : Thread → Thread) :
    (((s.issued c t).modTh c t Thread.advance).modTh c t g).settled c t =
      (s.modTh c t (fun u => g u.count.advance)).settled c t := by
  simp only [State.settled, State.issued, State.modTh, State.modCore_modCore]
  apply State.modCore_congr
  simp only [Core.settled, Core.unask, Core.modTh, Tab.modify_modify _ _ _ _ t.isLt]

end Sys2Proof.Machine
end

