-- ==== Sys2Proof/Laws/Mem.lean ====
section
/-! SUPPORT. The laws of the sparse memories: a read after a write, and that every memory operation keeps the canonical
form. -/

namespace Sys2Proof.Machine

/-- A canonical memory is canonical from any lower bound. -/
theorem memWfFrom_mono {w : Nat} (m : Mem w) (a b : Nat) (h : a ≤ b) (hm : memWfFrom b m = true) : memWfFrom a m = true := by
  cases m with
  | nil => rfl
  | cons p r =>
    obtain ⟨k, v⟩ := p
    simp only [memWfFrom, Bool.and_eq_true, decide_eq_true_eq] at hm ⊢
    exact ⟨⟨by omega, hm.1.2⟩, hm.2⟩

/-- A canonical memory lists nothing below its bound. -/
theorem memRead_below {w : Nat} (m : Mem w) : ∀ (lo a : Nat), memWfFrom lo m = true → a < lo → memRead m a = 0 := by
  induction m with
  | nil => intro lo a _ _; rfl
  | cons p r ih =>
    obtain ⟨k, v⟩ := p
    intro lo a hm ha
    simp only [memWfFrom, Bool.and_eq_true, decide_eq_true_eq] at hm
    have hk : k ≠ a := by omega
    simp only [memRead, hk, if_false]
    exact ih (k + 1) a hm.2 (by omega)

/-- A write keeps the canonical form. -/
theorem memWfFrom_memWrite {w : Nat} (m : Mem w) : ∀ (lo a : Nat) (v : BitVec w), memWfFrom lo m = true → lo ≤ a →
    memWfFrom lo (memWrite m a v) = true := by
  induction m with
  | nil =>
    intro lo a v _ ha
    unfold memWrite
    split
    · rfl
    · next hv => rw [memWfFrom, decide_eq_true ha, decide_eq_true hv]; rfl
  | cons p r ih =>
    obtain ⟨k, x⟩ := p
    intro lo a v hm ha
    simp only [memWfFrom, Bool.and_eq_true, decide_eq_true_eq] at hm
    obtain ⟨⟨h1, h2⟩, h3⟩ := hm
    unfold memWrite
    split
    · split
      · rw [memWfFrom, decide_eq_true h1, decide_eq_true h2, h3]; rfl
      · next hlt hv =>
        have : a + 1 ≤ k := by omega
        rw [memWfFrom, memWfFrom, decide_eq_true ha, decide_eq_true hv, decide_eq_true this, decide_eq_true h2, h3]; rfl
    · split
      · next e =>
        split
        · exact memWfFrom_mono r lo (k + 1) (by omega) h3
        · next hv => subst e; rw [memWfFrom, decide_eq_true ha, decide_eq_true hv, h3]; rfl
      · simp only [memWfFrom, h1, h2, decide_true, Bool.true_and, ne_eq, not_false_eq_true]
        exact ih (k + 1) a v h3 (by omega)

/-- Reading the unit written gives its new value, reading any other the old. -/
theorem memRead_memWrite {w : Nat} (m : Mem w) : ∀ (lo a b : Nat) (v : BitVec w), memWfFrom lo m = true →
    memRead (memWrite m a v) b = if b = a then v else memRead m b := by
  induction m with
  | nil =>
    intro lo a b v _
    unfold memWrite
    split
    · next hv => simp only [memRead, hv, ite_self]
    · simp only [memRead, eq_comm]
  | cons p r ih =>
    obtain ⟨k, x⟩ := p
    intro lo a b v hm
    simp only [memWfFrom, Bool.and_eq_true, decide_eq_true_eq] at hm
    obtain ⟨⟨h1, h2⟩, h3⟩ := hm
    unfold memWrite
    split
    · next hlt =>
      have h0 : memRead r a = 0 := memRead_below r (k + 1) a h3 (by omega)
      split
      · next hv =>
        by_cases hb : b = a
        · subst hb; simp [memRead, hv, h0]; omega
        · simp [hb]
      · by_cases hb : b = a
        · subst hb; simp [memRead]
        · have : a ≠ b := fun e => hb e.symm
          simp [memRead, hb, this]
    · split
      · next hge e =>
        subst e
        have h0 : memRead r a = 0 := memRead_below r (a + 1) a h3 (by omega)
        split
        · next hv =>
          by_cases hb : b = a
          · subst hb; simp [h0, hv]
          · have : a ≠ b := fun e => hb e.symm
            simp [memRead, hb, this]
        · by_cases hb : b = a
          · subst hb; simp [memRead]
          · have : a ≠ b := fun e => hb e.symm
            simp [memRead, hb, this]
      · next hge hne =>
        simp only [memRead]
        by_cases hb : k = b
        · subst hb
          have : k ≠ a := fun e => hne e.symm
          simp [this]
        · simp only [hb, if_false]
          exact ih (k + 1) a b v h3

theorem Memory.wf_memWrite {w : Nat} (m : Mem w) (a : Nat) (v : BitVec w) (h : Memory.wf m = true) :
    Memory.wf (memWrite m a v) = true :=
  memWfFrom_memWrite m 0 a v h (Nat.zero_le a)

theorem memRead_memWrite_wf {w : Nat} (m : Mem w) (a b : Nat) (v : BitVec w) (h : Memory.wf m = true) :
    memRead (memWrite m a v) b = if b = a then v else memRead m b :=
  memRead_memWrite m 0 a b v h

/-- Units written upward keep the canonical form. -/
theorem Memory.wf_memWriteList {w : Nat} (vs : List (BitVec w)) : ∀ (m : Mem w) (a : Nat), Memory.wf m = true →
    Memory.wf (memWriteList m a vs) = true := by
  induction vs with
  | nil => intro m a h; exact h
  | cons v r ih => intro m a h; exact ih _ _ (Memory.wf_memWrite m a v h)

/-- An entry written into its ring's area keeps the canonical form (R200). -/
theorem Memory.wf_writeArea (cs : List Cell) : ∀ (m : Mem 24) (lo size wp : Nat), Memory.wf m = true →
    Memory.wf (writeArea m lo size wp cs) = true := by
  induction cs with
  | nil => intro m lo size wp h; exact h
  | cons v r ih => intro m lo size wp h; exact ih _ _ _ _ (Memory.wf_memWrite m _ v h)

/-- A line of free values keeps the canonical form (R396). -/
theorem Memory.wf_freeLine {w : Nat} (n : Nat) (m : Mem w) (a : Nat) (h : Memory.wf m = true) :
    Memory.wf (freeLine n m a) = true :=
  Memory.wf_memWriteList _ m a h

/-- Leaving entries out keeps the canonical form. -/
theorem memWfFrom_filter {w : Nat} (p : Nat × BitVec w → Bool) (m : Mem w) : ∀ lo, memWfFrom lo m = true →
    memWfFrom lo (m.filter p) = true := by
  induction m with
  | nil => intro lo h; exact h
  | cons x r ih =>
    obtain ⟨k, v⟩ := x
    intro lo h
    simp only [memWfFrom, Bool.and_eq_true, decide_eq_true_eq] at h
    by_cases hp : p (k, v) = true
    · rw [List.filter_cons_of_pos hp]
      simp only [memWfFrom, Bool.and_eq_true, decide_eq_true_eq]
      exact ⟨h.1, ih _ h.2⟩
    · rw [List.filter_cons_of_neg hp]
      exact ih lo (memWfFrom_mono r lo (k + 1) (by omega) h.2)

/-- A list made from rising indices with its zeros left out is canonical. -/
theorem memWfFrom_range {w : Nat} (f : Nat → BitVec w) (b : Nat) : ∀ n i, memWfFrom (b + i)
    ((List.range' i n).filterMap (fun j => if f j = 0 then none else some (b + j, f j))) = true := by
  intro n
  induction n with
  | zero => intro i; rfl
  | succ n ih =>
    intro i
    rw [List.range'_succ, List.filterMap_cons]
    by_cases h : f i = 0
    · simp only [h, if_true]
      exact memWfFrom_mono _ (b + i) (b + (i + 1)) (by omega) (ih (i + 1))
    · simp only [h, if_false, memWfFrom, Nat.le_refl, decide_true, Bool.true_and, ne_eq, not_false_eq_true]
      exact ih (i + 1)

/-- The words of a bundle are canonical (R186). -/
theorem Memory.wf_bundleWords (o : Bool) (words : Nat) (p : List Byte) : Memory.wf (bundleWords o words p) = true := by
  unfold bundleWords Memory.wf
  rw [List.range_eq_range']
  exact memWfFrom_mono _ 0 (bundleBase o + 0) (by omega) (memWfFrom_range
    (fun i => if i < words then BitVec.ofNat 96 (fld p (bundleTable o + 12 * i) 12) else BitVec.ofNat 96 (7 * 2 ^ 93))
    (bundleBase o) (bundleSize o) 0)

/-- Fuse pulses keep the canonical form, and the strict margin within the normal one (R358). -/
theorem Otp.pulse_wf (t : Otp) (a : Nat) (bits : BitVec 39) (o : FuseShot) (hn : Memory.wf t.norm = true)
    (hs : Memory.wf t.strict = true) : Memory.wf (t.pulse a bits o).norm = true ∧ Memory.wf (t.pulse a bits o).strict = true :=
  ⟨Memory.wf_memWrite _ _ _ hn, Memory.wf_memWrite _ _ _ hs⟩

theorem Otp.pulse_margin (t : Otp) (a : Nat) (bits : BitVec 39) (o : FuseShot) (hn : Memory.wf t.norm = true)
    (hs : Memory.wf t.strict = true) (h : ∀ b, memRead t.strict b &&& ~~~(memRead t.norm b) = 0) :
    ∀ b, memRead (t.pulse a bits o).strict b &&& ~~~(memRead (t.pulse a bits o).norm b) = 0 := by
  intro b
  simp only [Otp.pulse, memRead_memWrite_wf _ _ _ _ hn, memRead_memWrite_wf _ _ _ _ hs]
  split
  · have := h a
    apply BitVec.eq_of_getLsbD_eq
    intro i hi
    have hb := congrArg (fun x : BitVec 39 => x.getLsbD i) this
    have hz : BitVec.getLsbD (0 : BitVec 39) i = false := BitVec.getLsbD_zero
    simp only [BitVec.getLsbD_and, BitVec.getLsbD_not, BitVec.getLsbD_or, hi, decide_true, Bool.true_and, hz] at hb ⊢
    revert hb
    cases (memRead t.strict a).getLsbD i <;> cases (memRead t.norm a).getLsbD i <;> cases bits.getLsbD i <;>
      cases o.unset.getLsbD i <;> cases o.weak.getLsbD i <;> decide
  · exact h b

/-- Core `c` after its own memories change canonically. -/
theorem State.memsWf_modCore (s : State) (c : CoreId) (f : Core → Core) (h : s.memsWf = true)
    (hf : ∀ k : Core, k.memsWf = true → (f k).memsWf = true) : (s.modCore c f).memsWf = true := by
  simp only [State.memsWf, Bool.and_eq_true, List.all_eq_true] at h ⊢
  refine ⟨h.1, ?_⟩
  intro k hk
  obtain ⟨i, hi, e⟩ := List.getElem_of_mem hk
  simp only [State.modCore, Vector.length_toList, Vector.getElem_toList] at hi e
  have hall : ∀ j (hj : j < 16), (s.cores[j]).memsWf = true := by
    intro j hj
    exact h.2 _ (by rw [← Vector.getElem_toList (h := by simpa using hj)]; exact List.getElem_mem _)
  simp only [Tab.modify, Tab.set, Tab.get] at e
  split at e
  · rw [Vector.getElem_set] at e
    split at e
    · rw [← e]; exact hf _ (by simpa using hall _ (by assumption))
    · rw [← e]; exact hall i hi
  · rw [← e]; exact hall i hi

/-- A cell write keeps every memory canonical. -/
theorem State.memsWf_putCellMem (s : State) (c : CoreId) (a : Nat) (v : Cell) (h : s.memsWf = true) :
    (s.putCellMem c a v).memsWf = true := by
  unfold State.putCellMem
  split
  · refine State.memsWf_modCore s c _ h ?_
    intro k hk
    simp only [Core.memsWf, Bool.and_eq_true] at hk ⊢
    exact ⟨⟨Memory.wf_memWrite _ _ _ hk.1.1, hk.1.2⟩, hk.2⟩
  · simp only [State.memsWf, State.modFb, Bool.and_eq_true] at h ⊢
    obtain ⟨⟨⟨⟨⟨⟨⟨⟨⟨⟨a1, a2⟩, a3⟩, a4⟩, a5⟩, a6⟩, a7⟩, a8⟩, a9⟩, a10⟩, a11⟩ := h
    exact ⟨⟨⟨⟨⟨⟨⟨⟨⟨⟨a1, Memory.wf_memWrite _ _ _ a2⟩, a3⟩, a4⟩, a5⟩, a6⟩, a7⟩, a8⟩, a9⟩, a10⟩, a11⟩
  · exact h

theorem State.memsWf_putCellsMem (xs : List Cell) : ∀ (s : State) (c : CoreId) (a : Nat), s.memsWf = true →
    (s.putCellsMem c a xs).memsWf = true := by
  induction xs with
  | nil => intro s c a h; exact h
  | cons v r ih => intro s c a h; exact ih _ _ _ (State.memsWf_putCellMem s c a v h)

/-- The cells of a capture object put in force keep the canonical form (R192). -/
theorem Capture.wf_putObj (c : Capture) (o : Obj) (v : Nat → Cell) (h : Memory.wf c.objs = true) :
    Memory.wf (c.putObj o v).objs = true := by
  unfold Capture.putObj
  have h1 := Memory.wf_memWriteList ((List.range o.size).map (fun k => v k &&& o.mask k)) c.objs o.base h
  cases o <;> dsimp only
  all_goals first
    | exact Memory.wf_memWrite _ _ _ h1
    | (split <;> first | exact Memory.wf_memWrite _ _ _ h1 | exact h1)
    | exact h1

/-- The memories of the state after reset are canonical. -/
theorem State.memsWf_reset : State.reset.memsWf = true := by decide

end Sys2Proof.Machine
end

