-- ==== Sys2Proof/Laws/Parts.lean ====
section
/-! SUPPORT. Each die of the state after the updates of its parts: an EQ, the counters of a core. -/

namespace Sys2Proof.Machine

@[simp] theorem State.modEq_pending (s : State) (n : Nat) (f : EqRing → EqRing) : (s.modEq n f).pending = s.pending := rfl
@[simp] theorem State.modEq_free (s : State) (n : Nat) (f : EqRing → EqRing) : (s.modEq n f).free = s.free := rfl
@[simp] theorem State.modEq_pw (s : State) (n : Nat) (f : EqRing → EqRing) : (s.modEq n f).pw = s.pw := rfl
@[simp] theorem State.modEq_cores (s : State) (n : Nat) (f : EqRing → EqRing) : (s.modEq n f).cores = s.cores := rfl
@[simp] theorem State.modEq_fb (s : State) (n : Nat) (f : EqRing → EqRing) : (s.modEq n f).fb = s.fb := rfl
@[simp] theorem State.modEq_pil (s : State) (n : Nat) (f : EqRing → EqRing) : (s.modEq n f).pil = s.pil := rfl
@[simp] theorem State.modEq_hs (s : State) (n : Nat) (f : EqRing → EqRing) : (s.modEq n f).hs = s.hs := rfl
@[simp] theorem State.modEq_fl (s : State) (n : Nat) (f : EqRing → EqRing) : (s.modEq n f).fl = { s.fl with eqs := s.fl.eqs.modify n f } := rfl
@[simp] theorem State.modEq_img (s : State) (n : Nat) (f : EqRing → EqRing) : (s.modEq n f).img = s.img := rfl
@[simp] theorem State.modEq_bist (s : State) (n : Nat) (f : EqRing → EqRing) : (s.modEq n f).bist = s.bist := rfl

@[simp] theorem State.modCnt_pending (s : State) (c : CoreId) (f : CoreCnt → CoreCnt) : (s.modCnt c f).pending = s.pending := rfl
@[simp] theorem State.modCnt_free (s : State) (c : CoreId) (f : CoreCnt → CoreCnt) : (s.modCnt c f).free = s.free := rfl
@[simp] theorem State.modCnt_pw (s : State) (c : CoreId) (f : CoreCnt → CoreCnt) : (s.modCnt c f).pw = s.pw := rfl
@[simp] theorem State.modCnt_cores (s : State) (c : CoreId) (f : CoreCnt → CoreCnt) : (s.modCnt c f).cores = s.cores := rfl
@[simp] theorem State.modCnt_fb (s : State) (c : CoreId) (f : CoreCnt → CoreCnt) : (s.modCnt c f).fb = { s.fb with cnt := s.fb.cnt.modify c.toNat f } := rfl
@[simp] theorem State.modCnt_pil (s : State) (c : CoreId) (f : CoreCnt → CoreCnt) : (s.modCnt c f).pil = s.pil := rfl
@[simp] theorem State.modCnt_hs (s : State) (c : CoreId) (f : CoreCnt → CoreCnt) : (s.modCnt c f).hs = s.hs := rfl
@[simp] theorem State.modCnt_fl (s : State) (c : CoreId) (f : CoreCnt → CoreCnt) : (s.modCnt c f).fl = s.fl := rfl
@[simp] theorem State.modCnt_img (s : State) (c : CoreId) (f : CoreCnt → CoreCnt) : (s.modCnt c f).img = s.img := rfl
@[simp] theorem State.modCnt_bist (s : State) (c : CoreId) (f : CoreCnt → CoreCnt) : (s.modCnt c f).bist = s.bist := rfl

/-- An EQ's own update reads back. -/
@[simp] theorem State.modEq_get (s : State) (n : Nat) (f : EqRing → EqRing) (h : n < 4) :
    (s.modEq n f).fl.eqs.get n = f (s.fl.eqs.get n) :=
  Tab.get_modify_self _ _ _ h

/-- Every other EQ is left alone. -/
theorem State.modEq_get_ne (s : State) (n m : Nat) (f : EqRing → EqRing) (h : n ≠ m) :
    (s.modEq n f).fl.eqs.get m = s.fl.eqs.get m :=
  Tab.get_modify_ne _ _ _ _ h

end Sys2Proof.Machine
end

