-- ==== Sys2Proof/Laws/Stack.lean ====
section
/-! SUPPORT. The data stack after a pop and a push. -/

namespace Sys2Proof.Machine

/-- Writing window cells leaves everything but the window, its dirty bits and the transfer's mark. -/
theorem Thread.putCells_keep (xs : List Cell) : ∀ (u : Thread) (j : Nat),
    (u.putCells j xs).w = u.w ∧ (u.putCells j xs).base = u.base ∧ (u.putCells j xs).spc = u.spc := by
  induction xs with
  | nil => intro u j; exact ⟨rfl, rfl, rfl⟩
  | cons v r ih => intro u j; exact ih (u.putCell j v) (j + 1)

/-- A window position that the cells written upward from `j` leave alone. -/
theorem Thread.putCells_old (xs : List Cell) : ∀ (u : Thread) (j p : Nat), p < j ∨ j + xs.length ≤ p →
    p < j + 32 → j + xs.length ≤ p + 32 → (u.putCells j xs).win.get (u.phys p) = u.win.get (u.phys p) := by
  induction xs with
  | nil => intro u j p _ _ _; rfl
  | cons v r ih =>
    intro u j p h1 h2 h3
    simp only [List.length_cons] at h1 h3
    have h := ih (u.putCell j v) (j + 1) p (by omega) (by omega) (by omega)
    have hne : u.phys j ≠ u.phys p := by
      simp only [Thread.phys]
      omega
    exact h.trans (Tab.get_set_ne _ _ _ _ hne)

/-- A window position among the cells written upward from `j`. -/
theorem Thread.putCells_new (xs : List Cell) : ∀ (u : Thread) (j k : Nat), xs.length ≤ 32 → k < xs.length →
    (u.putCells j xs).win.get (u.phys (j + k)) = xs.getD k 0 := by
  induction xs with
  | nil => intro u j k _ h; simp at h
  | cons v r ih =>
    intro u j k hl hk
    simp only [List.length_cons] at hl hk
    cases k with
    | zero =>
      have h := Thread.putCells_old r (u.putCell j v) (j + 1) j (by omega) (by omega) (by omega)
      refine h.trans ?_
      exact Tab.get_set_self _ _ _ (Nat.mod_lt _ (by decide))
    | succ k =>
      have h := ih (u.putCell j v) (j + 1) k (by omega) (by omega)
      rw [show j + 1 + k = j + (k + 1) by omega] at h
      exact h

/-- The data stack after `n` cells are popped and `xs` pushed, the last of them on top (R96, R122). -/
theorem Thread.popPush_stackIs (u : Thread) (n : Nat) (xs : List Cell) (h : n ≤ u.w) (hl : xs.length ≤ 32) :
    StackIs u (u.popPush n xs) n xs.reverse := by
  have hk := Thread.putCells_keep xs u (u.w - n)
  have hphys : ∀ q, (u.popPush n xs).phys q = u.phys q := fun q => by
    show (8 * (u.putCells (u.w - n) xs).base + q) % 32 = _
    rw [hk.2.1]; rfl
  have hw : (u.popPush n xs).w = u.w - n + xs.length := rfl
  have ht : ∀ k, (u.popPush n xs).top k = (u.putCells (u.w - n) xs).win.get (u.phys (u.w - n + xs.length - 1 - k)) := by
    intro k
    show (u.putCells (u.w - n) xs).win.get ((u.popPush n xs).phys ((u.popPush n xs).w - 1 - k)) = _
    rw [hphys, hw]
  refine ⟨by simpa using hw, hk.2.2, ?_, ?_⟩
  · intro k hkl
    simp only [List.length_reverse] at hkl
    rw [ht, show u.w - n + xs.length - 1 - k = u.w - n + (xs.length - 1 - k) by omega,
      Thread.putCells_new xs u _ _ hl (by omega)]
    rw [List.getD_eq_getElem?_getD, List.getD_eq_getElem?_getD, List.getElem?_reverse hkl]
  · intro k h1 h2
    simp only [List.length_reverse] at h2 ⊢
    rw [ht, Thread.putCells_old xs u _ _ (by omega) (by omega) (by omega)]
    show u.win.get _ = u.win.get _
    rw [show u.w - n + xs.length - 1 - (k + xs.length) = u.w - 1 - (k + n) by omega]

end Sys2Proof.Machine
end

