-- ==== Sys2Proof/Laws/Runs.lean ====
section
/-! SUPPORT. How a syllable that changes its thread alone completes. -/

namespace Sys2Proof.Machine

/-- The thread after its update, up to bookkeeping. -/
theorem State.settled_th (s : State) (c : CoreId) (t : ThId) : (s.settled c t).th c t = (s.th c t).settled := by
  simp [State.settled, State.th, Core.settled]

/-- Two updates of one thread are one. -/
theorem State.modTh_modTh (s : State) (c : CoreId) (t : ThId) (f g : Thread → Thread) :
    (s.modTh c t f).modTh c t g = s.modTh c t (fun u => g (f u)) := by
  simp only [State.modTh, State.modCore_modCore]
  apply State.modCore_congr
  simp [Core.modTh, Tab.modify_modify _ _ _ _ t.isLt]

/-- What bookkeeping leaves out is left out after a further change of the same thread. -/
theorem State.arch_eq_of_settled (a b : State) (c : CoreId) (t : ThId) (h : a.settled c t = b.settled c t) :
    a.arch c t = b.arch c t := by
  have e : ∀ x : State, (x.settled c t).arch c t = x.arch c t := by
    intro x
    simp only [State.settled, State.arch, State.modCore_modCore]
    apply State.modCore_congr
    have e2 : ∀ u : Thread, u.settled.arch = u.arch := fun _ => rfl
    simp only [Core.settled, Core.arch, Core.modTh, Tab.modify_modify _ _ _ _ t.isLt, e2]
  rw [← e a, h, e b]

/-- An update of a thread seen through `arch` depends on the thread's `arch` alone. -/
theorem State.arch_modTh_congr (s : State) (c : CoreId) (t : ThId) (f g : Thread → Thread)
    (h : (f (s.th c t)).arch = (g (s.th c t)).arch) : (s.modTh c t f).arch c t = (s.modTh c t g).arch c t := by
  simp only [State.modTh, State.arch, State.modCore_modCore]
  apply State.modCore_congr
  simp only [Core.arch, Core.modTh, Tab.modify_modify _ _ _ _ t.isLt, Core.mk.injEq, and_true]
  simp only [Tab.modify]
  have e : ((s.core c).th.get t.toNat) = s.th c t := rfl
  rw [e, h]

/-- A syllable that changes its thread by `g` completes so. -/
theorem runs_of_issue (i : Instr) (s : State) (c : CoreId) (t : ThId) (y : Sylb) (g f : Thread → Thread)
    (pops : Nat) (xs : List Cell) (fs : List (Nat × Bool))
    (hx : exec i s = .next (issue c t y s)) (h : Due s c t y.word)
    (hp : isOp y.word = true → (s.th c t).pk = 0) (hl : y.noLock = true → (s.th c t).lockN = none)
    (hi : y.illegal = false) (hw : (s.th c t).winCheck y.need y.net = .ok) (hv : y.waits = false)
    (hm : y.slot = true → (s.core c).maySlot (.thread t) = true)
    (hr : (s.th c t).rsBad y.rpops y.rpushes = false) (hf : y.fault = none)
    (he : ∀ r, r = (s.issued c t).modTh c t Thread.advance → y.effect r = r.modTh c t g)
    (hs : StackIs (s.th c t) (g (s.th c t).count.advance) pops xs)
    (hfl : FlagsAre (s.th c t).status (g (s.th c t).count.advance).status fs)
    (hc : (g (s.th c t).count.advance).arch =
      ({ f (s.th c t).count.advance with status := (g (s.th c t).count.advance).status }).arch) :
    Runs i s c t pops xs fs f := by
  have a := issue_settled s c t y h hp hl hi hw hv hm hr hf
  rw [he _ rfl, State.settled_issued] at a
  have b : ((issue c t y s).th c t).settled = (g (s.th c t).count.advance).settled := by
    have := congrArg (fun x : State => x.th c t) a
    simpa [State.settled_th] using this
  have hst : ((issue c t y s).th c t).status = (g (s.th c t).count.advance).status := by
    have q := congrArg Thread.status b; exact q
  have hw' : ((issue c t y s).th c t).w = (g (s.th c t).count.advance).w := by
    have q := congrArg Thread.w b; exact q
  have hspc : ((issue c t y s).th c t).spc = (g (s.th c t).count.advance).spc := by
    have q := congrArg Thread.spc b; exact q
  have htop : ∀ k, ((issue c t y s).th c t).top k = (g (s.th c t).count.advance).top k := by
    intro k
    have h1 : ((issue c t y s).th c t).win = (g (s.th c t).count.advance).win := by
      have q := congrArg Thread.win b; exact q
    have h2 : ((issue c t y s).th c t).base = (g (s.th c t).count.advance).base := by
      have q := congrArg Thread.base b; exact q
    simp only [Thread.top, Thread.phys, h1, h2, hw']
  refine ⟨_, hx, ?_, ?_, ?_⟩
  · obtain ⟨a1, a2, a3, a4⟩ := hs
    refine ⟨by rw [hw', a1], by rw [hspc, a2], ?_, ?_⟩
    · intro k hk; rw [htop, a3 k hk]
    · intro k h1 h2; rw [htop, a4 k h1 h2]
  · rw [hst]; exact hfl
  · unfold Changed
    rw [State.modTh_modTh, State.modTh_modTh, hst, State.arch_eq_of_settled _ _ c t a]
    apply State.arch_modTh_congr
    exact hc

/-- The bits of `setBit`. -/
theorem getLsbD_setBit (x : Cell) (j i : Nat) (b : Bool) (hi : i < 24) :
    (setBit x j b).getLsbD i = if i = j then b else x.getLsbD i := by
  have hp : (BitVec.ofNat 24 (2 ^ j)).getLsbD i = decide (i = j) := by
    rw [BitVec.getLsbD_ofNat, Nat.testBit_two_pow]
    simp [hi, eq_comm]
  unfold setBit
  cases b
  · simp only [Bool.false_eq_true, if_false, BitVec.getLsbD_and, BitVec.getLsbD_not, hp, hi, decide_true, Bool.true_and]
    by_cases e : i = j <;> simp [e]
  · simp only [if_true, BitVec.getLsbD_or, hp]
    by_cases e : i = j <;> simp [e]

end Sys2Proof.Machine
end

