-- ==== Sys2Proof/Tests/Slice0.lean ====
section
/-! SUPPORT. Tests: the checks of WellFormed, words of syllables, and states that meet the premises of the statements. -/

namespace Sys2Proof

open Machine

/-- Thread 0 of core 0 changed. -/
def Machine.State.with0 (s : State) (f : Thread → Thread) : State := s.modTh 0 0 f

/-- A store-buffer entry for the cell `a`. -/
def Tests.entry (a : Cell) : SEntry := { id := 0, th := 0, a := a, size := .cell, v := 9 }

/-- A state with one store in the buffer of core 0. -/
def Machine.State.stored (s : State) (a : Cell) : State := s.modCore 0 (fun k => { k with sb := [Tests.entry a], sbNext := 1 })

namespace Tests

/-- The OTP with `w` in each copy of the thermometer. -/
def fuses (w : BitVec 39) : Mem 39 := if w = 0 then [] else [(0, w), (1, w), (2, w)]

/-- A lane user that holds a payload with word 0 `w`. -/
def lane (w : BitVec 32) : LaneUser := { lastGood := some (1, [w]), held := some (1, [w]) }

/-- The device running in life-cycle state `l`, thermometer `w`, every core enabled, the host's bus open. -/
def on (l : BitVec 32) (w : BitVec 39) : State :=
  { pw := { life := .running, start := { s1 := true, s2 := true, s3 := true, s4 := true, s5 := true, s6 := true, s7 := true, s8 := true,
                                         s9 := true, s11 := true } },
    hs := { otp := { norm := fuses w, strict := fuses w, done := true },
            lanes := { f := lane l, p := lane l, coreMask := some 0 } },
    fl := { linkReady := true, bme := true } }

/-- Thread 0 of core 0 about to issue `w` at 0x100, its window `xs` with the head on top. -/
def due (w : Syl) (xs : List Cell) : State :=
  (on 1 1).modTh 0 0 (fun u =>
    { u with st := .ready, pc := 0x100, w := xs.length, win := Vector.ofFn (fun i => xs.reverse.getD i.val 0),
             buf := some { line := 0x10, data := Tab.fill 16 w } })

/-- What `Due` asks, as a check. -/
def dueB (s : State) (w : Syl) : Bool :=
  s.mayIssue 0 0 && progMapped (s.th 0 0).pc.toNat && decide ((s.th 0 0).fetched = some w) &&
  (List.range 8).all (fun i => !((s.core 0).wp.get i).ctl.getLsbD 0) && ((s.th 0 0).lockN.isNone || (s.th 0 0).lockN == some 1)

theorem due_of (s : State) (w : Syl) (h : dueB s w = true) : Due s 0 0 w := by
  simp only [dueB, Bool.and_eq_true, decide_eq_true_eq, List.all_eq_true, List.mem_range, Bool.not_eq_true'] at h
  refine ⟨h.1.1.1.1, h.1.1.1.2, h.1.1.2, h.1.2, fun _ n hn => ?_⟩
  have := h.2
  rw [hn] at this
  simp at this
  omega

/-- A zero-operand syllable is due on thread 0 of core 0 with its operands there. -/
def Ready (s : State) (k : BitVec 8) (need net : Nat) : Prop := DueOp s 0 0 k ∧ (s.th 0 0).winCheck need net = .ok

def readyB (s : State) (k : BitVec 8) (need net : Nat) : Bool :=
  dueB s (opWord k) && decide ((s.th 0 0).pk = 0) && ((s.th 0 0).lockN.isNone || (s.th 0 0).lockN == some 1 && k == 0x4D) &&
  decide ((s.th 0 0).winCheck need net = .ok)

theorem ready_of (s : State) (k : BitVec 8) (need net : Nat) (h : readyB s k need net = true) : Ready s k need net := by
  simp only [readyB, Bool.and_eq_true, decide_eq_true_eq, Bool.or_eq_true, Option.isNone_iff_eq_none, beq_iff_eq] at h
  refine ⟨{ toDue := due_of s _ h.1.1.1, noPfx := h.1.1.2, noSeq := fun hk => ?_ }, h.2⟩
  rcases h.1.2 with e | ⟨_, e⟩
  · exact e
  · subst e; simp at hk

/-! Words written out from Tables 4.1 and 4.6 to 4.14 (the OP row of each family, in binary). -/

theorem test_decode_short : decodeSyl 2 1 0b000000000101 = .lit 2 1 5 ∧ decodeSyl 2 1 0b010000000011 = .call 2 1 3 ∧
    decodeSyl 2 1 0b011111111111 = .jmp 2 1 0x1FF ∧ decodeSyl 2 1 0b101110000001 = .bcc 2 1 0xE 1 ∧
    decodeSyl 2 1 0b110010000011 = .clrb 2 1 3 ∧ decodeSyl 2 1 0b111010000000 = .pfx 2 1 0x80 := by decide
theorem test_decode_stack : decodeSyl 0 0 0b111100000011 = .swap 0 0 ∧ decodeSyl 0 0 0b111100001100 = .tor 0 0 := by decide
theorem test_decode_arith : decodeSyl 0 0 0b111100010001 = .sub 0 0 ∧ decodeSyl 0 0 0b111100110010 = .mac 0 0 := by decide
theorem test_decode_logic : decodeSyl 0 0 0b111100100111 = .rol 0 0 ∧ decodeSyl 0 0 0b111100111001 = .tli 0 0 := by decide
theorem test_decode_memory : decodeSyl 0 0 0b111101000110 = .st2 0 0 ∧ decodeSyl 0 0 0b111101001100 = .lck 0 0 := by decide
theorem test_decode_bits : decodeSyl 0 0 0b111101010101 = .putb 0 0 ∧ decodeSyl 0 0 0b111101011101 = .waitn 0 0 := by decide
theorem test_decode_control : decodeSyl 0 0 0b111101011011 = .rete 0 0 ∧ decodeSyl 0 0 0b111101100011 = .swapctx 0 0 := by decide
theorem test_decode_logs : decodeSyl 0 0 0b111101110010 = .lemb 0 0 ∧ decodeSyl 0 0 0b111101110110 = .etrig 0 0 := by decide
theorem test_decode_open : decodeSyl 0 0 0b111111000000 = .openCode 0 0 0 ∧ decodeSyl 0 0 0b111110111111 = .unassignedOp 0 0 0xBF := by decide

/-! An ill-formed term for each check of WellFormed. -/

theorem test_wf_unassigned : (Instr.unassignedOp 0 0 0x00).wf = false ∧ (Instr.unassignedOp 0 0 0x3A).wf = true := by decide
theorem test_wf_channel : (Instr.channelSample 48).wf = false ∧ (Instr.channelSample 47).wf = true := by decide
theorem test_wf_can :
    (Instr.canFrame 0 { id := 2048, ide := false, fdf := false, brs := false, esi := false, rtr := false, dlc := 0, data := [] } true).wf = false ∧
    (Instr.canFrame 0 { id := 1, ide := false, fdf := false, brs := true, esi := false, rtr := false, dlc := 0, data := [] } true).wf = false ∧
    (Instr.canFrame 0 { id := 1, ide := false, fdf := false, brs := false, esi := false, rtr := false, dlc := 9, data := [1] } true).wf = false ∧
    (Instr.canFrame 0 { id := 1, ide := false, fdf := true, brs := false, esi := false, rtr := true, dlc := 0, data := [] } true).wf = false := by decide
theorem test_wf_object : (Instr.captureObjectWrite (.channel 48 0) 0).wf = false ∧ (Instr.captureObjectWrite (.spi 24 0) 0).wf = false ∧
    (Instr.captureObjectWrite (.can 0 7) 0).wf = false ∧ (Instr.captureObjectWrite (.th 0 3) 0).wf = false ∧
    (Instr.captureObjectWrite (.cf 0 5) 0).wf = false ∧ (Instr.captureObjectWrite (.gpio 3) 0).wf = false := by decide
theorem test_wf_register : (Instr.registerWrite (.bar 2 0xF 0)).wf = false ∧ (Instr.registerWrite (.bar64 4 0)).wf = false ∧
    (Instr.registerWrite (.cell2 0 1 0)).wf = false := by decide
theorem test_wf_answers : (Instr.pollComplete (some [1])).wf = false ∧ (Instr.descriptorReadComplete 0 (some [1])).wf = false ∧
    (Instr.bqFetchComplete 0 (some [])).wf = false := by decide

/-! One step of a command, from the queue. -/

theorem test_idle_step : ∃ s', step (on 1 1) = .next s' ∧ s'.pil.ph.clk = 1 ∧ s'.pending = [] :=
  ⟨_, rfl, by decide +kernel, by decide +kernel⟩
theorem test_add_step : ∃ s', step { due 0xF10 [3, 4] with pending := [.add 0 0] } = .next s' ∧ (s'.th 0 0).top 0 = 7 ∧ (s'.th 0 0).w = 1 :=
  ⟨_, rfl, by decide, by decide⟩

/-! States and operands that meet the premises of each statement (met_<statement>). -/

/-- A state that meets the invariant. -/
theorem on_inv : (on 1 1).Inv := { mems := by decide, fuses := fun a => BitVec.and_not_self _ }

theorem met_StepRunsFront : (on 1 1).pending = [] := rfl
theorem met_StepKeepsInv : ∃ s s' : State, s.Inv ∧ step s = .next s' :=
  ⟨{ on 1 1 with pending := [.nonceExpiry] }, _, { mems := on_inv.mems, fuses := on_inv.fuses }, rfl⟩
theorem met_SyllableRoundTrip : sylIssuer (.unassignedOp 3 5 0xBF) = some (3, 5) ∧ (Instr.unassignedOp 3 5 0xBF).wf = true := by decide

/-- The device in standby. -/
def standby : State :=
  ((on 1 1).modPw (fun p => { p with life := .standby, start := {} })).modWk (fun w => { w with standbyRun := true })

theorem met_ResetsKeepPhases : standby.pw.life = .standby ∧ standby.pending = [] ∧ standby.pil.ph.xtal = true ∧
    standby.pil.ph.tickLost = false := by decide

theorem met_StackMoves : Ready (due 0xF0A [1, 2, 3, 4]) 0x0A 4 0 ∧ Ready (due 0xF01 [9]) 0x01 1 1 ∧
    Ready (due 0xF0C [1]) 0x0C 1 0 ∧ ((due 0xF0C [1]).th 0 0).rsBad 0 1 = false ∧
    Ready ((due 0xF0D [1]).with0 (fun u => { u with rsd := 16 })) 0x0D 0 1 ∧
    (((due 0xF0D [1]).with0 (fun u => { u with rsd := 16 })).th 0 0).rsBad 1 0 = false ∧
    (((due 0xF0E [1]).with0 (fun u => { u with rsd := 1 })).th 0 0).rsBad 1 1 = false :=
  ⟨ready_of _ _ _ _ (by decide), ready_of _ _ _ _ (by decide), ready_of _ _ _ _ (by decide), by decide,
   ready_of _ _ _ _ (by decide), by decide, by decide⟩
theorem met_SumsAndLogic : Ready (due 0xF10 [0x7FFFFF, 1]) 0x10 2 0 ∧ Ready (due 0xF15 [0x800000]) 0x15 1 0 ∧
    Ready (due 0xF1E [0xFFFFFF, 0xFFFFFF, 0, 1]) 0x1E 4 0 ∧ Ready (due 0xF2B [0]) 0x2B 1 0 :=
  ⟨ready_of _ _ _ _ (by decide), ready_of _ _ _ _ (by decide), ready_of _ _ _ _ (by decide), ready_of _ _ _ _ (by decide)⟩
theorem met_ShiftsAndRotations : Ready (due 0xF24 [25, 0x800001]) 0x24 2 0 ∧ Ready (due 0xF27 [24, 5]) 0x27 2 0 :=
  ⟨ready_of _ _ _ _ (by decide), ready_of _ _ _ _ (by decide)⟩
theorem met_ProductsAndDivisions : Ready (due 0xF35 [0xFFFFFF, 0x800000]) 0x35 2 0 ∧ Ready (due 0xF30 [2, 3]) 0x30 2 0 ∧
    Ready ((due 0xF33 []).with0 (fun u => { u with pend := [(2, 6)] })) 0x33 0 1 :=
  ⟨ready_of _ _ _ _ (by decide), ready_of _ _ _ _ (by decide), ready_of _ _ _ _ (by decide)⟩
theorem met_Conditions : Due (due (bccW 1 3) []) 0 0 (bccW 1 3) ∧ condHolds ((due (bccW 1 3) []).th 0 0).status 1 = true ∧
    Due (due (bccW 0 3) []) 0 0 (bccW 0 3) ∧ condHolds ((due (bccW 0 3) []).th 0 0).status 0 = false ∧ Ready (due 0xF56 []) 0x56 0 0 :=
  ⟨due_of _ _ (by decide), by decide, due_of _ _ (by decide), by decide, ready_of _ _ _ _ (by decide)⟩
theorem met_LiteralsAndBranches : Due (due (litW 5) []) 0 0 (litW 5) ∧ ((due (litW 5) []).th 0 0).winCheck 0 1 = .ok ∧
    Due (due (callW 5) []) 0 0 (callW 5) ∧ ((due (callW 5) []).th 0 0).rsBad 0 1 = false ∧
    Due ((due (pfxW 5) []).with0 (fun u => { u with pk := 1 })) 0 0 (pfxW 5) ∧
    Due ((due (pfxW 5) []).with0 (fun u => { u with pk := 2 })) 0 0 (pfxW 5) ∧
    Ready (due 0xF59 [0x0FFFFF]) 0x59 1 0 ∧ Ready (due 0xF5A [0x100000]) 0x5A 1 0 ∧
    Ready ((due 0xF58 []).with0 (fun u => { u with rsd := 1 })) 0x58 0 0 ∧
    (((due 0xF58 []).with0 (fun u => { u with rsd := 1 })).th 0 0).rsBad 1 0 = false :=
  ⟨due_of _ _ (by decide), by decide, due_of _ _ (by decide), by decide, due_of _ _ (by decide), due_of _ _ (by decide),
   ready_of _ _ _ _ (by decide), ready_of _ _ _ _ (by decide), ready_of _ _ _ _ (by decide), by decide⟩

theorem met_Loads :
    LoadKind.cell.fault (due 0xF40 [0x3FFF]) true 0x3FFF = none ∧ Ready (due 0xF40 [0x3FFF]) 0x40 1 0 ∧
    sbLook ((due 0xF40 [0x3FFF]).core 0).sb 0x3FFF .cell = .miss ∧ region 0x3FFF = .local_ ∧
    sbLook (((due 0xF40 [8]).stored 8).core 0).sb 8 .cell = .hit 9 ∧
    LoadKind.dbl.fault (due 0xF45 [0x100000]) true 0x100000 = none ∧ region 0x100000 = .shared ∧
    ((due 0xF45 [0x100000]).core 0).maySlot (.thread 0) = true ∧ Ready (due 0xF45 [0x100000]) 0x45 1 1 :=
  ⟨by decide, ready_of _ _ _ _ (by decide), by decide, by decide, by decide, by decide, by decide, by decide, ready_of _ _ _ _ (by decide)⟩
theorem met_StoresAndChecks :
    accFault (due 0xF41 [0x1FFFFF, 1]) true 0x1FFFFF .cell true = none ∧ ((due 0xF41 [0x1FFFFF, 1]).core 0).sb.length < 16 ∧
    Ready (due 0xF41 [0x1FFFFF, 1]) 0x41 2 0 ∧ tineFault (due 0xF44 [0x7FFF, 1]) true 0x7FFF true = none ∧
    accFault (due 0xF46 [0x3FFE, 1, 2]) true 0x3FFE .dbl true = none ∧ Ready (due 0xF46 [0x3FFE, 1, 2]) 0x46 3 0 ∧
    accFault (on 1 1) false 0x0F0000 .cell false = some .priv ∧ accFault (on 1 1) true 1 .dbl false = some .misalign ∧
    accFault (on 1 1) true 0x4000 .cell false = some .buserr :=
  ⟨by decide, by decide, ready_of _ _ _ _ (by decide), by decide, by decide, ready_of _ _ _ _ (by decide), by decide, by decide, by decide⟩
theorem met_DeferredAndLocked :
    accFault (due 0xF47 [5]) true 5 .cell false = none ∧ ((due 0xF47 [5]).th 0 0).dl.length < 2 ∧
    ((due 0xF47 [5]).core 0).maySlot (.thread 0) = true ∧ sbLook ((due 0xF47 [5]).core 0).sb 5 .cell = .miss ∧ Ready (due 0xF47 [5]) 0x47 1 0 ∧
    Ready ((due 0xF48 []).with0 (fun u => { u with dl := [{ a := 5, upto := 0 }] })) 0x48 0 1 ∧
    Ready ((due 0xF48 []).with0 (fun u => { u with dl := [{ a := 5, upto := 0 }], status := 0x1840 })) 0x48 0 1 ∧
    Ready (due 0xF4B []) 0x4B 0 0 ∧ Ready ((due 0xF4B []).stored 5) 0x4B 0 0 ∧
    Ready (due 0xF4C [0x100000]) 0x4C 1 0 ∧ Ready (due 0xF4C [0x200000]) 0x4C 1 0 ∧
    Ready ((due 0xF4D []).with0 (fun u => { u with lockN := some 1 })) 0x4D 0 0 ∧ Ready (due 0xF4D []) 0x4D 0 0 :=
  ⟨by decide, by decide, by decide, by decide, ready_of _ _ _ _ (by decide), ready_of _ _ _ _ (by decide), ready_of _ _ _ _ (by decide),
   ready_of _ _ _ _ (by decide), ready_of _ _ _ _ (by decide), ready_of _ _ _ _ (by decide), ready_of _ _ _ _ (by decide),
   ready_of _ _ _ _ (by decide), ready_of _ _ _ _ (by decide)⟩
/-- The SR_LL place of a load that is outstanding. -/
def outstanding (s : State) : State := s.with0 (fun u => { u with dl := [{ a := 9, upto := 0 }] })

theorem met_DeferredAndLocked_ldd :
    (sbLook (((due 0xF47 [5]).stored 5).core 0).sb 5 .cell = .hit 9 ∧ Ready ((due 0xF47 [5]).stored 5) 0x47 1 0) ∧
    (Ready (outstanding (due 0xF47 [5])) 0x47 1 0 ∧ ((outstanding (due 0xF47 [5])).th 0 0).dl.length < 2 ∧
      ((outstanding (due 0xF47 [5])).core 0).maySlot (.thread 0) = true) ∧
    (region 0x1FFFFF = .shared ∧ Ready (due 0xF47 [0x1FFFFF]) 0x47 1 0 ∧
      accFault (due 0xF47 [0x1FFFFF]) true 0x1FFFFF .cell false = none) ∧
    (let s := (due 0xF47 [5]).modCore 0 (fun k => { k with sb := [{ entry 4 with size := .dbl }], sbNext := 1 })
     sbLook (s.core 0).sb 5 .cell = .wait 1 ∧ Ready s 0x47 1 0) :=
  ⟨⟨by decide, ready_of _ _ _ _ (by decide)⟩, ⟨ready_of _ _ _ _ (by decide), by decide, by decide⟩,
   ⟨by decide, ready_of _ _ _ _ (by decide), by decide⟩, ⟨by decide, ready_of _ _ _ _ (by decide)⟩⟩
theorem met_BitsAndWaits :
    Due (due (bitW 0 0x7F) []) 0 0 (bitW 0 0x7F) ∧
    Due ((due (bitW 0 0) []).with0 (fun u => { u with pk := 1, pacc := 0x20 })) 0 0 (bitW 0 0) ∧
    Ready (due 0xF51 [0x13FF]) 0x51 1 0 ∧ Ready (due 0xF50 [0x1000]) 0x50 1 0 ∧ Ready (due 0xF54 [0]) 0x54 1 0 ∧
    Ready (due 0xF55 [0xFFF, 1]) 0x55 2 0 ∧ Ready (due 0xF55 [0x1000, 1]) 0x55 2 0 ∧
    Ready (due 0xF5C [5]) 0x5C 1 0 ∧ (due 0xF5C [5]).readBit 0 ((due 0xF5C [5]).th 0 0) 5 = false ∧
    ((due 0xF5C [5]).with0 (fun u => { u with bits := 32 })).readBit 0 (((due 0xF5C [5]).with0 (fun u => { u with bits := 32 })).th 0 0) 5 = true ∧
    Ready (due 0xF5D [32, 0x60]) 0x5D 2 0 ∧ bitRange 0x60 = bitRange (0x60 + 32 - 1) ∧ Ready (due 0xF5D [32, 0x61]) 0x5D 2 0 ∧
    bitRange 0x61 ≠ bitRange (0x61 + 32 - 1) :=
  ⟨due_of _ _ (by decide), due_of _ _ (by decide), ready_of _ _ _ _ (by decide), ready_of _ _ _ _ (by decide), ready_of _ _ _ _ (by decide),
   ready_of _ _ _ _ (by decide), ready_of _ _ _ _ (by decide), ready_of _ _ _ _ (by decide), by decide, by decide,
   ready_of _ _ _ _ (by decide), by decide, ready_of _ _ _ _ (by decide), by decide⟩
theorem met_SpecialRegisters :
    Ready (due 0xF60 [8]) 0x60 1 0 ∧ Ready (due 0xF62 [6]) 0x62 1 1 ∧ Ready (due 0xF61 [0, 0x3F]) 0x61 2 0 ∧
    Ready (due 0xF61 [3, 7]) 0x61 2 0 ∧ ((due 0xF61 [3, 7]).th 0 0).dl = [] ∧ Ready (due 0xF61 [5, 7]) 0x61 2 0 ∧
    ((due 0xF61 [5, 7]).th 0 0).status.getLsbD 6 = true ∧ ((due 0xF61 [5, 7]).th 0 0).xfer = none ∧
    Ready ((due 0xF61 [4, 7]).with0 (fun u => { u with status := 0x800 })) 0x61 2 0 ∧ Ready (due 0xF60 [9]) 0x60 1 0 :=
  ⟨ready_of _ _ _ _ (by decide), ready_of _ _ _ _ (by decide), ready_of _ _ _ _ (by decide), ready_of _ _ _ _ (by decide), by decide,
   ready_of _ _ _ _ (by decide), by decide, by decide, ready_of _ _ _ _ (by decide), ready_of _ _ _ _ (by decide)⟩

/-- Two return-stack entries, the lower `p`. -/
def twoRs (p : Cell) (s : State) : State := s.with0 (fun u => { u with rs := u.rs.set 1 p, rsd := 2, rsp := 2 })

theorem met_TrapsAndReturns :
    Ready ((due 0xF5E [7]).with0 (fun u => { u with rsd := 14 })) 0x5E 1 0 ∧
    Ready (twoRs 0xFFFFF (due 0xF5B [])) 0x5B 0 0 ∧ ((twoRs 0xFFFFF (due 0xF5B [])).th 0 0).rsBad 2 0 = false ∧
    ((twoRs 0xFFFFF (due 0xF5B [])).th 0 0).rs.get 1 = 0xFFFFF ∧ Ready (twoRs 0x100000 (due 0xF5B [])) 0x5B 0 0 ∧
    ((twoRs 0x100000 (due 0xF5B [])).th 0 0).rs.get 1 = 0x100000 ∧
    Ready ((twoRs 0 (due 0xF5B [])).with0 (fun u => { u with status := 0x800 })) 0x5B 0 0 ∧
    Ready (due 0xF5F []) 0x5F 0 0 ∧ ((due 0xF5F []).core 0).attached = false ∧
    Ready ((due 0xF5F []).modCore 0 (fun k => { k with attached := true })) 0x5F 0 0 ∧ isUnassigned 0x3F = true ∧ Ready (due 0xF3F []) 0x3F 0 0 :=
  ⟨ready_of _ _ _ _ (by decide), ready_of _ _ _ _ (by decide), by decide, by decide, ready_of _ _ _ _ (by decide), by decide,
   ready_of _ _ _ _ (by decide), ready_of _ _ _ _ (by decide), by decide, ready_of _ _ _ _ (by decide), by decide, ready_of _ _ _ _ (by decide)⟩
theorem met_TrapsAndReturns_full :
    let s := (due 0xF5E [7]).with0 (fun u => { u with rsd := 15 })
    Ready s 0x5E 1 0 ∧ (s.th 0 0).status.getLsbD 11 = true := ⟨ready_of _ _ _ _ (by decide), by decide⟩
theorem met_FaultEntries :
    let s := due 0xF00 []
    (s.th 0 0).lockN = none ∧ (s.th 0 0).st = .ready ∧ (s.th 0 0).status.getLsbD 10 = false ∧ ¬(15 ≤ (s.th 0 0).rsd) ∧
    (let q := s.with0 (fun u => { u with rsd := 15 }); (q.th 0 0).status.getLsbD 11 = true ∧ (q.th 0 0).st = .ready) ∧
    (let q := s.with0 (fun u => { u with status := 0xC40 }); (q.th 0 0).status.getLsbD 10 = true ∧ (q.th 0 0).lockN = none) := by decide
theorem met_PhaseReads : ((due 0xF6B []).core 0).maySlot (.thread 0) = true ∧ Ready (due 0xF6B []) 0x6B 0 6 ∧ Ready (due 0xF68 []) 0x68 0 2 :=
  ⟨by decide, ready_of _ _ _ _ (by decide), ready_of _ _ _ _ (by decide)⟩

/-- A table of two entries, 10 and 20, at 0 and at 4, in local memory at cell 0. -/
def table (x : Cell) : State := (due 0xF39 [0, x]).modCore 0 (fun k => { k with lmem := [(0, 2), (2, 2), (3, 10), (4, 20)] })

theorem met_TableInterpolation : Ready (table 4) 0x39 2 0 ∧ Ready (table 5) 0x39 2 0 ∧ Ready (table 1) 0x39 2 0 ∧
    Ready (table 0xFFFFFF) 0x39 2 0 ∧ Ready (due 0xF39 [0x3FFD, 0]) 0x39 2 0 ∧ (table 4).cellMem 0 0 = 2 ∧ (table 4).cellMem 0 2 = 2 ∧
    (∀ k, k ∈ [0, 1, 2, 3, 4] → region (0 + k) = region 0 ∧ overCells ((table 4).core 0).sb (0 + k) 1 = [] ∧
      (table 4).lineHeldByOther 0 (0 + k) = false) :=
  ⟨ready_of _ _ _ _ (by decide), ready_of _ _ _ _ (by decide), ready_of _ _ _ _ (by decide), ready_of _ _ _ _ (by decide),
   ready_of _ _ _ _ (by decide), by decide, by decide, by decide⟩
/-- A frozen window without pre cells. -/
def window : Win := { half := false, lo := 0x200000, size := 128, fp := 0, d := 0, complete := true }
/-- Log slot 0 of core 0 open, a window of ring 15 waiting. -/
def logging (w : Syl) (xs : List Cell) : State :=
  ((due w xs).modSlot 0 (fun l => { l with state := .open_ })).modRing 15 (fun r => { r with en := true, h0 := .post, wins := [window] })

theorem met_LogSyllables :
    (logging 0xF70 [0x7F]).fb.hearth.down = false ∧ (logging 0xF70 [0x7F]).fb.hearth.training = false ∧
    Ready (logging 0xF70 [0x7F]) 0x70 1 0 ∧ (logging 0xF70 [0x7F]).openCode 0 0x7F = 0 ∧ (logging 0xF70 [0x7F]).freeLogSlot = some 1 ∧
    (logging 0xF70 [0x80]).openCode 0 0x80 = 3 ∧
    (logging 0xF71 [0, 1, 0x3FFF]).handle 0 0 = some 0 ∧ Ready (logging 0xF71 [0, 1, 0x3FFF]) 0x71 3 0 ∧ appendPlace 0x3FFF 1 = true ∧
    ((logging 0xF71 [0, 1, 0x3FFF]).hs.slots.get 0).state = .open_ ∧ (logging 0xF71 [0, 1, 0x3FFF]).canReserve 0 3 = true ∧
    ((logging 0xF71 [0, 1, 0x3FFF]).hs.slots.get 0).size + 3 ≤ 261120 ∧
    Ready (logging 0xF72 [0, 15]) 0x72 2 0 ∧ ((logging 0xF72 [0, 15]).fb.rings.get 15).oldest.isSome = true ∧
    (logging 0xF72 [0, 15]).canReserve 0 141 = true ∧
    Ready (logging 0xF73 [0]) 0x73 1 0 ∧ Ready (logging 0xF74 [0]) 0x74 1 0 ∧ Ready (logging 0xF75 [0]) 0x75 1 0 ∧
    Ready (due 0xF76 [16]) 0x76 1 0 ∧ Ready (due 0xF76 [15]) 0x76 1 0 :=
  ⟨by decide, by decide, ready_of _ _ _ _ (by decide), by decide, by decide, by decide, by decide, ready_of _ _ _ _ (by decide), by decide,
   by decide, by decide, by decide, ready_of _ _ _ _ (by decide), by decide, by decide, ready_of _ _ _ _ (by decide),
   ready_of _ _ _ _ (by decide), ready_of _ _ _ _ (by decide), ready_of _ _ _ _ (by decide), ready_of _ _ _ _ (by decide)⟩
theorem met_LogSyllables_more :
    (logging 0xF71 [1, 1, 0x3FFF]).handle 0 1 = none ∧ appendPlace 0x3FFF 1 = true ∧ Ready (logging 0xF71 [1, 1, 0x3FFF]) 0x71 3 0 ∧
    appendPlace 0x3FFF 2 = false ∧ Ready (logging 0xF71 [0, 2, 0x3FFF]) 0x71 3 0 ∧
    ((logging 0xF72 [0, 15]).fb.rings.get 15).oldest = some window ∧ window.copying = false ∧
    (let s := (due 0xF76 [15]).modRing 15 (fun r => { r with trigsel := BitVec.ofNat _ (2 ^ 28) })
     Ready s 0x76 1 0 ∧ (s.fb.rings.get 15).trigsel.getLsbD 28 = true) :=
  ⟨by decide, by decide, ready_of _ _ _ _ (by decide), by decide, ready_of _ _ _ _ (by decide), by decide, by decide,
   ready_of _ _ _ _ (by decide), by decide⟩
theorem met_LogSyllables_append :
    let g : Seg := { a := 5, n := 1, resv := 3 }
    let s : State := { on 1 1 with hs := { (on 1 1).hs with slots := (on 1 1).hs.slots.set 0 { state := .committing, segs := [g] } } }
    (s.hs.slots.get 0).segs = [] ++ g :: [] ∧ g.fin = false ∧ g.copy = none ∧ (s.hs.slots.get 0).state = .committing ∧
    s.hearthUp = true ∧ drained (s.core 0).sb g.upto = true ∧ s.linesHeld 0 g.a.toNat g.n = false := by decide

/-- Open code 0 installed on core 0, its routine the one word `w`. -/
def routine (w : BitVec 96) : State :=
  (due 0xFC0 []).modCore 0 (fun k =>
    { k with cs := { k.cs with openIn := true, openw := [(0xC00, w)], disp := k.cs.disp.set 0 0x80000000 } })

theorem met_OpenRoutines : ((routine (2 ^ 73)).core 0).cs.entry 0 = some { nin := 0, nout := 0, mOnly := false, first := 0xC00 } ∧
    ((routine (2 ^ 73)).th 0 0).status.getLsbD 13 = false ∧ Ready (routine (2 ^ 73)) 0xC0 0 0 :=
  ⟨rfl, by decide, ready_of _ _ _ _ (by decide)⟩
theorem met_OpenRoutines_end :
    let r : Routine := { t := 0, pc := 0x100, code := 0 }
    let s := (routine (2 ^ 73)).modCore 0 (fun k => { k with seq := some r })
    (s.core 0).seq = some r ∧ s.routineEnd 0 r = .done 0xC00 [0, 0, 0, 0] 0x840 [] ∧ (s.core 0).sb.length ≤ 16 := by decide +kernel

theorem met_OpenRoutines_fault :
    ((routine (7 * 2 ^ 93)).core 0).cs.entry 0 ≠ none ∧ (routine (7 * 2 ^ 93)).fclkOn = true ∧
    (routine (7 * 2 ^ 93)).routineEnd 0 { t := 0, pc := 0x100, code := 0 } = .seqFault 1 0xC00 :=
  ⟨nofun, by decide, by decide +kernel⟩

/-- Thread 0 of core 0 blocked in a load at `a`. -/
def loading (a : Cell) : State :=
  (on 1 1).with0 (fun u => { u with st := .blocked, why := .load .cell a 0x100 0, w := 1, pc := 0x101 })

theorem met_LoadsAndStoresComplete :
    (loading 0x100000).fclkOn = true ∧ ((loading 0x100000).th 0 0).why = .load .cell 0x100000 0x100 0 ∧ drained ((loading 0x100000).core 0).sb 0 = true ∧
    1 ≤ ((loading 0x100000).th 0 0).w ∧ (loading 0x100000).linkDead 0x100000 = false ∧ (loading 0x100000).accWaits 0 0x100000 = false ∧
    (loading 0x0F00E4).linkDead 0x0F00E4 = false ∧ (loading 0x0F1006).accWaits 0 0x0F1006 = false ∧
    ((loading 0x0F3000).modFb (fun f => { f with plink := { f.plink with down := true } })).linkDead 0x0F3000 = true ∧
    (let s := (on 1 1).with0 (fun u => { u with dl := [{ a := 0x1FFFFF, upto := 0 }] })
     (s.th 0 0).dl = [{ a := 0x1FFFFF, upto := 0 }] ∧ s.accWaits 0 0x1FFFFF = false ∧ drained (s.core 0).sb 0 = true ∧
     (s.th 0 0).why = .none ∧ region 0x1FFFFF = .shared) ∧
    (let s := (on 1 1).stored 0x3FFF
     s.fclkOn = true ∧ (s.core 0).sb = [entry 0x3FFF] ∧ s.lineHeldByOther 0 0x3FFF = false ∧ region 0x3FFF = .local_ ∧
     Memory.wf (s.core 0).lmem = true ∧ Memory.wf s.fb.shared = true) := by decide
/-- A thread that waits for nothing meets the two premises of LoadsAndStoresComplete on `why`. -/
theorem met_LoadsAndStoresComplete_why (u : Why) (h : u = .none) : u ≠ .pushll ∧ ∀ n, u ≠ .deferred n := by
  subst h; exact ⟨nofun, fun _ => nofun⟩
theorem met_TransfersAndLines :
    (let s := (on 1 1).modCore 0 (fun k => { k with fills := [0xFFFF] }); 0xFFFF ∈ (s.core 0).fills) ∧
    (let h : Hold := { line := 0x10000, core := 0, th := 0 }
     ((on 1 1).modFb (fun f => { f with wants := [h] })).nextHold 0x10000 = some h) ∧
    (let s := ((on 1 1).with0 (fun u => { u with xfer := some { kind := .spill, grp := 3 }, w := 32, dslimit := 0x3FF8 })).modCore 0
       (fun k => { k with bq := [.xfer 0] })
     (s.core 0).bell = none ∧ (s.core 0).bq = [.xfer 0] ∧ (s.core 0).maySlot .bell = true ∧ s.bellReady 0 (.xfer 0) = true) ∧
    (let s := ((on 1 1).with0 (fun u => { u with xfer := some { kind := .fill, grp := 3 }, w := 8, spc := 8, dsbase := 0x3FF8 })).modCore 0
       (fun k => { k with bell := some (.xfer 0) })
     s.fclkOn = true ∧ s.linesHeld 0 ((s.th 0 0).dsbase.toNat + (s.th 0 0).spc - 8) 8 = false ∧
     (s.core 0).bell = some (.xfer 0) ∧ (s.th 0 0).xfer = some { kind := .fill, grp := 3 } ∧
     (s.th 0 0).dsbase.toNat + (s.th 0 0).spc - 8 + 8 ≤ 0x4000 ∧ Memory.wf (s.core 0).lmem = true) ∧
    (∀ v ∈ [true, false],
     let s := ((on 1 1).with0 (fun u => { u with xfer := some { kind := .spill, grp := 3, voided := v }, w := 32, dslimit := 0x3FF8 })).modCore 0
       (fun k => { k with bell := some (.xfer 0) })
     (s.core 0).bell = some (.xfer 0) ∧ (s.th 0 0).xfer = some { kind := .spill, grp := 3, voided := v } ∧
     s.linesHeld 0 ((s.th 0 0).dsbase.toNat + (s.th 0 0).spc) 8 = false) := by decide
/-- Lock line 0x10000, wanted by cores 15 and 3, last held by core 2: it is core 3's turn. -/
theorem met_TransfersAndLines_turn :
    let h (c : CoreId) : Hold := { line := 0x10000, core := c, th := 0 }
    let s := (on 1 1).modFb (fun f => { f with wants := [h 15, h 3], lastHold := [(0x10000, 2)] })
    s.nextHold 0x10000 = some (h 3) ∧ h 3 ∈ s.fb.wants ∧ s.fb.holds = [] := by decide
theorem met_ContextSwaps : Ready (due 0xF63 [0x40]) 0x63 1 0 ∧ ((due 0xF63 [0x40]).th 0 0).status.getLsbD 6 = true ∧
    Ready ((due 0xF63 [0x40]).with0 (fun u => { u with status := 0x800 })) 0x63 1 0 ∧
    (let s := ((on 1 1).with0 (fun u => { u with why := .swap 0x40 0x100, st := .blocked })).modCore 0
       (fun k => { k with bell := some (.swap 0), lmem := [(0x40, 0x840)] })
     (s.core 0).bell = some (.swap 0) ∧ (s.th 0 0).why = .swap 0x40 0x100 ∧ s.fclkOn = true ∧
     s.linesHeld 0 (s.th 0 0).ctxa.toNat 64 = false ∧ s.linesHeld 0 0x40 64 = false ∧
     blockOk ((s.saveCtx 0 (s.th 0 0)).cellsMem 0 0x40 64) = true ∧ (s.th 0 0).ctxa.toNat % 64 = 0 ∧ region (s.th 0 0).ctxa.toNat = .local_) :=
  ⟨ready_of _ _ _ _ (by decide), by decide, ready_of _ _ _ _ (by decide), by decide +kernel⟩
theorem met_ContextSwaps_asked :
    let free (s : State) (a : Cell) : Prop :=
      let u := s.th 0 0
      u.xfer = none ∧ (u.popPush 1 []).wantXfer = none ∧ u.dl = [] ∧ overCells (s.core 0).sb u.ctxa.toNat 64 = [] ∧
      overCells (s.core 0).sb a.toNat 64 = [] ∧ .swap 0 ∉ (s.core 0).bq ∧ (s.core 0).bell ≠ some (.swap 0)
    (let s := (due 0xF63 [0x40]).modCore 0 (fun k => { k with lmem := [(0x40, 0x840)] })
     free s 0x40 ∧ Ready s 0x63 1 0 ∧ (blockPlace 0x40 && blockOk (s.cellsMem 0 0x40 64)) = true) ∧
    (let s := due 0xF63 [0x41]
     free s 0x41 ∧ Ready s 0x63 1 0 ∧ blockPlace 0x41 = false ∧ (s.th 0 0).status.getLsbD 10 = false ∧
     (s.th 0 0).status.extractLsb' 7 3 ≠ 7 ∧ (s.th 0 0).rsd < 15) ∧
    (¬free (outstanding (due 0xF63 [0x40])) 0x40 ∧ Ready (outstanding (due 0xF63 [0x40])) 0x63 1 0) :=
  ⟨⟨by decide, ready_of _ _ _ _ (by decide), by decide⟩, ⟨by decide, ready_of _ _ _ _ (by decide), by decide⟩,
   ⟨by decide, ready_of _ _ _ _ (by decide)⟩⟩
theorem met_BoundariesAndLockups :
    (let s := (due 0xF00 []).with0 (fun u => { u with bits := 2 ^ 127, arms := u.arms.set 7 { bit := 0x7F, level := 7, en := true } })
     s.atIssue 0 0 = true ∧ (s.th 0 0).stopReq = false ∧ (s.th 0 0).haltReq = false ∧ (s.th 0 0).step ≠ some true ∧
     ((s.th 0 0).status.extractLsb' 7 3).toNat < s.pendLevel 0 (s.th 0 0)) ∧
    (let s := (due 0xF00 []).with0 (fun u => { u with stopReq := true }); s.atIssue 0 0 = true) ∧
    (let s := (due 0xF00 []).with0 (fun u => { u with haltReq := true }); s.atIssue 0 0 = true) ∧
    (let s := (due 0xF5D [1, 0x7F]).with0 (fun u => { u with st := .waiting, why := .bits true, bits := 2 ^ 127 })
     (s.th 0 0).st = .waiting ∧ (s.th 0 0).why = .bits true ∧ 2 ≤ (s.th 0 0).w ∧ s.coresRun = true ∧
     s.boundaryTaken 0 (s.th 0 0) = false ∧ s.readBit 0 (s.th 0 0) 0x7F = true) ∧
    (let l : Lockup := { t := 0, cause := 1, what := 2, quiet := true, reported := true }
     let s := (on 1 1).modCore 0 (fun k => { k with lockup := some l })
     (s.core 0).lockup = some l ∧ l.sent = false ∧ (s.core 0).quiescent = true ∧ s.plinkUp = true ∧ s.noteOk = true) := by decide +kernel
theorem met_AngleInputs :
    (on 1 1).plclk = true ∧ (on 1 1).pw.vddioA = true ∧ ((on 1 1).pil.ph.ang.get 3).level ≠ true ∧ (on 1 1).pil.ph.edge 3 = 0 ∧
    (on 1 1).pil.ph.pendCourse = false ∧ (on 1 1).pil.ph.rejects 5 (isTooth ((on 1 1).pil.ph.edge 5) true) = false ∧
    (let s := (on 1 1).modPh (fun p => { p with ang := p.ang.set 0 { lastTr := some 0, stopped := false } })
     s.pil.ph.clk - 0 < 10 * ((s.pil.ph.eff.get 0).extractLsb' 2 8).toNat ∧ (s.pil.ph.ang.get 0).stopped = false) ∧
    (let s := (on 1 1).modPh (fun p => { p with eff := p.eff.set 11 0x200000 })
     s.pil.ph.camEn = true ∧ (s.pil.ph.ang.get 5).level ≠ true ∧ isTooth (s.pil.ph.edge 5) true = true ∧
     s.pil.ph.rejects 5 (isTooth (s.pil.ph.edge 5) true) = false) ∧
    (let s := (on 1 1).modPh (fun p => { p with clk := 2 ^ 24, ang := p.ang.set 4 { lastTooth := some 0, stopped := false } })
     s.plclk = true ∧ (s.pil.ph.ang.get (inputNo .crank)).lastTooth = some 0 ∧ 0 + 2 ^ 24 ≤ s.pil.ph.clk) := by decide
theorem met_TickAndCheckpoints :
    (let s := (on 1 1).modPh (fun p => { p with xtal := false, sbN := 2 * p.ts })
     s.plclk = true ∧ s.pil.ph.xtal = false ∧ s.pil.ph.holdover = false ∧ s.pil.ph.tickLost = false ∧ 2 * s.pil.ph.ts ≤ s.pil.ph.sbN) ∧
    standby.pw.life = .standby ∧
    (let s := (on 1 1).modPh (fun p => { p with tick := 10 * 2 ^ 20, ckAdv := true, odoValid := true })
     s.plclk = true ∧ s.pil.ph.ckTick.toNat + 10 * 2 ^ 20 ≤ s.pil.ph.tick.toNat ∧ s.pil.ph.ckAdv = true ∧ s.pil.ph.odoValid = true ∧ s.vaultOn = true ∧
     s.fb.plink.down = false ∧ s.fb.hearth.down = false) := by decide
theorem met_Comparators :
    (let s := (on 1 1).modFb (fun f => { f with cmp := f.cmp.set 63 { en := true, periodic := true, incr := 1, src := 2 } })
     s.fireOn = true ∧ (s.fb.cmp.get 63).en = true ∧ (s.fb.mir.tick - (s.fb.cmp.get 63).target).msb = false ∧ (s.fb.cmp.get 63).incr ≠ 0) ∧
    (let s := (on 1 1).modFb (fun f => { f with cmp := f.cmp.set 0 { en := true, target := 1 } })
     (s.fb.mir.course - (s.fb.cmp.get 0).target).msb = true) := by decide
theorem met_StandbyWakes :
    standby.pil.wk.standbyRun = true ∧ standby.pil.wakePin = true ∧ standby.pil.cap.trigPin.getLsbD 3 ≠ true ∧
    standby.pw.vddioA = true ∧ standby.pil.ph.counted 0 = true ∧ (standby.pil.ph.ang.get 0).level ≠ true ∧
    isTooth (standby.pil.ph.edge 0) true = true ∧ standby.pil.ph.src = 0 ∧ standby.pil.ph.pendCourse = false ∧
    standby.pil.wk.req = false ∧ standby.pil.wk.distReq = false ∧
    (let s := standby.modWk (fun w => { w with count := 2500, lastTooth := some 0 })
     s.pil.ph.wakeTeeth ≤ s.pil.wk.count ∧ s.pil.ph.sbS - 0 ≤ 16) := by decide

/-- Every capture channel enabled in PERIODIC mode. -/
def capturing : State :=
  (on 1 1).modCap (fun c => { c with objs := (List.range 48).foldl (fun m n => memWrite m (Obj.channel n).base 1) c.objs })

theorem met_Samples :
    capturing.plclk = true ∧ capturing.pil.cap.chanEn 7 = true ∧ capturing.pil.cap.chanEn 31 = true ∧ capturing.pw.vddioB = true ∧
    capturing.pil.cap.chanEn 47 = true ∧ (capturing.pil.cap.objCell (.channel 47) 0).getLsbD 2 = false ∧ capturing.plinkUp = true ∧
    (let s := capturing.modCap (fun c => { c with adcq := [(4, 0)], spiDue := c.spiDue.set 3 [(5, 0)], spiRun := c.spiRun.set 0 (some 5) })
     s.pil.cap.adcq = [(3 + 1, 0)] ∧ s.pil.cap.spiRun.get 3 = none ∧ s.pil.cap.spiDue.get 3 = [(5, 0)] ∧ s.pil.cap.spiRun.get 0 = some 5 ∧
     s.pil.cap.chanEn (8 + 5) = true ∧ s.pil.tap.scanning = false) ∧
    capturing.pil.cap.canStored 1 { id := 5, ide := false, fdf := false, brs := false, esi := false, rtr := false, dlc := 0, data := [] } = true ∧
    capturing.pil.cap.streamFull 47 = false ∧
    (let s := capturing.modCap (fun c => { c with objs := memWrite (memWrite c.objs (Obj.channel 47).base 5) ((Obj.channel 47).base + 1) 0xFFF })
     let now := (s.modCap (fun c => { c with gpioIn := 0xFF })).discLevels
     s.pil.cap.chanEn 47 = true ∧ (s.pil.cap.objCell (.channel 47) 0).getLsbD 2 = true ∧ s.pil.cap.discAt.get 13 = none ∧
     (now ^^^ s.pil.cap.discLast.get 13) &&& (s.pil.cap.objCell (.channel 47) 1).setWidth 12 ≠ 0) ∧
    capturing.pw.vddioA = true ∧ capturing.pil.cap.trigLev.getLsbD 3 ≠ true ∧ capturing.pil.cap.trigPin.getLsbD 3 ≠ true ∧
    ((capturing.modCap (fun c => { c with objs := memWrite c.objs (Obj.trig 3).base 1 })).pil.cap.objField (.trig 3) 0 0 1 = 1) := by decide

/-- Ring 0 enabled and armed on the first 128 Ember cells, channel 0 mapped with TAG 3. -/
def armed : State :=
  capturing.modRing 0 (fun r => { r with en := true, h0 := .armed, base := 0x200000, len := 128, post := 64, chmap := r.chmap.set 3 0x800000 })
/-- One entry on its way. -/
def oneCell : StreamEntry := { ch := 0, g := true, q := false, cells := [0xABCD] }

theorem met_EntriesReachRings :
    (armed.modCap (fun c => { c with stream := [oneCell] })).pil.cap.stream = oneCell :: [] ∧ armed.plinkUp = true ∧ armed.fireOn = true ∧
    (armed.fb.rings.get 0).active = some false ∧ (armed.fb.rings.get 0).tagOf 0 = some 3 ∧
    (entryCells oneCell 3).length ≤ (armed.fb.rings.get 0).area ∧ (armed.fb.rings.get 0).wp < (armed.fb.rings.get 0).area ∧
    Memory.wf armed.fb.ember = true ∧ (armed.fb.rings.get 0).half false = .armed := by decide
/-- Table 8.2's fields of a single-cell entry: G at bit 21, TAG at 19:16, SAMPLE below. -/
theorem test_entry_cell : entryCells oneCell 3 = [0x23ABCD] := by decide
theorem met_TriggersAct :
    (armed.fb.rings.get 0).en = true ∧ armed.stoppedFor (armed.fb.rings.get 0) = false ∧ ((on 1 1).fb.rings.get 15).en = false ∧
    (∀ h, ((armed.modRing 0 (fun r => { r with h0 := .post })).fb.rings.get 0).active = some h →
      ((armed.modRing 0 (fun r => { r with h0 := .post })).fb.rings.get 0).half h ≠ .armed) ∧
    (let x : Pulse := { id := 1, at_ := 0, ring := 0, src := 28, tick := 0, course := 0, crank := 0 }
     (armed.modCap (fun c => { c with pulses := [x] })).pil.cap.pulses = [x] ∧
     (armed.modCap (fun c => { c with recs := [x] })).pil.cap.recs = x :: [] ∧
     (∀ y, y ∈ (armed.modCap (fun c => { c with recs := [x] })).pil.cap.pulses → y.id ≠ x.id)) := by decide

/-- A copy of a complete window of ring 0 into log slot 0, `n` of its two cells sent. -/
def copying (n : Nat) : State :=
  { armed with
    hs := { armed.hs with slots := armed.hs.slots.set 0 { state := .open_, segs := [{ copy := some { ring := 0, half := false, crec := false }, resv := 143 }] } },
    fb := { armed.fb with
      copies := [{ slot := 0, ring := 0, seg := 0, sent := n }],
      rings := armed.fb.rings.modify 0 (fun r => { r with
        wins := [{ half := false, lo := 0x200000, size := 128, fp := 2, d := 2, complete := true, copy := .inflight 0 0 }] }) } }

theorem met_WindowCopies :
    (copying 0).fb.copies = { slot := 0, ring := 0, seg := 0, sent := 0 } :: [] ∧
    ((copying 0).copyWin { slot := 0, ring := 0, seg := 0, sent := 0 }).isSome = true ∧ (copying 0).hearthUp = true ∧
    ((copying 2).copyWin { slot := 0, ring := 0, seg := 0, sent := 2 }).map (fun w => (w.complete, w.d + w.postw)) = some (true, 2) ∧
    (((copying 2).hs.slots.get 0).segs.getD 0 {}).copy ≠ none := by decide
theorem met_WindowCopies_states : (copying 0).fireOn = true ∧ 0 < ((copying 0).hs.slots.get 0).segs.length ∧
    (let s := (copying 2).modRing 0 (fun r => { r with wins := r.wins.map (fun w => { w with old := some { gen := 1, missed := 3, list := [] } }) })
     (s.copyWin { slot := 0, ring := 0, seg := 0, sent := 2 }).map (fun w => w.old.isSome) = some true) := by decide
theorem met_RingCells :
    ((on 1 1).fb.rings.get 0).en = false ∧
    (((armed.modRing 0 (fun r => { r with en := false })).modRing 0 (fun q => { q with paired := false, crec := false, core := 0 })).ringCheck 0 = 0) ∧
    (on 1 1).ringCheck 15 = 8 ∧ (armed.fb.rings.get 0).en = true ∧ (0x300000 : Cell) ≠ (armed.fb.rings.get 0).base.setWidth 24 ∧
    ((copying 0).modRing 0 (fun r => { r with wins := r.wins.map (fun w => { w with copy := .none }) }) |>.fb.rings.get 0).oldestFree.isSome = true := by decide

/-- Core 0 with its routine running, the one word `w`. -/
def running (w : BitVec 96) : State := (routine w).modCore 0 (fun k => { k with seq := some { t := 0, pc := 0x100, code := 0 } })
/-- A WAIT whose condition never holds. -/
def waitWord : BitVec 96 := 0xC00004000000000000000000
/-- A branch to itself. -/
def loopWord : BitVec 96 := 0x200000000000000000000000

theorem wait_cycle (t u o uc mdr ld st wq stk) (cyc hold : Nat) :
    microCycle (running waitWord) 0 ⟨0xC00, t, u, o, uc, mdr, none, ld, st, wq, stk, cyc, hold⟩ =
      if 8192 ≤ cyc + 1 then .inl (.tooLong 0xC00) else if 4096 ≤ hold + 1 then .inl (.waitTimeout 0xC00)
      else .inr ⟨0xC00, t, u, o, uc, mdr, none, ld, st, wq, stk, cyc + 1, hold + 1⟩ := by
  have hw : ((running waitWord).core 0#4).cs.word 0xC00 = waitWord := by decide +kernel
  have f : fieldN waitWord 93 3 = 6 ∧ fieldN waitWord 75 6 = 0 ∧ fieldN waitWord 67 6 = 0 ∧ fieldN waitWord 61 6 = 0 ∧
    fieldN waitWord 56 5 = 0 ∧ fieldN waitWord 51 5 = 0 ∧ fieldN waitWord 46 5 = 0 ∧ fieldN waitWord 24 5 = 0 ∧
    waitWord[73] = false ∧ waitWord[74] = true := by decide
  obtain ⟨f1, f2, f3, f4, f5, f6, f7, f8, b1, b2⟩ := f
  simp [microCycle, hw, f1, f2, f3, f4, f5, f6, f7, f8, b1, b2, MState.cond, srcReserved, dstReserved]

theorem wait_run (t u o uc mdr ld st wq stk) : ∀ n k : Nat, k < 4096 → 4096 ≤ k + n →
    microRun (running waitWord) 0 n ⟨0xC00, t, u, o, uc, mdr, none, ld, st, wq, stk, k, k⟩ = .waitTimeout 0xC00 := by
  intro n
  induction n with
  | zero => intro k h1 h2; omega
  | succ n ih =>
    intro k h1 h2
    rw [microRun, wait_cycle, if_neg (by omega)]
    by_cases h : 4096 ≤ k + 1
    · rw [if_pos h]
    · rw [if_neg h]; exact ih (k + 1) (by omega) (by omega)

theorem met_OpenRoutines_wait : (running waitWord).routineEnd 0 { t := 0, pc := 0x100, code := 0 } = .waitTimeout 0xC00 := by
  unfold State.routineEnd
  dsimp only
  exact wait_run _ _ _ _ _ _ _ _ _ 8193 0 (by decide) (by decide)

theorem loop_cycle (t u o uc mdr ld st wq stk) (cyc hold : Nat) :
    microCycle (running loopWord) 0 ⟨0xC00, t, u, o, uc, mdr, none, ld, st, wq, stk, cyc, hold⟩ =
      if 8192 ≤ cyc + 1 then .inl (.tooLong 0xC00) else .inr ⟨0xC00, t, u, o, uc, mdr, none, ld, st, wq, stk, cyc + 1, 0⟩ := by
  have hw : ((running loopWord).core 0#4).cs.word 0xC00 = loopWord := by decide +kernel
  have f : fieldN loopWord 93 3 = 1 ∧ fieldN loopWord 75 6 = 0 ∧ fieldN loopWord 67 6 = 0 ∧ fieldN loopWord 61 6 = 0 ∧
    fieldN loopWord 56 5 = 0 ∧ fieldN loopWord 51 5 = 0 ∧ fieldN loopWord 46 5 = 0 ∧ fieldN loopWord 24 5 = 0 ∧
    fieldN loopWord 29 3 = 0 ∧ fieldN loopWord 32 6 = 0 ∧ fieldN loopWord 81 12 = 0 ∧
    loopWord[73] = false ∧ loopWord[74] = false := by decide
  obtain ⟨f1, f2, f3, f4, f5, f6, f7, f8, f9, f10, f11, b1, b2⟩ := f
  simp [microCycle, hw, f1, f2, f3, f4, f5, f6, f7, f8, f9, f10, f11, b1, b2, MState.cond, MState.next, MState.put, captureFlags,
    srcReserved, dstReserved]

theorem loop_run (t u o uc mdr ld st wq stk) : ∀ n k h : Nat, k < 8192 → 8192 ≤ k + n →
    microRun (running loopWord) 0 n ⟨0xC00, t, u, o, uc, mdr, none, ld, st, wq, stk, k, h⟩ = .tooLong 0xC00 := by
  intro n
  induction n with
  | zero => intro k h h1 h2; omega
  | succ n ih =>
    intro k h h1 h2
    rw [microRun, loop_cycle]
    by_cases h : 8192 ≤ k + 1
    · rw [if_pos h]
    · rw [if_neg h]; exact ih (k + 1) 0 (by omega) (by omega)

theorem met_OpenRoutines_limit : (running loopWord).routineEnd 0 { t := 0, pc := 0x100, code := 0 } = .tooLong 0xC00 := by
  unfold State.routineEnd
  dsimp only
  exact loop_run _ _ _ _ _ _ _ _ _ 8193 0 0 (by decide) (by decide)
theorem met_DamperGrants :
    (on 1 1).plclk = true ∧ (on 1 1).pil.dmp.pfWarn = false ∧
    ((on 1 1).modCap (fun c => { c with adcq := [(0, 7)] })).pil.cap.adcq = (0, 7) :: [] ∧
    (let d : Damper := { codes := [100], huValid := true, hu := { c := 1, scale := 1000, vfail := 99, eff := 256 } }
     d.codes = 100 :: [] ∧ d.hu.vfail < 100 * d.hu.scale / 1000 ∧ d.hu.c ≠ 0) := by decide

/-- A commit of the log with SEQ 7. -/
def commit7 : Commit := { id := 0, kind := .slot 0, cls := .system, lines := 2, cost := 9, seq := some 7, at_ := [131000, 131001] }
/-- The device with that commit admitted, its log there, block 9 on its way to a spare. -/
def committing : State :=
  (on 1 1).modVault (fun v => { v with
    adm := [commit7], retiring := [9],
    logs := [{ seq := 7, cls := 0, flags := 0, part := .rolling, start := 0, lines := 2, at_ := [131000, 131001], bytes := [], lh := [] }] })

theorem met_VaultCommits :
    committing.vaultOn = true ∧ committing.hs.vault.adm.find? (fun x => x.cls = .system) = some commit7 ∧
    committing.classOrder = [.system, .prot, .rolling] ∧
    committing.streamed.hs.vault.curWrite = some { commit7 with begun := true, pos := 2 } ∧ commit7.fromPilot = false ∧
    (∀ x, x ∈ committing.hs.vault.adm → x.seq ≠ some 7 → ∀ a, a ∈ commit7.at_ → a ∉ x.at_) ∧
    committing.hs.vault.retiring.contains 4095 = false ∧ committing.hs.vault.bad.contains 4095 = false ∧
    0 < committing.hs.vault.spares ∧ committing.hs.vault.retiring.contains 9 = true ∧ committing.pil.dmp.pfWarn = false ∧
    committing.life ≠ 4 ∧ committing.life ≠ 7 ∧ (committing.modVault (fun v => { v with spares := 0 })).hs.vault.spares = 0 := by decide +kernel

/-- A leaf, a closed cord with it. -/
def leaf7 : Leaf := { seq := 7, cls := 0, flags := 0, lh := [] }
def cord0 : Cord := { no := 0, reason := .timer, leaves := [leaf7], tick := 0, course := 0, odo := 0 }
/-- The Seal engine at work on that cord. -/
def sealing (p : SealPhase) : State :=
  { committing with hs := { committing.hs with
      keys := { valid := true },
      se := { keyDone := true, keyRun := true, openCord := [leaf7], timer := some 0, queue := [cord0], nextCord := 1, building := true, run := p } } }

theorem met_SealCycle :
    (sealing .idle).vaultOn = true ∧ (sealing .idle).pil.dmp.pfWarn = false ∧ (sealing .idle).hs.se.timer = some 0 ∧
    (sealing .idle).hs.se.openCord ≠ [] ∧ (sealing .idle).hs.se.due = none ∧ (sealing .idle).hs.se.queue.length < 4 ∧
    (sealing .idle).hs.se.nextCord? = some cord0 ∧ (sealing .idle).sealOn = true ∧ (sealing .idle).hs.se.run = .idle ∧
    (sealing .idle).hs.se.nextLeaf / 2 ^ 20 = (sealing .idle).hs.se.tree ∧ (sealing (.reserved 0)).hs.se.run = .reserved 0 ∧
    (sealing (.reserved 0)).hs.se.nextCord? = some cord0 ∧ (sealing .idle).pw.throt.getLsbD 1 = false ∧
    (let s := (sealing .idle).modPh (fun p => { p with clk := 10 ^ 8 })
     0 + 100000 * s.hs.vault.cordMs ≤ s.pil.ph.clk) ∧ (∀ x, x ∈ (sealing .idle).hs.se.queue → x.released = false) ∧
    (sealing .idle).hs.se.building = true ∧ (sealing .idle).hs.se.nextReady = false ∧ (sealing .idle).hs.se.nextPub = [] ∧
    (sealing .idle).hs.se.keyRun = true ∧ (sealing .idle).hs.se.pub = [] := by decide
theorem met_PowerLoss :
    committing.pw.life = .running ∧
    (let s := (on 1 1).modPw (fun p => { p with life := .pfail }); s.pw.life = .pfail ∧ s.pw.warmWait = false ∧ s.hs.vault.adm = [] ∧ s.vaultOn = true) ∧
    (let s := (on 1 1).modPw (fun p => { p with life := .starting, everRails := true }); s.pw.life = .starting ∧ s.pw.everRails = true ∧
      s.pil.dmp.armed = false) ∧
    (let s := (on 1 1).modPw (fun p => { p with plan := some 4 }); s.pw.life = .running ∧ s.pw.plan = some 4 ∧ s.hs.vault.wait = []) ∧
    ((on 1 1).modPw (fun p => { p with life := .vaultSafe })).pw.life = .vaultSafe := by decide
theorem met_ResetKinds :
    standby.pw.life = .standby ∧ (on 1 1).pw.perst = false ∧ (on 1 1).barOn = true ∧
    (let s := (on 1 1).modPw (fun p => { p with hostWait := true, life := .starting })
     s.pw.hostWait = true ∧ s.pw.life = .starting ∧ s.hs.vault.adm = [] ∧ (∀ c : CoreId, s.mayReset c = true)) ∧
    (let s := (on 1 1).modPw (fun p => { p with perst := true }); s.pw.perst = true ∧ s.pw.life = .running) ∧
    ((on 1 1).modCore 15 (fun k => { k with lockup := some { t := 0, cause := 1, what := 2 } })).mayReset 15 = false ∧
    (let s := committing.modPw (fun p => { p with hostWait := true }); s.pw.hostWait = true ∧ s.vaultOn = true ∧ s.hs.vault.adm ≠ []) := by decide

/-- A start with the steps `st` done. -/
def starting (st : Start) : State := { State.reset with pw := { State.reset.pw with start := st } }
theorem met_StartSteps :
    (starting {}).pw.life = .starting ∧ (starting {}).pw.hostWait = false ∧ (starting {}).pw.start.s1 = false ∧ (starting { s1 := true }).pw.rails = true ∧
    (starting { s1 := true, s2 := true }).pw.start.s3 = false ∧ (starting { s2 := true, s3 := true }).pw.start.s7 = false ∧
    (starting { s2 := true, s3 := true }).pw.start.kind ≠ .host ∧ (starting { s7 := true }).pw.start.s8 = false ∧
    (starting { s7 := true }).pil.ph.odoValid = false ∧ (starting { s7 := true }).hs.vault.remBest < 100000 ∧
    (starting { s2 := true, s4 := true, s5 := true, s6 := true, s7 := true }).pw.start.s4 = true := by decide
/-- A payload of lane F that is sent with GEN 255, and one bit of it that arrives wrong. -/
theorem met_StartSteps_frame :
    let s := (starting { s2 := true, s3 := true }).modHs (fun h => { h with
      lanes := { h.lanes with genF := 255, sentF := 2 :: List.replicate 9 0 } })
    s.sentFrame .f ≠ [] ∧ goodFrame 0 10 (withErrors (s.sentFrame .f) []) = some (255, 2 :: List.replicate 9 0) ∧
    goodFrame 0 10 (withErrors (s.sentFrame .f) [0, 1]) = none := by decide +kernel
theorem met_LinksAndSensors :
    (on 1 1).fireOn = true ∧ ((on 1 1).fb.link .hearth).down = false ∧ ((on 1 1).fb.link .hearth).training = false ∧
    (((on 1 1).modFb (fun f => { f with hearth := { f.hearth with replays := 8 } })).fb.link .hearth).replays = 8 ∧
    (((on 1 1).modFb (fun f => { f with hearth := { f.hearth with training := true, fails := 2 } })).fb.link .hearth).training = true ∧
    (on 1 1).pw.life ≠ .off ∧ ((on 1 1).modPw (fun p => { p with vddioA := false, vddioB := false })).pw.vddioA = false ∧
    (on 1 1).vaultOn = true ∧ (on 1 1).hs.trng.started = false ∧ (on 1 1).hs.trng.latched = false ∧ (on 1 1).pw.plan = none ∧
    ((on 1 1).modPh (fun p => { p with tick := 2 ^ 26 })).pil.ph.tick.toNat = (on 1 1).hs.chal.at_.toNat + 2 ^ 26 ∧
    (on 1 1).barOn = true := by decide
/-- 1,024 equal samples repeat; of alternating ones no two in a row are equal, and half are equal to the first (R374). -/
theorem met_LinksAndSensors_trng :
    (∀ j, j < 26 → (0 : BitVec 1024).getLsbD (0 + j) = (0 : BitVec 1024).getLsbD 0) ∧
    (let x : BitVec 1024 := BitVec.ofNat 1024 ((2 ^ 1024 - 1) / 3)
     (∀ i, i + 26 ≤ 1024 → x.getLsbD (i + 1) ≠ x.getLsbD (i + 0)) ∧
     (List.range 1024).countP (fun j => x.getLsbD j = x.getLsbD 0) = 512) := by
  refine ⟨fun j _ => by simp, ?_, by decide +kernel⟩
  have h : ∀ i : Fin 999, (BitVec.ofNat 1024 ((2 ^ 1024 - 1) / 3)).getLsbD (i.val + 1) ≠ (BitVec.ofNat 1024 ((2 ^ 1024 - 1) / 3)).getLsbD (i.val + 0) := by
    decide +kernel
  exact fun i hi => h ⟨i, by omega⟩

/-- The host's pages at 4096 and 8192; polling and the first ring of each kind enabled. -/
def polling : State :=
  (on 1 1).modFl (fun f => { f with
    dbAddr := 4096, shAddr := 8192, poll := { f.poll with en := true, reading := true },
    sqs := f.sqs.set 0 { en := true }, cqs := f.cqs.set 0 { en := true }, eqs := f.eqs.set 0 { en := true } })

theorem met_Polling :
    polling.barOn = true ∧ polling.fl.dbAddr ≠ 0 ∧ polling.fl.shAddr ≠ 0 ∧ polling.fl.dbAddr ≠ polling.fl.shAddr ∧
    (polling.modFl (fun f => { f with poll := { f.poll with en := false } })).fl.poll.en = false ∧
    polling.flueTalks = true ∧ polling.fl.poll.en = true ∧ polling.fl.poll.reading = true ∧ polling.flueOn = true ∧
    (polling.fb.mir.tick - polling.fl.poll.target).msb = false ∧
    (polling.modFl (fun f => { f with poll := { f.poll with fails := 7 } })).fl.poll.fails = 7 ∧
    (polling.fl.sqs.get 0).en = true ∧ (polling.fl.sqs.get 0).err = false ∧ (polling.fl.cqs.get 0).en = true := by decide

/-- A log to export. -/
def log7 : VLog := { seq := 7, cls := 0x10, flags := 0, part := .rolling, start := 131000, lines := 2, bytes := List.replicate 512 1, lh := [], durable := true }
/-- EQ 0 with that log in its rolling queue and a buffer. -/
def exporting (run : Option ExpRun) : State :=
  { (on 1 1) with
    hs := { (on 1 1).hs with vault := { logs := [log7] } },
    fl := { (on 1 1).fl with eqs := (on 1 1).fl.eqs.set 0 { en := true, bqTail := 1, rollQ := [.log 7], run := run } } }
/-- That log as a part, and the run of its export. -/
def part7 : ExpPart := { isSeal := false, plain := true, val := 7, cls := 0x10, bytes := List.replicate 512 1 }
def run7 : ExpRun := { item := .log 7, prot := false, parts := [part7], need := 1, first := 0 }

theorem met_DescriptorsAndExports :
    (let s := (on 1 1).modFl (fun f => { f with sqs := f.sqs.set 15 { en := true, tail := 16 }, cqs := f.cqs.set 0 { en := true } })
     s.flueTalks = true ∧ s.pw.plan = none ∧ s.sqTurn = some 15) ∧
    (let s := (on 1 1).modFl (fun f => { f with sqs := f.sqs.set 15 { en := true, tail := 16, rd := some (0, 16, true) } })
     (s.fl.sqs.get 15).rd = some (0, 16, true)) ∧
    (let s := exporting none
     s.flueTalks = true ∧ (s.fl.eqs.get 0).en = true ∧ (s.fl.eqs.get 0).err = false ∧ (s.fl.eqs.get 0).bqErr = false ∧
     (s.fl.eqs.get 0).run = none ∧ s.hearthUp = true ∧ s.itemParts (s.fl.eqs.get 0) (.log 7) = [part7] ∧
     (s.fl.eqs.get 0).canStart [part7] = true ∧ (s.fl.eqs.get 0).protQ = [] ∧ (s.fl.eqs.get 0).rollQ = .log 7 :: []) ∧
    (let s := exporting (some run7)
     (s.fl.eqs.get 0).run = some run7 ∧ run7.rd = false ∧ s.flueOn = true ∧ run7.retry = false ∧ run7.held = false ∧
     run7.need = (run7.parts.map (partBufs (s.fl.eqs.get 0))).sum ∧ 256 * 1 < part7.bytes.length ∧
     (∀ i, i < run7.need → leAt (List.replicate 16 (0 : Byte)) (16 * i) 8 % 256 = 0 ∧ leAt (List.replicate 16 (0 : Byte)) (16 * i + 12) 4 = 0)) ∧
    (let x : ExpRun := { run7 with rd := true, data := [(4096, List.replicate 256 1)] }
     let s := exporting (some x)
     (s.fl.eqs.get 0).run = some x ∧ x.rd = true ∧ s.flueTalks = true ∧ (s.fl.eqs.get 0).err = false ∧ s.fl.held = [] ∧
     (∀ m, m < 4 → m ≠ 0 → (s.fl.eqs.get m).toWrite = []) ∧ x.parts = [part7] ∧ partBufs (s.fl.eqs.get 0) part7 = 1) ∧
    (let s := ((on 1 1).modFl (fun f => { f with eqs := f.eqs.set 3 { marks := { p := some 9 } }, markTick := some 1 })).modFb
      (fun b => { b with mir := { b.mir with tick := 2 ^ 20 + 1 } })
     s.flueOn = true ∧ s.vaultOn = true ∧ s.fb.hearth.down = false ∧ s.changedMarks ≠ [] ∧ s.markDue = true ∧ s.life ≠ 4 ∧ s.life ≠ 7) ∧
    (let s := ((on 1 1).modFl (fun f => { f with markTick := some 2 })).modFb (fun b => { b with mir := { b.mir with tick := 2 ^ 20 + 1 } })
     s.markDue = false) := by decide +kernel
theorem met_HostTraffic :
    (let s := (on 1 1).modFl (fun f => { f with shAddr := 4096, shadowDirty := true, msixWait := [15], msix := f.msix.set 15 { ctl := 0 } })
     s.flueTalks = true ∧ s.fl.shAddr ≠ 0 ∧ s.fl.shadowDirty = true ∧ s.fl.held = [] ∧
     (∀ v, v ∈ s.fl.msixWait → (s.fl.msix.get v).ctl.getLsbD 0 = false)) ∧
    (let s := (on 1 1).modFl (fun f => { f with cqs := f.cqs.set 15 { since := 1, coalTime := 1 }, eqs := f.eqs.set 3 { since := 1, coalTime := 1 }, pend := 0x8000 })
     (s.fl.cqs.get 15).since ≠ 0 ∧ (s.fl.cqs.get 15).coalTime ≠ 0 ∧ (s.fl.eqs.get 3).since ≠ 0 ∧ (s.fl.eqs.get 3).coalTime ≠ 0 ∧
     (let q := s.modFb (fun b => { b with mir := { b.mir with tick := 1 } })
      (q.fl.cqs.get 15).coalTime.toNat ≤ (q.fb.mir.tick - (q.fl.cqs.get 15).first).toNat) ∧
     s.barOn = true ∧ s.fl.pend.getLsbD 15 = true ∧ s.fl.canTalk = true ∧ s.fl.pend.getLsbD 14 = false ∧ s.flueOn = true ∧
     s.fl.reading = false) := by decide
theorem met_HostRings :
    (on 1 1).barOn = true ∧ ((on 1 1).fl.sqs.get 15).en = false ∧ ((on 1 1).fl.cqs.get 15).en = false ∧ ((on 1 1).fl.eqs.get 3).en = false ∧
    (polling.fl.sqs.get 0).en = true ∧ (polling.fl.eqs.get 0).en = true ∧ (on 1 1).fl.poll.en = false ∧ (on 1 1).fl.anyRing = false ∧
    fieldN (0x18 : BitVec 32) 1 4 = 12 ∧ (polling.fl.cqs.get (fieldN (0x19 : BitVec 32) 5 4)).en = true := by decide
theorem met_CqDisable : polling.barOn = true ∧ (polling.fl.cqs.get 0).en = true ∧ (polling.fl.sqs.get 0).cq = 0 ∧
    (∀ i, i < 16 → ¬(((on 1 1).fl.sqs.get i).en = true ∨ ((on 1 1).fl.sqs.get i).stopping = true)) := by decide

/-- A descriptor. -/
def dsc (op : Byte) (dptr dlen : Nat) (ps : List Byte) : Desc :=
  { bytes := [op, 0, 7, 0] ++ leBytes 4 dlen ++ leBytes 8 dptr ++ ps ++ List.replicate (16 - ps.length) 0, ord := 0 }
/-- A state with `d` fetched on SQ 0. -/
def asked (s : State) (d : Desc) : State :=
  s.modFl (fun f => { f with sqs := f.sqs.set 0 { en := true, head := 1, tail := 1, fetched := [d], nextOrd := 1 }, cqs := f.cqs.set 0 { en := true } })
/-- What `Begins` asks, as a check. -/
def beginsB (s : State) (d : Desc) (op : Nat) (named states : List Nat) : Bool :=
  s.nextDesc 0 == some d && s.mayBegin && decide (d.byte 0 = op) && d.reserved0 named && d.bufOk && states.contains s.fLife

theorem begins_of (s : State) (d : Desc) (op : Nat) (named states : List Nat) (h : beginsB s d op named states = true) :
    Begins s 0 d op named states := by
  simp only [beginsB, Bool.and_eq_true, decide_eq_true_eq, beq_iff_eq, List.contains_iff_mem] at h
  exact ⟨h.1.1.1.1.1, h.1.1.1.1.2, h.1.1.1.2, h.1.1.2, h.1.2, h.2⟩

theorem met_CommandChecks :
    (asked (on 1 1) (dsc 0xFF 0 0 [])).nextDesc 0 = some (dsc 0xFF 0 0 []) ∧ (asked (on 1 1) (dsc 0xFF 0 0 [])).mayBegin = true ∧
    (dsc 1 0 0 [0, 1]).p 1 ≠ 0 ∧ (dsc 1 32 64 []).reserved0 [] = true ∧ (dsc 1 32 64 []).bufOk = false ∧
    (dsc 0x40 64 64 [7]).reserved0 [0, 1, 2, 3, 4, 5] = true ∧ (dsc 0x40 64 64 [7]).bufOk = true ∧ (on 0 0).fLife ∉ [1, 2, 3] ∧
    (let r : Run := { tag := 0, sq := 0, cid := 7, ord := 0, op := 1 }
     let s := (asked (on 1 1) (dsc 1 0 0 [])).modFl (fun f => { f with runs := [r] })
     s.run? 0 = some r ∧ (s.fl.cqs.get 0).en = true ∧ s.fl.canTalk = true ∧ s.fl.held = []) := by decide
theorem met_PubkeyRead :
    (let s := (asked (on 1 1) (dsc 3 64 60 [])).modHs (fun h => { h with se := { h.se with keyDone := true, pub := List.replicate 60 1 } })
     Begins s 0 (dsc 3 64 60 []) 0x03 [] [1, 2, 3, 4, 7] ∧ s.hs.vault.recSpoilt 20 = false ∧ s.hearthUp = true ∧ s.hs.se.pub.length = 60 ∧ s.hs.se.keyDone = true) ∧
    Begins (asked (on 7 1) (dsc 3 64 60 [])) 0 (dsc 3 64 60 []) 0x03 [] [1, 2, 3, 4, 7] ∧
    (asked (on 7 1) (dsc 3 64 60 [])).hs.se.keyDone = false :=
  ⟨⟨begins_of _ _ _ _ _ (by decide), by decide, by decide, by decide, by decide⟩, begins_of _ _ _ _ _ (by decide), by decide⟩
theorem met_ReadCommands :
    Begins (asked (on 0 0) (dsc 1 64 64 [])) 0 (dsc 1 64 64 []) 0x01 [] [0, 1, 2, 3, 4, 7] ∧
    Begins (asked (on 4 1) (dsc 2 64 4096 [6, 1])) 0 (dsc 2 64 4096 [6, 1]) 0x02 [0, 1] [0, 1, 2, 3, 4, 7] ∧
    8 * ((asked (on 4 1) (dsc 2 64 4096 [6, 1])).statList 6).length ≤ 4096 ∧
    Begins (asked (on 7 1) (dsc 0x23 0 0 [15])) 0 (dsc 0x23 0 0 [15]) 0x23 [0] [0, 1, 2, 3, 4, 7] ∧
    (let s := (asked (on 3 7) (dsc 0x40 64 512 [7])).modVault (fun v => { v with logs := [log7] })
     Begins s 0 (dsc 0x40 64 512 [7]) 0x40 [0, 1, 2, 3, 4, 5] [1, 2, 3] ∧
     s.hs.vault.logs.find? (fun x => x.seq = (dsc 0x40 64 512 [7]).pn 0 6) = some log7 ∧ log7.bytes.length ≤ 512 ∧
     log7.durable = true ∧ s.hs.vault.spoilt log7.at_ = false) ∧
    Begins (asked (on 1 1) (dsc 0x41 64 4096 [0, 0, 5])) 0 (dsc 0x41 64 4096 [0, 0, 5]) 0x41 [0, 2, 3, 4, 5, 6, 7] [1, 2, 3] ∧
    (let x : VSeal := { cord := 5, count := 1, sealBytes := [1], leaves := [leaf7], part := .sealp }
     x.record.length ≤ 4096) ∧
    Begins (asked (on 1 1) (dsc 0x42 0 0 [1])) 0 (dsc 0x42 0 0 [1]) 0x42 [0] [1, 2, 3, 4, 7] ∧
    (let s := (asked (on 0 0) (dsc 0x60 64 4096 [])).modHs (fun h => { h with trng := { started := true, fifo := [List.replicate 32 9] } })
     Begins s 0 (dsc 0x60 64 4096 []) 0x60 [] [0, 1, 2, 3] ∧ s.hs.trng.started = true ∧ 32 * s.hs.trng.fifo.length < 4096 ∧
     32 ≤ 32 * s.hs.trng.fifo.length ∧ s.hearthUp = true ∧ s.coreTurn 0 15 = true ∧ s.hs.vault.odoSpoilt = false ∧
     (s.modFb (fun f => { f with hearth := { f.hearth with training := true } })).fb.hearth.training = true) :=
  ⟨begins_of _ _ _ _ _ (by decide), begins_of _ _ _ _ _ (by decide), by decide, begins_of _ _ _ _ _ (by decide),
   ⟨begins_of _ _ _ _ _ (by decide), rfl, by decide +kernel⟩, begins_of _ _ _ _ _ (by decide), by decide +kernel, begins_of _ _ _ _ _ (by decide),
   ⟨begins_of _ _ _ _ _ (by decide), by decide⟩⟩
/-- The default phase block as CONFIG_WRITE carries it (Table 18.14). -/
def phaseBytes : List Byte := (phaseDefault.toList.map (fun x => leBytes 3 x.toNat)).flatten

theorem met_ConfigurationCommands :
    Begins (asked (on 1 1) (dsc 4 0 0 [120])) 0 (dsc 4 0 0 [120]) 0x04 [0] [0, 1, 2, 3] ∧ vmin (25 * 120) ≤ 880 ∧
    (on 1 1).fl.canTalk = true ∧ (on 1 1).plinkUp = true ∧ (on 1 1).fb.copies = [] ∧ (on 1 1).fb.relock = none ∧ (∀ c : CoreId, ((on 1 1).core c).seq = none) ∧ (asked (on 1 1) (dsc 4 0 0 [120])).exclusiveRuns 0 = false ∧
    ((on 1 1).modFb (fun f => { f with relock := some 30 })).fb.relock = some 30 ∧
    Begins (asked (on 1 1) (dsc 5 0 0 [2, 0, 0, 0, 10])) 0 (dsc 5 0 0 [2, 0, 0, 0, 10]) 0x05 [0, 4, 5] [1, 2, 3] ∧
    (dsc 5 0 0 [2, 0, 0, 0, 10]).pn 4 2 = 10 ∧ (on 1 1).hs.vault.fault = false ∧ (on 1 1).life ≠ 4 ∧ (on 1 1).life ≠ 7 ∧
    Begins (asked (on 1 1) (dsc 5 64 48 [1])) 0 (dsc 5 64 48 [1]) 0x05 [0, 4, 5] [1, 2, 3] ∧
    phaseOk (unpackCells 16 (bytesAt phaseBytes 0 48)) = true ∧
    (unpackCells 16 (bytesAt phaseBytes 0 48)).getD 14 0 = (on 1 1).pil.ph.cfg.get 14 ∧
    Begins (asked (on 1 1) (dsc 0x30 64 72 [7, 15])) 0 (dsc 0x30 64 72 [7, 15]) 0x30 [0, 1] [1, 2, 3] ∧ 3 * cfgCells 7 15 = 72 ∧
    (∀ o, o < 24 → (unpackCells 24 (List.replicate 72 0)).getD o 0 &&& ~~~(ringMask o) = 0) ∧
    Begins (asked (on 1 1) (dsc 0x30 64 3 [4, 3])) 0 (dsc 0x30 64 3 [4, 3]) 0x30 [0, 1] [1, 2, 3] ∧ objOf 4 3 = some (.trig 3) ∧
    3 * cfgCells 4 3 = 3 ∧ (on 1 1).pil.cap.objCheck (.trig 3) (fun k => (unpackCells 1 [1, 0, 0]).getD k 0) = 0 ∧
    Memory.wf (on 1 1).pil.cap.objs = true ∧
    Begins (asked armed (dsc 0x31 0 0 [0, 1])) 0 (dsc 0x31 0 0 [0, 1]) 0x31 [0, 1] [1, 2, 3] ∧ (armed.fb.rings.get 0).en = true ∧
    Begins (asked (on 1 1) (dsc 0x50 0 0 [1, 2, 0xFF, 0xFF, 0xFF])) 0 (dsc 0x50 0 0 [1, 2, 0xFF, 0xFF, 0xFF]) 0x50 [0, 1, 2, 3, 4, 5, 6, 7] [1, 2, 3] ∧
    (dsc 0x50 0 0 [1, 2, 0xFF, 0xFF, 0xFF]).pn 2 6 ≤ 16777215 ∧
    Begins (asked (on 2 3) (dsc 0x50 64 200 [])) 0 (dsc 0x50 64 200 []) 0x50 [0, 1, 2, 3, 4, 5, 6, 7] [1, 2, 3] :=
  ⟨begins_of _ _ _ _ _ (by decide), by decide, by decide, by decide, by decide, rfl, by decide, by decide, rfl, begins_of _ _ _ _ _ (by decide),
   by decide, rfl, by decide,
   by decide, begins_of _ _ _ _ _ (by decide), by decide +kernel, by decide +kernel, begins_of _ _ _ _ _ (by decide), by decide,
   by decide +kernel, begins_of _ _ _ _ _ (by decide), by decide, by decide, by decide, by decide, begins_of _ _ _ _ _ (by decide),
   by decide, begins_of _ _ _ _ _ (by decide), by decide, begins_of _ _ _ _ _ (by decide)⟩

/-- An image with an entry for thread 7 of core 15. -/
def imaged : State :=
  let e : List Byte := [127, 0, 0x34, 0x12, 0, 0, 0, 0, 0, 1, 0, 0, 0, 0, 0, 0]
  { on 1 1 with img := { valid := true, threads := [e] } }

theorem met_ThreadCommands :
    Begins (asked imaged (dsc 0x20 0 0 [15, 7, 1])) 0 (dsc 0x20 0 0 [15, 7, 1]) 0x20 [0, 1, 2, 4, 5, 6] [1, 2, 3] ∧
    (asked imaged (dsc 0x20 0 0 [15, 7, 1])).coreBusy 0 15 = false ∧ (asked imaged (dsc 0x20 0 0 [15, 7, 1])).coreTurn 0 15 = true ∧ (asked imaged (dsc 0x20 0 0 [15, 7, 1])).bistHolds 15 = false ∧
    (imaged.core 15).lockup = none ∧ imaged.img.runLoad = false ∧ imaged.img.valid = true ∧ imaged.coreFailed 15 = false ∧
    (imaged.th 15 7).st = .stopped ∧ (imaged.core 15).idleThread 7 = true ∧ imaged.img.entry 15 7 ≠ none ∧
    ((imaged.modTh 15 7 (fun u => { u with fresh := false })).th 15 7).fresh = false ∧
    Begins (asked (on 7 1) (dsc 0x21 0 0 [15, 255])) 0 (dsc 0x21 0 0 [15, 255]) 0x21 [0, 1] [0, 1, 2, 3, 4, 7] ∧
    ((on 7 1).core 15).stopsDone 255 = true ∧ (asked (on 7 1) (dsc 0x21 0 0 [15, 255])).fl.runs = [] ∧
    Begins (asked (on 4 1) (dsc 0x22 0 0 [15])) 0 (dsc 0x22 0 0 [15]) 0x22 [0] [0, 1, 2, 3, 4, 7] ∧ (on 4 1).mayReset 15 = true ∧ (on 4 1).fl.runs = [] ∧
    (((on 4 1).haltCore 15).core 15).quiescent = true ∧
    ((((on 4 1).modCore 15 (fun k => { k with sb := [entry 5], sbNext := 1 })).haltCore 15).core 15).quiescent = false ∧
    (((on 1 1).modCore 15 (fun k => { k with reinst := true })).core 15).reinst = true ∧ (on 1 1).img.instPatch = [] :=
  ⟨begins_of _ _ _ _ _ (by decide), by decide, by decide, by decide, by decide, by decide, by decide, by decide, by decide, by decide, by decide,
   by decide, begins_of _ _ _ _ _ (by decide), by decide, by decide, begins_of _ _ _ _ _ (by decide), by decide, by decide, by decide +kernel,
   by decide +kernel, by decide, by decide⟩

/-- A load under way. -/
def loadRun (k : RunKind) : State := (on 1 1).modFl (fun f => { f with runs := [{ tag := 0, sq := 0, cid := 7, ord := 0, op := 0x10, kind := k }] })

theorem met_LoadCommands :
    Begins (asked (on 2 3) (dsc 0x10 64 196608 [0])) 0 (dsc 0x10 64 196608 [0]) 0x10 [0] [1, 2, 3] ∧ (on 2 3).allStopped = true ∧
    Begins (asked (on 2 3) (dsc 0x10 64 64 [2])) 0 (dsc 0x10 64 64 [2]) 0x10 [0] [1, 2, 3] ∧
    Begins (asked (on 2 3) (dsc 0x11 64 64 [])) 0 (dsc 0x11 64 64 []) 0x11 [] [1, 2, 3] ∧
    (asked (on 2 3) (dsc 0x11 64 64 [])).exclusiveRuns 0 = false ∧
    ((loadRun (.image 2 [])).fl.runs.find? Run.verifying).map (·.kind) = some (.image 2 []) ∧
    ((loadRun (.bundle [])).fl.runs.find? Run.verifying).map (·.kind) = some (.bundle []) ∧ (on 1 1).life ≠ 4 ∧ (on 1 1).life ≠ 7 ∧
    (on 2 3).fb.holds = [] ∧ (on 2 3).fl.canTalk = true ∧ (on 2 3).hs.vault.fault = false ∧
    ((on 2 3).modFb (fun f => { f with holds := [{ line := 0x10000, core := 0, th := 0 }] })).fb.holds ≠ [] :=
  ⟨begins_of _ _ _ _ _ (by decide), by decide, begins_of _ _ _ _ _ (by decide), begins_of _ _ _ _ _ (by decide), by decide, by decide, by decide,
   by decide, by decide, by decide, by decide, by decide, by decide⟩

/-- A word of the array, written with its check bits, reads as itself. -/
theorem secded_encode (d : W32) (h : otpEncode d ≠ 0) : secded (otpEncode d) = some d := by
  have e : (otpEncode d).setWidth 32 = d := BitVec.setWidth_append_eq_right
  unfold secded
  simp only [e, beq_self_eq_true, if_true, if_neg h]
/-- Provisioned fuses: the first word of the device secret's digest and of the hold-up parameters is 1. -/
def provisioned : State :=
  (asked (on 1 1) (dsc 0x80 64 32 [])).modHs (fun h => { h with
    otp := { h.otp with norm := h.otp.norm ++ [(144, otpEncode 1), (160, otpEncode 1)] }, trng := { started := true } })

theorem encode_one : otpEncode 1 ≠ 0 := by
  intro h
  have e : (otpEncode 1).setWidth 32 = (1 : W32) := BitVec.setWidth_append_eq_right
  rw [h] at e
  exact absurd e (by decide)
theorem provisioned_ready : provisioned.hs.otp.blank 4 16 8 = false ∧ provisioned.hs.otp.huBlank = false := by
  have v1 : provisioned.hs.otp.value 4 16 = 1 := by
    show (secded (otpEncode 1)).getD 0 = 1
    rw [secded_encode _ encode_one]; rfl
  have v2 : provisioned.hs.otp.value 5 0 = 1 := by
    show (secded (otpEncode 1)).getD 0 = 1
    rw [secded_encode _ encode_one]; rfl
  constructor
  · unfold Otp.blank
    rw [List.all_eq_false]
    exact ⟨0, by decide, by rw [v1]; decide⟩
  · unfold Otp.huBlank
    rw [v2]; decide
theorem met_DebugChallenge :
    (Begins provisioned 0 (dsc 0x80 64 32 []) 0x80 [] [1, 2, 3] ∧ provisioned.hs.chal.judging = none ∧
      provisioned.hs.otp.blank 4 16 8 = false ∧ provisioned.hs.otp.huBlank = false ∧ provisioned.hs.trng.started = true) ∧
    (let s := provisioned.modTap (fun x => { x with ir := .dbgChal }); s.tapOn = true ∧ s.pil.tap.ir = .dbgChal ∧ s.pil.tap.chalQ = [] ∧ s.vaultOn = true ∧ s.plinkUp = true ∧ s.hearthUp = true) ∧
    (let s := (asked (on 1 1) (dsc 0x81 64 8 [])).modHs (fun h => { h with chal := { nonce := some [1] } })
     Begins s 0 (dsc 0x81 64 8 []) 0x81 [] [1, 2, 3] ∧ s.hs.chal.nonce = some [1] ∧ s.hs.chal.judging = none ∧ s.hearthUp = true ∧ s.fl.canTalk = true ∧ s.triesLeft ≠ 0 ∧ s.life ≠ 4 ∧ s.life ≠ 7) ∧
    (let j : Judging := { bytes := [], nonce := [1], tap := true, tag := none, tryDone := true }
     let s := ((on 1 1).modHs (fun h => { h with chal := { nonce := some [1], judging := some j } })).modTap (fun x => { x with ir := .dbgAns })
     s.tapOn = true ∧ s.pil.tap.ir = .dbgAns ∧ s.pil.tap.chalQ = [] ∧ s.hs.chal.judging = some j ∧ s.hs.chal.nonce = some [1] ∧ j.verdict = none ∧
     j.tryDone = true ∧ (s.modHs (fun h => { h with chal := { h.chal with judging := none } })).hs.chal.judging = none) ∧
    (let s := ((on 1 1).modTap (fun x => { x with ir := .dbgChal })).modFb (fun f => { f with hearth := { f.hearth with training := true } })
     s.tapOn = true ∧ s.fb.plink.down = false ∧ s.fb.hearth.down = false ∧ s.hearthUp = false) :=
  ⟨⟨begins_of _ _ _ _ _ (by decide), by decide, provisioned_ready.1, provisioned_ready.2, by decide⟩, by decide,
   ⟨begins_of _ _ _ _ _ (by decide), by decide, by decide, by decide, by decide, by decide, by decide, by decide⟩, by decide, by decide⟩
theorem met_SelfTest :
    Begins (asked (on 1 1) (dsc 0x70 64 384 [0, 0, 1])) 0 (dsc 0x70 64 384 [0, 0, 1]) 0x70 [0, 1, 2, 3] [0, 1, 2, 3] ∧
    (dsc 0x70 64 384 [0, 0, 1]).pn 0 4 = 2 ^ 16 ∧ (on 1 1).bistCause 16 = 0 ∧ (on 1 1).bistCause 21 = 19 ∧ (on 1 1).bist = {} ∧
    Begins (asked (on 1 1) (dsc 0x70 0 0 [0, 0, 0x20])) 0 (dsc 0x70 0 0 [0, 0, 0x20]) 0x70 [0, 1, 2, 3] [0, 1, 2, 3] ∧
    (let s := { loadRun (.bist 16 0 0) with bist := { items := [4] } }
     s.bist.items = [4] ∧ s.fl.runs.map (·.kind) = [.bist 16 0 0] ∧ (∀ w, w ∈ s.hs.chal.waitGet → w ≠ some 0) ∧ s.hs.se.run = .idle) ∧
    (let s := { loadRun (.bist (2 ^ 21) 0 0) with bist := { items := [21], fitA := { n := 2000 }, fitB := { n := 2000 } } }
     s.bist.items = [21] ∧ s.bist.fitA.n = 2000 ∧ s.bist.fitB.n = 2000) :=
  ⟨begins_of _ _ _ _ _ (by decide), by decide, by decide, by decide, rfl, begins_of _ _ _ _ _ (by decide), by decide, by decide⟩
theorem met_LifeCycle :
    Begins (asked (on 1 1) (dsc 0x90 0 0 [4])) 0 (dsc 0x90 0 0 [4]) 0x90 [0] [0, 1, 2, 3] ∧ (on 1 1).lifePrereq 1 4 = true ∧
    (on 1 1).enabledStopped = true ∧ (on 1 1).life = 1 ∧
    Begins (asked (on 2 3) (dsc 0x90 64 200 [3])) 0 (dsc 0x90 64 200 [3]) 0x90 [0] [0, 1, 2, 3] ∧ (on 2 3).life = 2 ∧
    (on 2 3).lifePrereq 2 3 = true ∧
    (let l : LifeRun := { src := 1, dst := 4, tag := 0, logged := false, ready := true }
     let s := (on 1 1).modHs (fun h => { h with life := some l })
     s.hs.life = some l ∧ l.ready = true ∧ s.hs.otp.busy = none ∧ s.lifeSealed l = true ∧ (∀ c : CoreId, s.mayReset c = true)) ∧
    (let l : LifeRun := { src := 1, dst := 4, tag := 0, logged := false, ready := true, shots := some [(5, 0)] }
     let s := (on 1 1).modHs (fun h => { h with life := some l })
     s.hs.life = some l ∧ l.shots = some ((5, 0) :: []) ∧ s.pw.hostWait = false) :=
  ⟨begins_of _ _ _ _ _ (by decide), by decide, by decide, by decide, begins_of _ _ _ _ _ (by decide), by decide, by decide, by decide⟩
theorem met_FuseCommands :
    (on 1 1).Inv ∧ (on 1 1).barOn = true ∧ (on 1 1).hs.otp.busy = none ∧ (on 1 1).hs.life = none ∧ (on 1 1).hs.otp.word 15 31 = some 0 ∧
    (on 1 1).hs.otp.locks.getLsbD 15 = false ∧ (on 1 1).life ∈ fuseStates 4 ∧ (on 0 0).life = 0 ∧ (on 0 0).life ∈ fuseStates 8 ∧
    ((on 0 0).modHs (fun h => { h with trng := { started := true } })).trngOk = true ∧
    (∀ i, i < 8 → memRead (on 0 0).hs.otp.norm (256 + i) = 0 ∧ memRead (on 0 0).hs.otp.strict (256 + i) = 0) ∧
    ((on 1 1).modHs (fun h => { h with otp := { h.otp with busy := some (7, 7, 5) } })).hs.otp.busy = some (7, 7, 5) ∧
    (on 0 0).hs.otp.genWait = none ∧ (on 0 0).hs.trng.started = false ∧ (on 0 0).hs.trng.latched = false :=
  ⟨on_inv, by decide⟩
theorem met_CellWrites :
    (0 : Cell).extractLsb' 1 2 ≠ 3 ∧ Memory.wf (on 1 1).pil.cap.objs = true ∧ Memory.wf (on 1 1).pil.cap.stg = true ∧ 1 ≤ (4 : BitVec 3).toNat := by decide

/-- The TAP with DBG_ACCESS selected. -/
def tapped : State := (due 0xF00 []).modTap (fun x => { x with ir := .dbgAccess })

theorem met_DebugPort :
    tapped.tapOn = true ∧ tapped.tapAllowed .extest = true ∧
    ((on 2 3).tapAllowed (tapCode 0) = false ∧ (on 2 3).tapOn = true ∧ (on 2 3).rights.getLsbD 0 = false) ∧
    tapped.pil.tap.dbgStat ≠ 1 ∧ tapped.fb.plink.training = false ∧
    ((tapped.modTap (fun x => { x with dbgStat := 1 })).pil.tap.dbgStat = 1) ∧
    (let s := tapped.modFb (fun f => { f with holds := [{ line := 0x10000, core := 3, th := 0 }] })
     s.lineHeldByOther 0 0x100000 = true) ∧
    tapped.pil.tap.ir = .dbgAccess ∧ tapped.rights.getLsbD 1 = true ∧ tapped.rights.getLsbD 0 = true ∧ tapped.dbgLive = true ∧
    progMapped 0xBFFFF = true ∧ (tapped.core 0).sb = [] ∧ (tapped.th 0 0).st ≠ .halted ∧ (tapped.th 0 0).st ≠ .stopped ∧
    ((tapped.with0 (fun u => { u with st := .halted })).th 0 0).st = .halted ∧
    (let s := (on 1 1).modTap (fun x => { x with ir := .sample }); s.tapOn = true ∧ s.pil.tap.ir = .sample) := by decide

end Tests
end Sys2Proof
end

section
/-! The reset family and the timebase (R34): what the resets, the standby entry and an idle step of standby leave of the
phases. Almost every operation that they are built from leaves the whole timebase alone (`_ph`); the few that touch flags or
counters of it keep the phases (`_phases`). -/

namespace Sys2Proof.Machine

section Frames

variable (s : State)

/-! ## The phases of a timebase -/

/-- COURSE, CRANK and TICK, with what they go on from: the SBCLK edges counted, the PLCLK cycle, the measured period. -/
def Phase.phases (p : Phase) : Dbl × Dbl × Dbl × Nat × Nat × Nat := (p.course, p.crank, p.tick, p.sbS, p.clk, p.ts)

theorem Phase.phases_eq_iff (p q : Phase) : p.phases = q.phases ↔
    p.course = q.course ∧ p.crank = q.crank ∧ p.tick = q.tick ∧ p.sbS = q.sbS ∧ p.clk = q.clk ∧ p.ts = q.ts := by
  simp [Phase.phases]

/-- The entry into standby ends CRANK's synchronisation and holdover; the phases stay. -/
@[simp] theorem Phase.enterStandby_phases (p : Phase) : p.enterStandby.phases = p.phases := by
  unfold Phase.enterStandby
  dsimp only
  split <;> rfl

/-- The timebase of a branch, for operations whose branches are many. -/
theorem State.ite_ph (p : Prop) [Decidable p] (q r : State) :
    (if p then q else r).pil.ph = if p then q.pil.ph else r.pil.ph :=
  apply_ite (fun x : State => x.pil.ph) p q r

/-- Operations that are repeated leave the timebase alone when each of them does. -/
theorem State.foldl_ph {α : Type} (f : State → α → State) (h : ∀ q a, (f q a).pil.ph = q.pil.ph) (l : List α) :
    (l.foldl f s).pil.ph = s.pil.ph :=
  List.foldlRecOn l f (motive := fun q => q.pil.ph = s.pil.ph) rfl (fun q hq a _ => (h q a).trans hq)

/-! ## Shared operations of the Firebox and the Flue -/

@[simp] theorem State.modRun_ph (t : Nat) (f : Run → Run) : (s.modRun t f).pil.ph = s.pil.ph := rfl

@[simp] theorem State.deviceEvent_ph : s.deviceEvent.pil.ph = s.pil.ph := rfl

@[simp] theorem State.syncDstate_ph : s.syncDstate.pil.ph = s.pil.ph := by
  unfold State.syncDstate
  split <;> rfl

@[simp] theorem State.finish_ph (t : Nat) (st : Byte) (res : List Byte) : (s.finish t st res).pil.ph = s.pil.ph := by
  unfold State.finish
  split <;> rfl

@[simp] theorem State.begin_ph (sq : Nat) (d : Desc) : (s.begin_ sq d).pil.ph = s.pil.ph := rfl

/-- A command that begins leaves the timebase alone when its own effect does. -/
theorem command_ph (sq : BitVec 4) (c : CmdRule) (act : Desc → Nat → State → State)
    (h : ∀ d t q, (act d t q).pil.ph = q.pil.ph) : (command sq c act s).pil.ph = s.pil.ph := by
  unfold command
  dsimp only
  split
  · rfl
  · split_ifs <;> simp [h]

@[simp] theorem State.submit_ph (k : CKind) (tag : Option Nat) : (s.submit k tag).pil.ph = s.pil.ph := by
  unfold State.submit
  split <;> rfl

@[simp] theorem State.fetchLine_ph (c : CoreId) (t : ThId) : (s.fetchLine c t).pil.ph = s.pil.ph := by
  unfold State.fetchLine
  dsimp only
  split_ifs
  · rfl
  · rfl
  · split <;> rfl

@[simp] theorem State.refetch_ph (c : CoreId) : (s.refetch c).pil.ph = s.pil.ph := by
  refine State.foldl_ph s _ (fun q i => ?_) _
  dsimp only
  split_ifs <;> simp

@[simp] theorem State.stopRuns_ph : s.stopRuns.pil.ph = s.pil.ph := by
  refine State.foldl_ph s _ (fun q r => ?_) _
  split
  · dsimp only
    split_ifs <;> simp
  · rfl

@[simp] theorem State.emberOffRuns_ph : s.emberOffRuns.pil.ph = s.pil.ph := by
  refine State.foldl_ph s _ (fun q r => ?_) _
  split
  · split_ifs <;> simp
  · rfl

@[simp] theorem State.relockRuns_ph : s.relockRuns.pil.ph = s.pil.ph := by
  unfold State.relockRuns
  split
  · rfl
  · refine State.foldl_ph s _ (fun q r => ?_) _
    split <;> rfl

/-! ## Stores

The stores that `State.devStore` calls with an address computed from a large literal are proved by `simp`: as `rfl` lemmas
they would make the kernel compare such addresses in unary. -/

@[simp] theorem State.putCellMem_ph (c : CoreId) (a : Nat) (v : Cell) : (s.putCellMem c a v).pil.ph = s.pil.ph := by
  unfold State.putCellMem
  split <;> rfl

@[simp] theorem State.writeArm_ph (c : CoreId) (t : ThId) (i : Nat) (v : Cell) :
    (s.writeArm c t i v).pil.ph = s.pil.ph := by
  simp [State.writeArm]

@[simp] theorem State.writeWp_ph (c : CoreId) (i k : Nat) (v : Cell) (dbg : Bool) :
    (s.writeWp c i k v dbg).pil.ph = s.pil.ph := by
  simp [State.writeWp]

@[simp] theorem State.writeCmpCtrl_ph (n : Nat) (v : Cell) : (s.writeCmpCtrl n v).pil.ph = s.pil.ph := by
  simp [State.writeCmpCtrl]

@[simp] theorem State.writeCmpTarget_ph (n : Nat) (v : Dbl) : (s.writeCmpTarget n v).pil.ph = s.pil.ph := by
  simp [State.writeCmpTarget]

@[simp] theorem State.writeTraceCtl_ph (v : Cell) : (s.writeTraceCtl v).pil.ph = s.pil.ph := by
  simp [State.writeTraceCtl]

@[simp] theorem State.writeIcache_ph (c : CoreId) (v : Cell) : (s.writeIcache c v).pil.ph = s.pil.ph := by
  unfold State.writeIcache
  dsimp only
  split_ifs <;> simp

@[simp] theorem State.clearMseq_ph (c : CoreId) (v : Cell) : (s.clearMseq c v).pil.ph = s.pil.ph := by
  unfold State.clearMseq
  split <;> rfl

@[simp] theorem State.writeCmpIncr_ph (n : Nat) (v : Dbl) : (s.writeCmpIncr n v).pil.ph = s.pil.ph := by
  unfold State.writeCmpIncr
  split <;> rfl

@[simp] theorem State.clearTraceFull_ph (v : Cell) : (s.clearTraceFull v).pil.ph = s.pil.ph := by
  unfold State.clearTraceFull
  split <;> rfl

@[simp] theorem State.releaseRing_ph (i : Nat) (v : Cell) : (s.releaseRing i v).pil.ph = s.pil.ph := by
  unfold State.releaseRing
  split <;> rfl

@[simp] theorem State.enableRing_ph (i : Nat) : (s.enableRing i).pil.ph = s.pil.ph := rfl

@[simp] theorem State.writeRingCell_ph (i off : Nat) (v : Cell) : (s.writeRingCell i off v).pil.ph = s.pil.ph := by
  unfold State.writeRingCell
  dsimp only
  split_ifs <;> simp

@[simp] theorem State.writeGpio_ph (k : Nat) (v : Cell) : (s.writeGpio k v).pil.ph = s.pil.ph := by
  unfold State.writeGpio
  split <;> rfl

@[simp] theorem State.pushEq_ph (c : CoreId) (e : Dbl) : (s.pushEq c e).pil.ph = s.pil.ph := by
  unfold State.pushEq
  split <;> rfl

@[simp] theorem State.emEvent_ph (r kd src : Nat) (tick : Dbl) : (s.emEvent r kd src tick).pil.ph = s.pil.ph := by
  simp [State.emEvent]

@[simp] theorem State.endPost_ph (i : Nat) (trunc : Bool) : (s.endPost i trunc).pil.ph = s.pil.ph := by
  unfold State.endPost
  dsimp only
  split_ifs <;> simp

@[simp] theorem State.stopChannel_ph (n : Nat) : (s.stopChannel n).pil.ph = s.pil.ph := by
  unfold State.stopChannel
  refine State.foldl_ph s _ (fun q i => ?_) _
  dsimp only
  split
  · split_ifs <;> simp
  · rfl

@[simp] theorem State.applyObj_ph (o : Obj) (v : Nat → Cell) : (s.applyObj o v).pil.ph = s.pil.ph := by
  unfold State.applyObj
  dsimp only
  split
  · split_ifs <;> simp
  · simp
  · simp

@[simp] theorem State.writeObjCell_ph (o : Obj) (k : Nat) (v : Cell) : (s.writeObjCell o k v).pil.ph = s.pil.ph := by
  unfold State.writeObjCell
  dsimp only
  split_ifs <;> simp

@[simp] theorem State.devStore_ph (c : CoreId) (a : Nat) (v : Cell) (dbg : Bool) :
    (s.devStore c a v dbg).pil.ph = s.pil.ph := by
  unfold State.devStore
  cases objAt a with
  | none => simp [State.ite_ph]
  | some x => simp [State.ite_ph]

@[simp] theorem State.devStore2_ph (a : Nat) (v : Dbl) : (s.devStore2 a v).pil.ph = s.pil.ph := by
  unfold State.devStore2
  split_ifs <;> simp

@[simp] theorem State.applyStore_ph (c : CoreId) (e : SEntry) : (s.applyStore c e).pil.ph = s.pil.ph := by
  unfold State.applyStore
  dsimp only
  split
  · rfl
  · split
    · split_ifs <;> simp
    · split_ifs <;> simp
    · simp

@[simp] theorem State.writeBit_ph (c : CoreId) (t : ThId) (a : Nat) (b : Bool) :
    (s.writeBit c t a b).pil.ph = s.pil.ph := by
  unfold State.writeBit
  split_ifs <;> rfl

/-! ## A CORE reset -/

@[simp] theorem State.endLock_ph (c : CoreId) (t : ThId) : (s.endLock c t).pil.ph = s.pil.ph := by
  unfold State.endLock
  split <;> rfl

@[simp] theorem State.haltCore_ph (c : CoreId) : (s.haltCore c).pil.ph = s.pil.ph := by
  unfold State.haltCore
  split
  · rfl
  · exact State.foldl_ph s _ (fun q i => by simp) _

@[simp] theorem State.abandonBist_ph : s.abandonBist.pil.ph = s.pil.ph := rfl

@[simp] theorem State.freeSlot_ph (i : Nat) (st : LState) : (s.freeSlot i st).pil.ph = s.pil.ph := by
  unfold State.freeSlot
  dsimp only
  split <;> rfl

@[simp] theorem State.dropLog_ph (i : Nat) : (s.dropLog i).pil.ph = s.pil.ph := by
  simp [State.dropLog, State.stopCopies]

@[simp] theorem State.dropOpen_ph (c : CoreId) : (s.dropOpen c).pil.ph = s.pil.ph :=
  State.foldl_ph s _ (fun q i => q.dropLog_ph i) _

@[simp] theorem State.logReady_ph (i : Nat) : (s.logReady i).pil.ph = s.pil.ph := by
  unfold State.logReady
  dsimp only
  split_ifs <;> simp

@[simp] theorem State.readAppends_ph (c : CoreId) : (s.readAppends c).pil.ph = s.pil.ph := by
  unfold State.readAppends
  refine State.foldl_ph s _ (fun q i => ?_) _
  dsimp only
  split_ifs <;> simp

@[simp] theorem Pilot.putLockups_ph (p : Pilot) (m : BitVec 16) : (p.putLockups m).ph = p.ph := rfl

@[simp] theorem State.resetCore_ph (c : CoreId) : (s.resetCore c).pil.ph = s.pil.ph := by
  have hstores : ∀ q : State, ((s.core c).sb.foldl (fun (q : State) e => q.applyStore c e) q).pil.ph = q.pil.ph :=
    fun q => State.foldl_ph q _ (fun r e => r.applyStore_ph c e) _
  unfold State.resetCore
  dsimp only
  split_ifs <;> simp [hstores]

@[simp] theorem State.runReset_ph (t : Nat) (c : CoreId) : (s.runReset t c).pil.ph = s.pil.ph := by
  unfold State.runReset
  dsimp only
  split_ifs <;> simp

theorem execCoreReset_ph (sq : BitVec 4) : ∃ s', execCoreReset sq s = .next s' ∧ s'.pil.ph = s.pil.ph :=
  ⟨_, rfl, command_ph s _ _ _ (fun d t q => by simp)⟩

/-! ## The commands and debug requests that an idle step lets go on -/

@[simp] theorem State.tryStart_ph (tag : Nat) (c : CoreId) (t : ThId) (mode pc : Nat) :
    (s.tryStart tag c t mode pc).pil.ph = s.pil.ph := by
  unfold State.tryStart
  dsimp only
  split_ifs <;> simp [State.startThread]

@[simp] theorem State.tryStop_ph (tag c mask : Nat) : (s.tryStop tag c mask).pil.ph = s.pil.ph := by
  unfold State.tryStop
  dsimp only
  split
  · rfl
  · simp only [State.stopRuns_ph, State.modRun_ph]
    refine State.foldl_ph s _ (fun q i => ?_) _
    split <;> rfl

@[simp] theorem State.tryQuery_ph (tag c : Nat) : (s.tryQuery tag c).pil.ph = s.pil.ph := by
  unfold State.tryQuery
  split <;> simp

@[simp] theorem State.putSeg_ph (g : ImgSeg) : (s.putSeg g).pil.ph = s.pil.ph := by
  unfold State.putSeg
  split
  · rfl
  · rfl
  · refine State.foldl_ph s _ (fun q i => ?_) _
    split <;> rfl

@[simp] theorem State.putImage_ph (b : List Byte) : (s.putImage b).pil.ph = s.pil.ph := by
  unfold State.putImage
  split
  · exact State.foldl_ph s.invalAll _ (fun q g => q.putSeg_ph g) _
  · rfl

@[simp] theorem State.tryImage_ph (tag : Nat) (b : List Byte) : (s.tryImage tag b).pil.ph = s.pil.ph := by
  unfold State.tryImage
  split <;> simp

@[simp] theorem State.startRuns_ph : s.startRuns.pil.ph = s.pil.ph := by
  refine State.foldl_ph s _ (fun q r => ?_) _
  split <;> simp

@[simp] theorem State.getNonce_ph (who : Option (Nat × BitVec 64)) : (s.getNonce who).pil.ph = s.pil.ph := by
  unfold State.getNonce State.trngTaken
  cases who with
  | none =>
    dsimp only
    split_ifs <;> rfl
  | some x =>
    dsimp only
    split_ifs <;> simp

@[simp] theorem State.askNonce_ph (who : Option (Nat × BitVec 64)) : (s.askNonce who).pil.ph = s.pil.ph := by
  unfold State.askNonce
  split <;> simp

@[simp] theorem State.chalReply_ph (tag : Option Nat) (st : Byte) : (s.chalReply tag st).pil.ph = s.pil.ph := by
  unfold State.chalReply
  split <;> simp

@[simp] theorem State.answerIn_ph (bytes : List Byte) (tap : Bool) (tag : Option Nat) :
    (s.answerIn bytes tap tag).pil.ph = s.pil.ph := by
  unfold State.answerIn
  dsimp only
  split
  · simp
  · simp
  · split <;> simp

@[simp] theorem State.modTap_ph (f : Tap → Tap) : (s.modTap f).pil.ph = s.pil.ph := rfl

@[simp] theorem State.tapRuns_ph : s.tapRuns.pil.ph = s.pil.ph := by
  unfold State.tapRuns
  split_ifs
  · rfl
  · rfl
  · refine State.foldl_ph (s.modTap (fun t => { t with chalQ := [] })) _ (fun q x => ?_) _
    cases x <;> simp

@[simp] theorem State.dbgEnd_ph (st : BitVec 4) (data : Option Cell) : (s.dbgEnd st data).pil.ph = s.pil.ph := rfl

@[simp] theorem State.beforeRead_ph (r : DbgReq) : (s.beforeRead r).pil.ph = s.pil.ph := by
  unfold State.beforeRead State.passCycles
  split_ifs <;> rfl

/-- A read of PH_STATUS clears its JUMP fields and nothing of the phases (R483). -/
@[simp] theorem State.readEffect_phases (c : CoreId) (a : Nat) : (s.readEffect c a).pil.ph.phases = s.pil.ph.phases := by
  unfold State.readEffect
  split_ifs <;> rfl

@[simp] theorem State.dbgDoRead_phases (r : DbgReq) (effect : Bool) :
    (s.dbgDoRead r effect).pil.ph.phases = s.pil.ph.phases := by
  unfold State.dbgDoRead
  dsimp only
  split
  · split_ifs <;> simp
  · simp
  · simp

@[simp] theorem State.dbgDoWrite_ph (r : DbgReq) : (s.dbgDoWrite r).pil.ph = s.pil.ph := by
  unfold State.dbgDoWrite
  dsimp only
  split
  · split_ifs <;> simp
  · split_ifs <;> simp
  · split_ifs <;> simp
  · split_ifs
    · simp
    · split <;> simp
  · simp
  · simp

theorem State.modMask_ph (m : BitVec 8) (f : State → ThId → State) (h : ∀ q t, (f q t).pil.ph = q.pil.ph) :
    (s.modMask m f).pil.ph = s.pil.ph := by
  refine State.foldl_ph s _ (fun q i => ?_) _
  split <;> simp [h]

@[simp] theorem State.dbgDoHalt_ph (r : DbgReq) : (s.dbgDoHalt r).pil.ph = s.pil.ph :=
  State.modMask_ph s _ _ (fun _ _ => rfl)

@[simp] theorem State.dbgDoResume_ph (r : DbgReq) : (s.dbgDoResume r).pil.ph = s.pil.ph := by
  simp only [State.dbgDoResume, State.dbgEnd_ph, State.stopRuns_ph]
  refine State.modMask_ph s _ _ (fun q t => ?_)
  split_ifs <;> simp

@[simp] theorem State.dbgDoStep_ph (r : DbgReq) : (s.dbgDoStep r).pil.ph = s.pil.ph := by
  unfold State.dbgDoStep
  dsimp only
  split <;> simp

@[simp] theorem State.dbgAct_phases (op : DbgOp) (r : DbgReq) : (s.dbgAct op r).pil.ph.phases = s.pil.ph.phases := by
  cases op <;> simp [State.dbgAct]

@[simp] theorem State.dbgServe_phases : s.dbgServe.pil.ph.phases = s.pil.ph.phases := by
  unfold State.dbgServe
  dsimp only
  split
  · simp
  · split_ifs <;> simp

@[simp] theorem State.dbgRuns_phases : s.dbgRuns.pil.ph.phases = s.pil.ph.phases := by
  unfold State.dbgRuns
  split <;> simp

/-! ## WARM and HOST resets and the entry into standby -/

@[simp] theorem State.resetFire_ph (k : SKind) : (s.resetFire k).pil.ph = s.pil.ph := rfl

@[simp] theorem State.resetHearth_ph (host : Bool) : (s.resetHearth host).pil.ph = s.pil.ph := by
  unfold State.resetHearth
  dsimp only
  split <;> rfl

@[simp] theorem State.resetDies_ph (k : SKind) : (s.resetDies k).pil.ph = s.pil.ph := by
  simp [State.resetDies]

/-- A WARM reset clears counters of the timebase and none of the phases. -/
@[simp] theorem State.warmStart_phases : s.warmStart.pil.ph.phases = s.pil.ph.phases := by
  simp [State.warmStart, Pilot.warm, Phase.phases]

@[simp] theorem State.resetFlue_ph : s.resetFlue.pil.ph = s.pil.ph := rfl

@[simp] theorem State.syncMirror_ph : s.syncMirror.pil.ph = s.pil.ph := by
  unfold State.syncMirror
  split <;> rfl

@[simp] theorem State.linkStart_ph : s.linkStart.pil.ph = s.pil.ph := by
  unfold State.linkStart
  split <;> rfl

@[simp] theorem State.beginHost_ph : s.beginHost.pil.ph = s.pil.ph := by
  simp [State.beginHost]

@[simp] theorem State.raiseHost_ph : s.raiseHost.pil.ph = s.pil.ph := by
  unfold State.raiseHost
  split
  · simp
  · rfl
  · split <;> simp
  · rfl
  · rfl
  · rfl

@[simp] theorem State.pilotNext_ph (n : Nat) : ∀ s : State, (s.pilotNext n).pil.ph = s.pil.ph := by
  induction n with
  | zero => exact fun _ => rfl
  | succ n ih =>
    intro s
    unfold State.pilotNext
    split
    · split <;> simp [ih]
    · rfl

@[simp] theorem State.reindex_ph : s.reindex.pil.ph = s.pil.ph := by
  refine State.foldl_ph s _ (fun q c => ?_) _
  split <;> simp

@[simp] theorem State.trySwitch_ph : s.trySwitch.pil.ph = s.pil.ph := by
  unfold State.trySwitch
  dsimp only
  split <;> simp

@[simp] theorem State.closeCord_ph (r : CReason) : (s.closeCord r).pil.ph = s.pil.ph := by
  simp [State.closeCord]

@[simp] theorem State.pump_ph (n : Nat) : ∀ s : State, (s.pump n).pil.ph = s.pil.ph := by
  induction n with
  | zero => exact fun _ => rfl
  | succ n ih =>
    intro s
    unfold State.pump
    dsimp only
    split
    · split
      · simp [ih]
      · split
        · split <;> simp [ih]
        · rfl
    · split
      · simp [ih]
      · split
        · split <;> simp [ih]
        · rfl

@[simp] theorem State.cords_ph : s.cords.pil.ph = s.pil.ph := State.pump_ph _ s

theorem execMainRailsRestored_phases :
    ∃ s', execMainRailsRestored s = .next s' ∧ s'.pil.ph.phases = s.pil.ph.phases := by
  refine ⟨_, rfl, ?_⟩
  split <;> simp

theorem execVaultSafe_phases : ∃ s', execVaultSafe s = .next s' ∧ s'.pil.ph.phases = s.pil.ph.phases := by
  refine ⟨_, rfl, ?_⟩
  dsimp only
  split_ifs <;> simp

theorem execPerstNFall_ph : ∃ s', execPerstNFall s = .next s' ∧ s'.pil.ph = s.pil.ph := by
  refine ⟨_, rfl, ?_⟩
  split <;> simp

theorem execHostResetBegin_ph : ∃ s', execHostResetBegin s = .next s' ∧ s'.pil.ph = s.pil.ph := by
  refine ⟨_, rfl, ?_⟩
  dsimp only
  split_ifs <;> simp

theorem execStandbyEntry_phases : ∃ s', execStandbyEntry s = .next s' ∧ s'.pil.ph.phases = s.pil.ph.phases := by
  refine ⟨_, rfl, ?_⟩
  split <;> simp

/-- WARM, HOST and CORE resets and the entry into standby change no phase. -/
theorem exec_reset_phases (i : Instr) (hi : i = .mainRailsRestored ∨ i = .vaultSafe ∨ i = .perstNFall ∨
    i = .hostResetBegin ∨ i = .standbyEntry ∨ ∃ sq, i = .coreReset sq) :
    ∃ s', exec i s = .next s' ∧ s'.pil.ph.phases = s.pil.ph.phases := by
  have whole : ∀ a : Answer, (∃ s', a = .next s' ∧ s'.pil.ph = s.pil.ph) →
      ∃ s', a = .next s' ∧ s'.pil.ph.phases = s.pil.ph.phases :=
    fun a ⟨s', ha, hph⟩ => ⟨s', ha, congrArg Phase.phases hph⟩
  rcases hi with rfl | rfl | rfl | rfl | rfl | ⟨sq, rfl⟩
  · exact execMainRailsRestored_phases s
  · exact execVaultSafe_phases s
  · exact whole _ (execPerstNFall_ph s)
  · exact whole _ (execHostResetBegin_ph s)
  · exact execStandbyEntry_phases s
  · exact whole _ (execCoreReset_ph s sq)

/-- A COLD reset sets the phases to 0 (R34). -/
theorem execColdReset_zero : ∃ s', execColdReset s = .next s' ∧
    s'.pil.ph.course = 0 ∧ s'.pil.ph.crank = 0 ∧ s'.pil.ph.tick = 0 :=
  ⟨_, rfl, by simp [Phase.cold]⟩

/-! ## A step of standby -/

/-- A planned entry takes no step unless the device runs. -/
theorem State.planStep_of_not_running (h : s.pw.life ≠ .running) : s.planStep = s := by
  unfold State.planStep
  split
  · rfl
  · simp [h]

/-- What an idle step lets go on changes no phase unless the device runs. -/
theorem State.goOn_phases (h : s.pw.life ≠ .running) : s.goOn.pil.ph.phases = s.pil.ph.phases := by
  simp [State.goOn, State.planStep_of_not_running s h]

/-- In standby a cycle is one of SBCLK (R50, log entry 4). -/
theorem State.cycle_of_standby (h : s.pw.life = .standby) : s.cycle = s.modPh Phase.sbCycle := by
  simp [State.cycle, State.plclk, h]

/-- While TICK is not lost an SBCLK cycle moves TICK to its next edge (R50). -/
theorem Phase.sbCycle_running (p : Phase) (hx : p.xtal = true) (hl : p.tickLost = false) :
    p.sbCycle = { p with sbS := p.sbS + 1, sbN := 0, sbAcc := 0, tick := BitVec.ofNat 48 (32 * (p.sbS + 1)) } := by
  simp [Phase.sbCycle, hx, hl]

theorem State.idle_phases_of_standby (h : s.pw.life = .standby) : s.idle.pil.ph.phases = s.pil.ph.sbCycle.phases := by
  unfold State.idle
  rw [State.cycle_of_standby s h, State.goOn_phases _ (by simp [h])]
  rfl

theorem step_of_pending_nil (h : s.pending = []) : step s = .next s.idle := by
  simp [step, h]

end Frames

/-- Settles O6: each reset and the standby entry is built from operations that keep the phases, and an idle step of standby
moves TICK by one SBCLK edge alone. -/
theorem resetsKeepPhases : Obligations.ResetsKeepPhases := by
  unfold Obligations.ResetsKeepPhases
  intro s
  refine ⟨execColdReset_zero s, fun i hi => ?_, fun hlife hq hx hl => ?_⟩
  · obtain ⟨s', hs', hph⟩ := exec_reset_phases s i hi
    exact ⟨s', hs', (Phase.phases_eq_iff _ _).1 hph⟩
  · have hph := State.idle_phases_of_standby s hlife
    rw [Phase.sbCycle_running _ hx hl, Phase.phases_eq_iff] at hph
    obtain ⟨hcourse, hcrank, htick, hsb, -, -⟩ := hph
    exact ⟨s.idle, step_of_pending_nil s hq, htick, hsb, hcourse, hcrank⟩

end Sys2Proof.Machine
end

section
/-! How a syllable that works on the data stack alone completes, from the cells and flags of its definition; and one that
writes a trace record. -/

namespace Sys2Proof.Machine

/-! ## Flags written one after the other (R94) -/

theorem flagsAre_refl (x : Cell) : FlagsAre x x [] := fun _ _ => rfl

/-- Writing a flag adds it to the flags written, if it was not among them. -/
theorem flagsAre_setBit {x y : Cell} {fs : List (Nat × Bool)} (h : FlagsAre x y fs) (j : Nat) (b : Bool)
    (hj : fs.lookup j = none) : FlagsAre x (setBit y j b) (fs ++ [(j, b)]) := by
  intro i hi
  rw [getLsbD_setBit y j i b hi, h i hi, List.lookup_append]
  by_cases e : i = j
  · subst e; simp [hj]
  · have hne : (i == j) = false := beq_eq_false_iff_ne.2 e
    simp [List.lookup, hne, e]

/-- Writing a flag back as it was writes nothing. -/
theorem flagsAre_setBit_same {x y : Cell} {fs : List (Nat × Bool)} (h : FlagsAre x y fs) (j : Nat)
    (hj : fs.lookup j = none) : FlagsAre x (setBit y j (x.getLsbD j)) fs := by
  intro i hi
  rw [getLsbD_setBit y j i _ hi, h i hi]
  split
  · next e => subst e; simp [hj]
  · rfl

theorem flagsZN_flagsAre (st r : Cell) : FlagsAre st (flagsZN st r) (znOf r) := by
  have hz : (r == 0) = decide (r = 0) := rfl
  rw [flagsZN, hz]
  exact flagsAre_setBit (flagsAre_setBit (flagsAre_refl st) 0 _ rfl) 1 _ rfl

theorem flagsZNC_flagsAre (st r : Cell) (b : Bool) : FlagsAre st (flagsZNC st r b) (znOf r ++ [(2, b)]) :=
  flagsAre_setBit (flagsZN_flagsAre st r) 2 b rfl

theorem flagsZNCV_flagsAre (st r : Cell) (b v : Bool) :
    FlagsAre st (flagsZNCV st r b v) (znOf r ++ [(2, b), (3, v)]) :=
  flagsAre_setBit (flagsZNC_flagsAre st r b) 3 v rfl

/-! ## Syllables of the data stack -/

theorem opWord_eq_opW (k : BitVec 8) : opWord k = opW k.toNat := by
  decide +revert

theorem Thread.le_w_of_winCheck {u : Thread} {need net : Nat} (h : u.winCheck need net = .ok) : need ≤ u.w := by
  unfold Thread.winCheck at h
  split at h
  · cases h
  · split at h
    · cases h
    · next hw => exact Nat.le_of_not_lt hw

/-- A return stack within its sixteen entries stops no syllable that moves none of them (R134, R135). -/
theorem Thread.rsBad_zero {u : Thread} (h : u.rsd ≤ 16) : u.rsBad 0 0 = false := by
  simp [Thread.rsBad, h]

theorem Thread.putCells_arch (xs : List Cell) : ∀ (u : Thread) (j : Nat), (u.putCells j xs).arch = u.arch := by
  induction xs with
  | nil => exact fun _ _ => rfl
  | cons v r ih => exact fun u j => ih (u.putCell j v) (j + 1)

/-- Pops and pushes change nothing that `arch` keeps. -/
theorem Thread.popPush_arch (u : Thread) (n : Nat) (xs : List Cell) : (u.popPush n xs).arch = u.arch :=
  Thread.putCells_arch xs u (u.w - n)

theorem State.modTh_eq_self (s : State) (c : CoreId) (t : ThId) (f : Thread → Thread) (h : f (s.th c t) = s.th c t) :
    s.modTh c t f = s := by
  have hget : f ((s.core c).th.get t.toNat) = id ((s.core c).th.get t.toNat) := h
  have hth : (s.core c).th.modify t.toNat f = (s.core c).th := by
    rw [Tab.modify, hget]
    exact Tab.modify_id _ _
  exact State.modCore_id s c _ (by rw [Core.modTh, hth])

theorem State.modTh_id (s : State) (c : CoreId) (t : ThId) : s.modTh c t id = s :=
  State.modTh_eq_self s c t id rfl

theorem Thread.popPush_keeps_status (u : Thread) (n : Nat) (xs : List Cell) :
    u.popPush n xs = { (u.popPush n xs) with status := u.status } :=
  have hst : (u.popPush n xs).arch.status = u.arch.status := by rw [Thread.popPush_arch]
  congrArg (fun st => { (u.popPush n xs) with status := st }) hst

/-- A window within its registers lets every syllable through that neither needs nor pushes a cell (R128, R133). -/
theorem Thread.winCheck_zero {u : Thread} (h : u.w ≤ 32) : u.winCheck 0 0 = .ok := by
  have hw : ¬ 32 < u.w := by omega
  unfold Thread.winCheck
  simp only [Nat.not_lt_zero, if_false, Nat.add_zero, decide_false, Bool.and_false, Bool.false_eq_true, hw, ite_self]
  split <;> rfl

section Issue

variable {i : Instr} {k : BitVec 8} {s : State} {c : CoreId} {t : ThId}

/-- OP `k` with the meaning `y` passes every check of its issue on thread `t` of core `c`, wherever it is due and the window
has its `need` operands and room for `net` cells more. -/
structure Sylb.Passes (y : Sylb) (s : State) (c : CoreId) (t : ThId) (k : BitVec 8) (need net : Nat) : Prop where
  word : y.word = opWord k
  needs : y.need = need
  nets : y.net = net
  lock : DueOp s c t k → y.noLock = true → (s.th c t).lockN = none
  legal : y.illegal = false
  goes : y.waits = false
  slot : y.slot = true → (s.core c).maySlot (.thread t) = true
  rstack : (s.th c t).rsBad y.rpops y.rpushes = false
  sound : y.fault = none

/-- An OP that changes its thread alone, by `g`. -/
theorem opRuns_of_issue {need pops : Nat} {xs : List Cell} {fs : List (Nat × Bool)} {f : Thread → Thread}
    (y : Sylb) (g : Thread → Thread) (hx : exec i s = .next (issue c t y s)) (h : y.Passes s c t k need (xs.length - pops))
    (he : ∀ r, y.effect r = r.modTh c t g)
    (hs : need ≤ (s.th c t).w → StackIs (s.th c t) (g (s.th c t).count.advance) pops xs)
    (hfl : FlagsAre (s.th c t).status (g (s.th c t).count.advance).status fs)
    (hc : (g (s.th c t).count.advance).arch =
      ({ f (s.th c t).count.advance with status := (g (s.th c t).count.advance).status }).arch) :
    OpRuns i k need s c t pops xs fs f := by
  intro hdue hw
  have hwin : (s.th c t).winCheck y.need y.net = .ok := by rw [h.needs, h.nets]; exact hw
  exact runs_of_issue i s c t y g f pops xs fs hx (h.word ▸ hdue.toDue) (fun _ => hdue.noPfx) (h.lock hdue) h.legal hwin
    h.goes h.slot h.rstack h.sound (fun r _ => he r) (hs (Thread.le_w_of_winCheck hw)) hfl hc

/-- An OP that pops and pushes cells of the data stack, and writes SR_STATUS. -/
theorem opRuns_of_popPush {need pops : Nat} {xs : List Cell} {fs : List (Nat × Bool)} (y : Sylb) (g : Thread → Thread)
    (st : Cell) (hx : exec i s = .next (issue c t y s)) (h : y.Passes s c t k need (xs.length - pops))
    (he : ∀ r, y.effect r = r.modTh c t g)
    (hg : g (s.th c t).count.advance = { ((s.th c t).count.advance.popPush pops xs.reverse) with status := st })
    (hp : pops ≤ need) (hlen : xs.length ≤ 32) (hfl : FlagsAre (s.th c t).status st fs) :
    OpRuns i k need s c t pops xs fs id := by
  refine opRuns_of_issue y g hx h he (fun hw => ?_) (by rw [hg]; exact hfl) ?_
  · have hstack := Thread.popPush_stackIs (s.th c t).count.advance pops xs.reverse (hp.trans hw) (by simpa using hlen)
    rw [List.reverse_reverse] at hstack
    rw [hg]
    exact hstack
  · rw [hg]
    exact congrArg (fun u : Thread => { u with status := st }) (Thread.popPush_arch (s.th c t).count.advance pops xs.reverse)

/-- A syllable written as a `stackOp`. -/
theorem opRuns_of_stackOp {need pops : Nat} {xs : List Cell} {fs : List (Nat × Bool)} {o : (Nat → Cell) → Cell → AluOut}
    (hx : exec i s = stackOp c t k.toNat need pops xs.length o s) (hrs : (s.th c t).rsd ≤ 16) (hp : pops ≤ need)
    (hlen : xs.length ≤ 32) (hout : (o (s.th c t).top (s.th c t).status).1 = xs.reverse)
    (hfl : FlagsAre (s.th c t).status (o (s.th c t).top (s.th c t).status).2 fs) :
    OpRuns i k need s c t pops xs fs id :=
  opRuns_of_popPush _ _ _ hx ⟨(opWord_eq_opW k).symm, rfl, rfl, fun _ => nofun, rfl, rfl, nofun, Thread.rsBad_zero hrs, rfl⟩
    (fun _ => rfl) (by rw [← hout]; rfl) hp hlen hfl

/-! ## Syllables that write a trace record -/

/-- A thread's stack and flags, seen without its bookkeeping. -/
theorem stackIs_of_settled {u v w : Thread} {pops : Nat} {xs : List Cell} (h : w.settled = v.settled) (hs : StackIs u v pops xs) :
    StackIs u w pops xs := by
  have hw : w.w = v.w := by have q := congrArg Thread.w h; exact q
  have hspc : w.spc = v.spc := by have q := congrArg Thread.spc h; exact q
  have htop : ∀ k, w.top k = v.top k := by have q := congrArg Thread.top h; exact congrFun q
  obtain ⟨hdepth, hspill, hnew, hold⟩ := hs
  exact ⟨hw.trans hdepth, hspc.trans hspill, fun k hk => (htop k).trans (hnew k hk),
    fun k h1 h2 => (htop _).trans (hold k h1 h2)⟩

/-- A syllable that is the change `g` of the state, up to bookkeeping, completes so. -/
theorem does_of_settled {s' q : State} {pops : Nat} {xs : List Cell} {fs : List (Nat × Bool)} {g : State → State}
    (hx : exec i s = .next s') (he : s'.settled c t = q.settled c t)
    (hq : g (s.modTh c t (fun u => u.count.advance)) = q) (hs : StackIs (s.th c t) (q.th c t) pops xs)
    (hfl : FlagsAre (s.th c t).status (q.th c t).status fs) : Does i s c t pops xs fs g := by
  have hth : (s'.th c t).settled = (q.th c t).settled := by rw [← State.settled_th, ← State.settled_th, he]
  have hst : (s'.th c t).status = (q.th c t).status := by have e := congrArg Thread.status hth; exact e
  have hid : q.modTh c t (fun u => { u with status := (q.th c t).status }) = q :=
    State.modTh_eq_self q c t _ rfl
  refine ⟨s', hx, stackIs_of_settled hth hs, by rw [hst]; exact hfl, ?_⟩
  rw [Changed, hq, hst, hid]
  exact State.arch_eq_of_settled _ _ c t he

/-- A trace record depends on no core, and changes none. -/
theorem State.traceRec_modCore (s : State) (d : CoreId) (g : Core → Core) (kd : Nat) (p q : PAddr) :
    (s.modCore d g).traceRec c t kd p q = (s.traceRec c t kd p q).modCore d g := by
  unfold State.traceRec
  dsimp only [State.modCore_fb, State.modCore_free]
  split <;> rfl

theorem State.settled_traceRec (s : State) (kd : Nat) (p q : PAddr) :
    (s.traceRec c t kd p q).settled c t = (s.settled c t).traceRec c t kd p q :=
  (State.traceRec_modCore s c _ kd p q).symm

theorem State.th_traceRec (s : State) (kd : Nat) (p q : PAddr) : (s.traceRec c t kd p q).th c t = s.th c t := by
  unfold State.traceRec
  dsimp only
  split <;> rfl

/-- No cell popped and none pushed. -/
theorem stackIs_of_eq {u v : Thread} (hw : v.w = u.w) (hspc : v.spc = u.spc) (htop : v.top = u.top) : StackIs u v 0 [] :=
  ⟨hw, hspc, nofun, fun k _ _ => congrFun htop k⟩

end Issue

end Sys2Proof.Machine
end

section
/-! The syllable set (chapter 04): shifts, conditions, phase reads and table interpolation. They compute what the spec
says while the thread's counters lie within their stacks; the lemmas with such a bound say so. The statements have no such
bound: they range over every state, also over one that counts more than the sixteen return-stack entries of R134. There
`Thread.rsBad 0 0` is true in trap mode, and a syllable that neither pushes nor pops a return-stack entry raises RSTACK,
which R135 keeps for a push and a pop. So each of the four statements fails. -/

namespace Sys2Proof.Machine

section Issue

variable {i : Instr} {k : BitVec 8} {s : State} {c : CoreId} {t : ThId}

/-! ## Shifts and rotations (R101) -/

/-- A shift or rotation with the result `r`, by a count of 0 exactly where `m` is 0; else C becomes `b`. -/
theorem flags_of_outShift {f : Cell → Nat → Bool → Cell × Bool} {st x u r : Cell} {m : Nat} {b : Bool}
    (h : f x (u.toNat % 32) (carryOf st) = (r, if m = 0 then carryOf st else b)) :
    (outShift f st x u).1 = [r] ∧ FlagsAre st (outShift f st x u).2 (znOf r ++ if m = 0 then [] else [(2, b)]) := by
  unfold outShift
  simp only [h, true_and]
  split
  · rw [List.append_nil]
    exact flagsAre_setBit_same (flagsZN_flagsAre st r) 2 rfl
  · exact flagsZNC_flagsAre st r b

theorem shlC_eq (x : Cell) (n : Nat) (c : Bool) :
    shlC x n c = (x <<< n, if n = 0 then c else decide (n ≤ 24) && x.getLsbD (24 - n)) := by
  unfold shlC
  split
  · next h => simp [h]
  · split
    · next h => simp [h]
    · next h => simp [h, BitVec.shiftLeft_eq_zero (show 24 ≤ n by omega)]

theorem shrC_eq (x : Cell) (n : Nat) (c : Bool) :
    shrC x n c = (x >>> n, if n = 0 then c else decide (n ≤ 24) && x.getLsbD (n - 1)) := by
  unfold shrC
  split
  · next h => simp [h]
  · split
    · next h => simp [h]
    · next h => simp [h, BitVec.ushiftRight_eq_zero (show 24 ≤ n by omega)]

/-- An arithmetic shift divides and rounds down. -/
theorem sshiftRight_eq_ofInt_div (x : Cell) (n : Nat) : x.sshiftRight n = BitVec.ofInt 24 (x.toInt / 2 ^ n) := by
  rw [BitVec.sshiftRight_eq, Int.shiftRight_eq_div_pow]
  push_cast
  rfl

/-- Past its top bit an arithmetic shift leaves the sign alone. -/
theorem sshiftRight_of_ge (x : Cell) (n : Nat) (h : 24 ≤ n) : x.sshiftRight n = if x.msb then 0xFFFFFF else 0 := by
  have hones : ∀ j < 24, (0xFFFFFF : Cell).getLsbD j = true := by decide
  apply BitVec.eq_of_getLsbD_eq
  intro j hj
  rw [BitVec.getLsbD_sshiftRight, if_neg (show ¬ n + j < 24 by omega), decide_eq_false (Nat.not_le.2 hj)]
  cases x.msb
  · simp
  · exact (hones j hj).symm

theorem sarC_eq (x : Cell) (n : Nat) (c : Bool) :
    sarC x n c = (x.sshiftRight n, if n = 0 then c else if n ≤ 24 then x.getLsbD (n - 1) else x.msb) := by
  unfold sarC
  split
  · next h => simp [h]
  · split
    · rfl
    · next h => rw [sshiftRight_of_ge x n (by omega)]

theorem rolC_eq (x : Cell) (n : Nat) (c : Bool) :
    rolC x n c = (x.rotateLeft (n % 24), if n % 24 = 0 then c else (x.rotateLeft (n % 24)).getLsbD 0) := by
  unfold rolC
  dsimp only
  split
  · next h =>
    have hrot : x.rotateLeft 0 = x := by
      apply BitVec.eq_of_getLsbD_eq
      simp +contextual
    rw [h, hrot]
  · rfl

theorem opRuns_of_shift {f : Cell → Nat → Bool → Cell × Bool} {r : Cell} {m : Nat} {b : Bool}
    (hx : exec i s = binOp c t k.toNat (fun st x u => outShift f st x u) s) (hrs : (s.th c t).rsd ≤ 16)
    (h : ∀ cy, f ((s.th c t).top 1) (((s.th c t).top 0).toNat % 32) cy = (r, if m = 0 then cy else b)) :
    OpRuns i k 2 s c t 2 [r] (znOf r ++ if m = 0 then [] else [(2, b)]) id :=
  opRuns_of_stackOp hx hrs le_rfl (by simp) (flags_of_outShift (h _)).1 (flags_of_outShift (h _)).2

theorem opRuns_of_shift1 {f : Cell → Nat → Bool → Cell × Bool} {r : Cell} {b : Bool}
    (hx : exec i s = unOp c t k.toNat (fun st x => outShift f st x 1) s) (hrs : (s.th c t).rsd ≤ 16)
    (h : ∀ cy, f ((s.th c t).top 0) 1 cy = (r, b)) :
    OpRuns i k 1 s c t 1 [r] (znOf r ++ [(2, b)]) id :=
  have hout := flags_of_outShift (f := f) (st := (s.th c t).status) (x := (s.th c t).top 0) (u := 1) (m := 1) (h _)
  opRuns_of_stackOp hx hrs le_rfl (by simp) hout.1 hout.2

/-! ## Phase reads (R52, R112) -/

theorem dblCells_eq (d : Dbl) : dblCells d = [d.setWidth 24, d.extractLsb' 24 24] := by
  have hlo : loCell d = d.setWidth 24 := rfl
  have hhi : hiCell d = d.extractLsb' 24 24 := by
    apply BitVec.eq_of_toNat_eq
    simp [hiCell, BitVec.extractLsb'_toNat, Nat.shiftRight_eq_div_pow]
  rw [dblCells, hlo, hhi]

theorem opRuns_of_phaseRead {net : Nat} {f : Mirror → List Cell} {xs : List Cell}
    (hx : exec i s = phaseRead c t k.toNat net f s) (hrs : (s.th c t).rsd ≤ 16)
    (hm : (s.core c).maySlot (.thread t) = true) (hnet : net = xs.length) (hlen : net ≤ 32)
    (hf : f s.fb.mir = xs.reverse) : OpRuns i k 0 s c t 0 xs [] id :=
  opRuns_of_popPush _ _ (s.th c t).status hx
    ⟨(opWord_eq_opW k).symm, rfl, hnet, fun _ => nofun, rfl, rfl, fun _ => hm, Thread.rsBad_zero hrs, rfl⟩ (fun _ => rfl)
    (by rw [← hf]; exact Thread.popPush_keeps_status _ _ _) le_rfl (hnet ▸ hlen)
    (flagsAre_refl _)

/-! ## Conditions (R95) -/

/-- A condition code selects its entry of Table 4.4. -/
theorem condHolds_eq (st : Cell) (cc : BitVec 4) :
    let z := st.getLsbD 0
    let n := st.getLsbD 1
    let cy := st.getLsbD 2
    let v := st.getLsbD 3
    let b := st.getLsbD 4
    condHolds st cc = [z, !z, cy, !cy, n, !n, v, !v, cy && !z, !cy || z, n == v, n != v, !z && (n == v), z || (n != v), b,
      !b].getD cc.toNat false := by
  have hcc : cc.toNat < 16 := cc.isLt
  unfold condHolds
  dsimp only
  interval_cases cc.toNat <;> rfl

/-- Where the accumulator holds no more than the bits of its PFX syllables, the immediate is the two's complement number that they
and the field spell. -/
theorem signedImm_eq_toInt (u : Thread) (w f : Nat) (hw : 0 < w) (hf : f < 2 ^ w) (hp : u.pacc.toNat < 2 ^ (8 * u.pk)) :
    signedImm u w f = (BitVec.ofNat (w + 8 * u.pk) (u.pacc.toNat * 2 ^ w + f)).toInt := by
  have hraw : u.pacc.toNat * 2 ^ w + f < 2 ^ (w + 8 * u.pk) := by
    rw [Nat.pow_add]
    nlinarith
  have htwo : 2 ^ (w + 8 * u.pk) = 2 * 2 ^ (w + 8 * u.pk - 1) := by
    rw [← Nat.pow_succ']
    congr 1
    omega
  rw [BitVec.toInt_eq_toNat_cond, BitVec.toNat_ofNat, Nat.mod_eq_of_lt hraw]
  have hiff : u.pacc.toNat * 2 ^ w + f < 2 ^ (w + 8 * u.pk - 1) ↔
      2 * (u.pacc.toNat * 2 ^ w + f) < 2 ^ (w + 8 * u.pk) := by
    rw [htwo]
    exact (Nat.mul_lt_mul_left Nat.two_pos).symm
  simp only [signedImm, rawImm, hiff, Nat.cast_pow, Nat.cast_ofNat]

theorem branchTarget_eq (a : PAddr) (d : Int) : branchTarget a d = a + 1 + BitVec.ofInt 20 d := by
  have ha : BitVec.ofInt 20 (a.toNat : Int) = a := by rw [BitVec.ofInt_natCast, BitVec.ofNat_toNat, BitVec.setWidth_eq]
  rw [branchTarget, BitVec.ofInt_add, BitVec.ofInt_add, ha]
  rfl

/-- The target that Bcc with field `e` names (R91, R92). -/
def bccTarget (u : Thread) (e : BitVec 6) : PAddr :=
  u.pc + 1 + BitVec.ofInt 20 (BitVec.ofNat (6 + 8 * u.pk) (u.pacc.toNat * 2 ^ 6 + e.toNat)).toInt

theorem branchTarget_eq_bccTarget (u : Thread) (e : BitVec 6) (hp : u.pacc.toNat < 2 ^ (8 * u.pk)) :
    branchTarget u.pc (signedImm u 6 e.toNat) = bccTarget u e := by
  rw [branchTarget_eq, signedImm_eq_toInt u 6 e.toNat (by decide) e.isLt hp]
  rfl

section Bcc

variable {cc : BitVec 4} {e : BitVec 6} (h : Due s c t (bccW cc e)) (hrs : (s.th c t).rsd ≤ 16) (hw : (s.th c t).w ≤ 32)

include h hrs hw

/-- A Bcc is no OP, and neither needs nor moves a cell of either stack. -/
theorem bcc_settled (g : State → State) : (issue c t { word := bccW cc e, effect := g } s).settled c t =
    (g ((s.issued c t).modTh c t Thread.advance)).settled c t := by
  have hop : isOp (bccW cc e) ≠ true := by
    have hcc := cc.isLt
    have he := e.isLt
    simp [isOp, bccW]
    omega
  exact issue_settled s c t _ h (fun q => absurd q hop) nofun rfl (Thread.winCheck_zero hw) rfl nofun
    (Thread.rsBad_zero hrs) rfl

theorem bcc_taken (hcc : condHolds (s.th c t).status cc = true) (hp : (s.th c t).pacc.toNat < 2 ^ (8 * (s.th c t).pk)) :
    Does (.bcc c t cc e) s c t 0 [] [] (fun r => (r.modTh c t (fun v => { v with pc := bccTarget (s.th c t) e })).traceRec
      c t 1 (s.th c t).pc (bccTarget (s.th c t) e)) := by
  refine does_of_settled rfl ((bcc_settled h hrs hw _).trans ?_) rfl ?_ ?_
  · simp only [hcc, if_true, State.jumpTo, branchTarget_eq_bccTarget _ e hp, State.settled_traceRec]
    rw [State.settled_issued, State.modTh_modTh]
  · rw [State.th_traceRec, State.th_modTh_self, State.th_modTh_self]
    exact stackIs_of_eq rfl rfl rfl
  · rw [State.th_traceRec, State.th_modTh_self, State.th_modTh_self]
    exact flagsAre_refl _

theorem bcc_not_taken (hcc : condHolds (s.th c t).status cc = false) : Runs (.bcc c t cc e) s c t 0 [] [] id := by
  refine does_of_settled rfl ((bcc_settled h hrs hw _).trans ?_) rfl ?_ ?_
  · simp only [hcc, Bool.false_eq_true, if_false, State.modTh_id]
    rw [← State.modTh_id ((s.issued c t).modTh c t Thread.advance) c t, State.settled_issued]
    rfl
  · rw [State.modTh_id, State.th_modTh_self]
    exact stackIs_of_eq rfl rfl rfl
  · rw [State.modTh_id, State.th_modTh_self]
    exact flagsAre_refl _

end Bcc

theorem tste_opRuns (hrs : (s.th c t).rsd ≤ 16) :
    OpRuns (.tste c t) 0x56 0 s c t 0 [] [(4, (s.th c t).status.getLsbD 5), (5, false)] id :=
  opRuns_of_issue _ _ rfl
    ⟨(opWord_eq_opW 0x56).symm, rfl, rfl, fun _ => nofun, rfl, rfl, nofun, Thread.rsBad_zero hrs, rfl⟩ (fun _ => rfl)
    (fun _ => stackIs_of_eq rfl rfl rfl)
    (flagsAre_setBit (flagsAre_setBit (flagsAre_refl _) 4 _ rfl) 5 false rfl) rfl

end Issue

/-- The shifts and rotations of a thread whose return stack counts at most the sixteen entries of R134. -/
theorem shiftsAndRotations_of_rsd_le (s : State) (c : CoreId) (t : ThId) (hrs : (s.th c t).rsd ≤ 16) :
    let u := s.th c t
    let n := (u.top 0).toNat % 32
    let m := (u.top 0).toNat % 32 % 24
    let x := u.top 1
    let y := u.top 0
    let cy (k : Nat) (b : Bool) : List (Nat × Bool) := if k = 0 then [] else [(2, b)]
    let sr : Cell := BitVec.ofInt 24 (x.toInt / 2 ^ n)
    OpRuns (.shl c t) 0x24 2 s c t 2 [x <<< n] (znOf (x <<< n) ++ cy n (decide (n ≤ 24) && x.getLsbD (24 - n))) id ∧
    OpRuns (.shr c t) 0x25 2 s c t 2 [x >>> n] (znOf (x >>> n) ++ cy n (decide (n ≤ 24) && x.getLsbD (n - 1))) id ∧
    OpRuns (.sar c t) 0x26 2 s c t 2 [sr] (znOf sr ++ cy n (if n ≤ 24 then x.getLsbD (n - 1) else x.msb)) id ∧
    OpRuns (.rol c t) 0x27 2 s c t 2 [x.rotateLeft m] (znOf (x.rotateLeft m) ++ cy m ((x.rotateLeft m).getLsbD 0)) id ∧
    OpRuns (.shl1 c t) 0x28 1 s c t 1 [y <<< 1] (znOf (y <<< 1) ++ [(2, y.msb)]) id ∧
    OpRuns (.shr1 c t) 0x29 1 s c t 1 [y >>> 1] (znOf (y >>> 1) ++ [(2, y.getLsbD 0)]) id ∧
    OpRuns (.sar1 c t) 0x2A 1 s c t 1 [y.sshiftRight 1] (znOf (y.sshiftRight 1) ++ [(2, y.getLsbD 0)]) id := by
  intro u n m x y cy sr
  have hsr : x.sshiftRight n = sr := sshiftRight_eq_ofInt_div x n
  have hmsb : y.msb = y.getLsbD 23 := BitVec.msb_eq_getLsbD_last y
  refine ⟨opRuns_of_shift rfl hrs (shlC_eq x n), opRuns_of_shift rfl hrs (shrC_eq x n),
    opRuns_of_shift rfl hrs (hsr ▸ sarC_eq x n), opRuns_of_shift rfl hrs (rolC_eq x n), ?_, ?_, ?_⟩
  · exact opRuns_of_shift1 rfl hrs (by simp [shlC_eq, hmsb, y, u])
  · exact opRuns_of_shift1 rfl hrs (by simp [shrC_eq, y, u])
  · exact opRuns_of_shift1 rfl hrs (by simp [sarC_eq, y, u])

/-- The conditions for a thread whose return stack counts at most the sixteen entries of R134, whose window counts at most
its 32 registers (R122), and whose accumulator holds no more than the bits of its PFX syllables (R92). -/
theorem conditions_of_bounds (s : State) (c : CoreId) (t : ThId) (cc : BitVec 4) (e : BitVec 6)
    (hrs : (s.th c t).rsd ≤ 16) (hw : (s.th c t).w ≤ 32) (hp : (s.th c t).pacc.toNat < 2 ^ (8 * (s.th c t).pk)) :
    let u := s.th c t
    let st := u.status
    let z := st.getLsbD 0
    let n := st.getLsbD 1
    let cy := st.getLsbD 2
    let v := st.getLsbD 3
    let b := st.getLsbD 4
    let taken := [z, !z, cy, !cy, n, !n, v, !v, cy && !z, !cy || z, n == v, n != v, !z && (n == v), z || (n != v), b,
      !b].getD cc.toNat false
    let a : PAddr := u.pc + 1 + BitVec.ofInt 20 (BitVec.ofNat (6 + 8 * u.pk) (u.pacc.toNat * 2 ^ 6 + e.toNat)).toInt
    (Due s c t (bccW cc e) → taken = true →
      Does (.bcc c t cc e) s c t 0 [] [] (fun r => (r.modTh c t (fun v => { v with pc := a })).traceRec c t 1 u.pc a)) ∧
    (Due s c t (bccW cc e) → taken = false → Runs (.bcc c t cc e) s c t 0 [] [] id) ∧
    OpRuns (.tste c t) 0x56 0 s c t 0 [] [(4, st.getLsbD 5), (5, false)] id :=
  ⟨fun h htaken => bcc_taken h hrs hw ((condHolds_eq _ cc).trans htaken) hp,
    fun h htaken => bcc_not_taken h hrs hw ((condHolds_eq _ cc).trans htaken), tste_opRuns hrs⟩

/-- The phase reads of a thread whose return stack counts at most the sixteen entries of R134. -/
theorem phaseReads_of_rsd_le (s : State) (c : CoreId) (t : ThId) (hrs : (s.th c t).rsd ≤ 16)
    (hm : (s.core c).maySlot (.thread t) = true) :
    let m := s.fb.mir
    let d (x : Dbl) : List Cell := [x.extractLsb' 24 24, x.setWidth 24]
    OpRuns (.phc c t) 0x68 0 s c t 0 (d m.course) [] id ∧
    OpRuns (.phk c t) 0x69 0 s c t 0 (d m.crank) [] id ∧
    OpRuns (.pht c t) 0x6A 0 s c t 0 (d m.tick) [] id ∧
    OpRuns (.ph3 c t) 0x6B 0 s c t 0 (d m.tick ++ d m.crank ++ d m.course) [] id := by
  intro m d
  refine ⟨opRuns_of_phaseRead (f := fun m => dblCells m.course) rfl hrs hm rfl (by decide) ?_,
    opRuns_of_phaseRead (f := fun m => dblCells m.crank) rfl hrs hm rfl (by decide) ?_,
    opRuns_of_phaseRead (f := fun m => dblCells m.tick) rfl hrs hm rfl (by decide) ?_,
    opRuns_of_phaseRead (f := fun m => dblCells m.course ++ dblCells m.crank ++ dblCells m.tick) rfl hrs hm rfl (by decide) ?_⟩
  · exact dblCells_eq m.course
  · exact dblCells_eq m.crank
  · exact dblCells_eq m.tick
  · simp [dblCells_eq, d, m]

/-! ## Table interpolation (R117, R118) -/

section Table

variable {s : State} {c : CoreId} {t : ThId} {x : Cell} {base : Nat}

/-- The first three cells of a table at `base` and those at the offsets `js` lie in the table's memory, free of store-buffer
entries and of other cores' locks. -/
def TliReads (s : State) (c : CoreId) (base : Nat) (js : List Nat) : Prop :=
  ∀ k, k ∈ [0, 1, 2] ++ js →
    (region base = .local_ ∨ region base = .shared) ∧ region (base + k) = region base ∧
    overCells (s.core c).sb (base + k) 1 = [] ∧ s.lineHeldByOther c (base + k) = false

/-- The cells of a table at `base` that TLI reads: the header's, and those at the offsets `js`. -/
def tliCells (base : Nat) (js : List Nat) : List Nat := ([0, 1, 2] ++ js).map (base + ·)

theorem isDev_of_region {a : Nat} (h : region a = .local_ ∨ region a = .shared) : isDev a = false := by
  by_contra hd
  simp only [isDev, Bool.not_eq_false, Bool.and_eq_true, decide_eq_true_eq] at hd
  obtain ⟨hlo, hhi⟩ := hd
  have hlocal : ¬ a < 0x4000 := by omega
  have hbad : ¬ a < 0x0F0000 := by omega
  simp only [region, hlocal, hbad, hhi, if_false, if_true] at h
  split_ifs at h <;> simp at h

theorem tli_of_header (h : (s.cellMem c base).toNat < 2 ∨ 4096 < (s.cellMem c base).toNat ∨
    23 < (s.cellMem c (base + 2)).toNat) : s.tli c x base = (tliCells base [], 0, true) := by
  unfold State.tli
  simp only [h, if_true]
  rfl

variable (hn : 2 ≤ (s.cellMem c base).toNat) (hn' : (s.cellMem c base).toNat ≤ 4096)
  (hsh : (s.cellMem c (base + 2)).toNat ≤ 23)

include hn hn' hsh

theorem header_in_range : ¬((s.cellMem c base).toNat < 2 ∨ 4096 < (s.cellMem c base).toNat ∨
    23 < (s.cellMem c (base + 2)).toNat) := by
  omega

theorem tli_below (hr : x.toInt - (s.cellMem c (base + 1)).toInt < 0) :
    s.tli c x base = (tliCells base [3], s.cellMem c (base + 3), true) := by
  unfold State.tli
  simp only [header_in_range hn hn' hsh, if_false, hr, if_true, Nat.add_zero, BitVec.ofInt_toInt]
  rfl

theorem tli_above (hr : 0 ≤ x.toInt - (s.cellMem c (base + 1)).toInt)
    (hi : (s.cellMem c base).toNat - 1 ≤
      (x.toInt - (s.cellMem c (base + 1)).toInt).toNat / 2 ^ (s.cellMem c (base + 2)).toNat) :
    s.tli c x base = (tliCells base [3 + ((s.cellMem c base).toNat - 1)],
      s.cellMem c (base + (3 + ((s.cellMem c base).toNat - 1))),
      decide ((((s.cellMem c base).toNat - 1) * 2 ^ (s.cellMem c (base + 2)).toNat : Nat) <
        x.toInt - (s.cellMem c (base + 1)).toInt)) := by
  unfold State.tli
  simp only [header_in_range hn hn' hsh, if_false, Int.not_lt.2 hr, hi, if_true, Nat.add_assoc, BitVec.ofInt_toInt,
    Int.lt_toNat]
  rfl

theorem tli_between (hr : 0 ≤ x.toInt - (s.cellMem c (base + 1)).toInt) {i : Nat}
    (hi' : i = (x.toInt - (s.cellMem c (base + 1)).toInt).toNat / 2 ^ (s.cellMem c (base + 2)).toNat)
    (hi : i < (s.cellMem c base).toNat - 1) :
    s.tli c x base = (tliCells base [3 + i, 3 + (i + 1)],
      BitVec.ofInt 24 ((s.cellMem c (base + (3 + i))).toInt +
        (((s.cellMem c (base + (3 + (i + 1)))).toInt - (s.cellMem c (base + (3 + i))).toInt) *
          (x.toInt - (s.cellMem c (base + 1)).toInt - i * 2 ^ (s.cellMem c (base + 2)).toNat)).fdiv
          (2 ^ (s.cellMem c (base + 2)).toNat)), false) := by
  unfold State.tli
  simp only [header_in_range hn hn' hsh, if_false, Int.not_lt.2 hr, ← hi', Nat.not_le.2 hi, Nat.add_assoc]
  rfl

end Table

theorem tli_opRuns {s : State} {c : CoreId} {t : ThId} {js : List Nat} {y : Cell} {v : Bool} (hrs : (s.th c t).rsd ≤ 16)
    (hreads : TliReads s c ((s.th c t).top 0).toNat js)
    (hp : s.tli c ((s.th c t).top 1) ((s.th c t).top 0).toNat = (tliCells ((s.th c t).top 0).toNat js, y, v)) :
    OpRuns (.tli c t) 0x39 2 s c t 2 [y] (znOf y ++ [(2, false), (3, v)]) id := by
  have hdev : isDev ((s.th c t).top 0).toNat = false := isDev_of_region (hreads 0 (by simp)).1
  have hcell : ∀ a ∈ tliCells ((s.th c t).top 0).toNat js, tliIn ((s.th c t).top 0).toNat a = true ∧
      overCells (s.core c).sb a 1 = [] ∧ s.lineHeldByOther c a = false := by
    intro a ha
    obtain ⟨k, hk, rfl⟩ := List.mem_map.1 ha
    obtain ⟨hmem, hreg, hover, hline⟩ := hreads k hk
    exact ⟨by simp [tliIn, hreg, hmem], hover, hline⟩
  refine opRuns_of_popPush _ _ (flagsZNCV (s.th c t).status y false v) rfl
    ⟨(opWord_eq_opW 0x39).symm, rfl, rfl, fun hdue _ => hdue.noSeq (by decide), rfl, ?_, nofun, Thread.rsBad_zero hrs, ?_⟩
    (fun _ => rfl) ?_ le_rfl (by simp) (flagsZNCV_flagsAre _ y false v)
  · rw [hp]
    simp only [List.any_eq_false]
    intro a ha
    obtain ⟨hin, hover, hline⟩ := hcell a ha
    simp [hover, hline]
  · rw [hp, hdev]
    have hfind : (tliCells ((s.th c t).top 0).toNat js).find? (fun a => !tliIn ((s.th c t).top 0).toNat a) = none :=
      List.find?_eq_none.2 (fun a ha => by simp [(hcell a ha).1])
    simp [hfind]
  · rw [hp]
    rfl

/-- The table interpolation of a thread whose return stack counts at most the sixteen entries of R134. -/
theorem tableInterpolation_of_rsd_le (s : State) (c : CoreId) (t : ThId) (hrs : (s.th c t).rsd ≤ 16) :
    let u := s.th c t
    let base := (u.top 0).toNat
    let m (k : Nat) : Cell := s.cellMem c (base + k)
    let n := (m 0).toNat
    let sh := (m 2).toNat
    let r := (u.top 1).toInt - (m 1).toInt
    let i := r.toNat / 2 ^ sh
    let gives (y : Cell) (v : Bool) : Prop :=
      OpRuns (.tli c t) 0x39 2 s c t 2 [y] (znOf y ++ [(2, false), (3, v)]) id
    let a := (m (3 + i)).toInt
    let b := (m (3 + (i + 1))).toInt
    ((n < 2 ∨ 4096 < n ∨ 23 < sh) → TliReads s c base [] → gives 0 true) ∧
    (2 ≤ n → n ≤ 4096 → sh ≤ 23 →
      (r < 0 → TliReads s c base [3] → gives (m 3) true) ∧
      (0 ≤ r → n - 1 ≤ i → TliReads s c base [3 + (n - 1)] →
        gives (m (3 + (n - 1))) (decide (((n - 1) * 2 ^ sh : Nat) < r))) ∧
      (0 ≤ r → i < n - 1 → TliReads s c base [3 + i, 3 + (i + 1)] →
        gives (BitVec.ofInt 24 (a + ((b - a) * (r - i * 2 ^ sh)).fdiv (2 ^ sh))) false)) := by
  intro u base m n sh r i gives a b
  refine ⟨fun h hreads => tli_opRuns hrs hreads (tli_of_header h), fun hn hn' hsh => ⟨fun hr hreads => ?_,
    fun hr hi hreads => ?_, fun hr hi hreads => ?_⟩⟩
  · exact tli_opRuns hrs hreads (tli_below hn hn' hsh hr)
  · exact tli_opRuns hrs hreads (tli_above hn hn' hsh hr hi)
  · exact tli_opRuns hrs hreads (tli_between hn hn' hsh hr rfl hi)

/-! ## A return stack counted past its end -/

/-- Thread 0 of core 0 about to issue `w`, two zero cells in its window, in trap mode with an RSD of 17. -/
def overCounted (w : Syl) : State :=
  ({ pw := { life := .running }, hs := { lanes := { coreMask := some 0 } } } : State).modTh 0 0 (fun u =>
    { u with st := .ready, pc := 0x100, w := 2, rsd := 17, buf := some { line := 0x10, data := Tab.fill 16 w } })

theorem overCounted_due (w : Syl) : Due (overCounted w) 0 0 w where
  may := rfl
  mapped := rfl
  word := by
    have hline : (0x10 : BitVec 16) = lineOf 0x100 := rfl
    simp [overCounted, Thread.fetched, hline]
  quiet := by
    intro i hi
    have hwp : ((overCounted w).core 0).wp = Tab.fill 8 {} := rfl
    rw [hwp, Tab.get_fill _ _ hi]
    rfl
  room := nofun

theorem overCounted_dueOp (k : BitVec 8) : DueOp (overCounted (opWord k)) 0 0 k where
  toDue := overCounted_due (opWord k)
  noPfx := rfl
  noSeq := fun _ => rfl

/-- Syllable `i` leaves core `c` locked up. -/
def locksUp (i : Instr) (s : State) (c : CoreId) : Bool :=
  match exec i s with
  | .next s' => (s'.core c).lockup.isSome
  | _ => false

/-- A syllable that completes locks nothing up. -/
theorem not_runs_of_locksUp {i : Instr} {s : State} {c : CoreId} {t : ThId} {pops : Nat} {xs : List Cell}
    {fs : List (Nat × Bool)} {f : Thread → Thread} (h0 : (s.core c).lockup = none) (h : locksUp i s c = true) :
    ¬ Runs i s c t pops xs fs f := by
  rintro ⟨s', hx, -, -, hch⟩
  have hl := congrArg (fun q : State => (q.core c).lockup) hch
  simp only [State.arch, Core.arch, Core.modTh, State.core_modCore_self, State.core_modTh_self, h0] at hl
  simp [locksUp, hx, hl] at h

/-- A syllable that is due in `overCounted` and locks the core up does not run. -/
theorem not_opRuns_overCounted {i : Instr} {k : BitVec 8} {need pops : Nat} {xs : List Cell} {fs : List (Nat × Bool)}
    {f : Thread → Thread} (h : locksUp i (overCounted (opWord k)) 0 = true)
    (hw : ((overCounted (opWord k)).th 0 0).winCheck need (xs.length - pops) = .ok) :
    ¬ OpRuns i k need (overCounted (opWord k)) 0 0 pops xs fs f :=
  fun hr => not_runs_of_locksUp rfl h (hr (overCounted_dueOp k) hw)

/-- Refutes O9: SHL moves no return-stack entry, yet in trap mode with an RSD of 17 it raises RSTACK, whose entry finds no
room on the return stack and locks the core up. -/
theorem not_shiftsAndRotations : ¬ Obligations.ShiftsAndRotations := by
  unfold Obligations.ShiftsAndRotations
  intro h
  obtain ⟨hshl, -⟩ := h (overCounted (opWord 0x24)) 0 0
  exact not_opRuns_overCounted (by decide) (by decide) hshl

/-- Refutes O11: TSTE moves no return-stack entry, yet in trap mode with an RSD of 17 it raises RSTACK, whose entry finds
no room on the return stack and locks the core up. -/
theorem not_conditions : ¬ Obligations.Conditions := by
  unfold Obligations.Conditions
  intro h
  obtain ⟨-, -, htste⟩ := h (overCounted (opWord 0x56)) 0 0 0 0
  exact not_opRuns_overCounted (by decide) (by decide) htste

/-- Refutes O20: PHC moves no return-stack entry, yet in trap mode with an RSD of 17 it raises RSTACK, whose entry finds
no room on the return stack and locks the core up. -/
theorem not_phaseReads : ¬ Obligations.PhaseReads := by
  unfold Obligations.PhaseReads
  intro h
  obtain ⟨hphc, -⟩ := h (overCounted (opWord 0x68)) 0 0 (by decide)
  exact not_opRuns_overCounted (by decide) (by decide) hphc

/-- Refutes O21: TLI of a table whose header is 0 moves no return-stack entry, yet in trap mode with an RSD of 17 it raises
RSTACK, whose entry finds no room on the return stack and locks the core up. -/
theorem not_tableInterpolation : ¬ Obligations.TableInterpolation := by
  unfold Obligations.TableInterpolation
  intro h
  obtain ⟨hbad, -⟩ := h (overCounted (opWord 0x39)) 0 0
  exact not_opRuns_overCounted (by decide) (by decide) (hbad (.inl (by decide)) (by decide))

end Sys2Proof.Machine
end

section
/-! The rings of the Flue (chapter 11): a write that clears the enable bit of a CQ, taken and refused (R316). -/

namespace Sys2Proof

/-- A test that some entry of a table meets is met at some number. -/
theorem Tab.any_toList_iff {α : Type} [Inhabited α] {n : Nat} (v : Tab α n) (p : α → Bool) :
    v.toList.any p = true ↔ ∃ i, i < n ∧ p (v.get i) = true := by
  simp only [List.any_eq_true, List.mem_iff_getElem, Vector.length_toList, Vector.getElem_toList]
  constructor
  · rintro ⟨x, ⟨i, hi, rfl⟩, hx⟩
    exact ⟨i, hi, by simpa [Tab.get, hi] using hx⟩
  · rintro ⟨i, hi, hx⟩
    exact ⟨v[i], ⟨i, hi, rfl⟩, by simpa [Tab.get, hi] using hx⟩

end Sys2Proof

namespace Sys2Proof.Machine

/-- What keeps CQ `n` in use: an SQ bound to it that is enabled or not yet STOPPED. -/
def Flue.cqInUse (f : Flue) (n : Nat) : Bool :=
  f.sqs.toList.any (fun q => q.cq.toNat = n && (q.en || q.stopping))

theorem Flue.cqInUse_iff (f : Flue) (n : BitVec 4) :
    f.cqInUse n.toNat = true ↔
      ∃ i, i < 16 ∧ (f.sqs.get i).cq = n ∧ ((f.sqs.get i).en = true ∨ (f.sqs.get i).stopping = true) := by
  simp only [Flue.cqInUse, Tab.any_toList_iff, Bool.and_eq_true, Bool.or_eq_true, decide_eq_true_eq, BitVec.toNat_inj]

/-- CQ `n` becomes `x`, and the shadow page is due. -/
def Flue.cqBecomes (f : Flue) (n : Nat) (x : CqRing) : Flue :=
  { f with shadowDirty := true, cqs := f.cqs.set n x }

/-- The two outcomes of a clear of EN. -/
theorem State.cqOff_eq (s : State) (n : Nat) :
    s.cqOff n = s.modFl (fun f => f.cqBecomes n
      (if s.fl.cqInUse n then { s.fl.cqs.get n with cfgerr := 5 } else { s.fl.cqs.get n with en := false })) := rfl

/-- CQ_DISABLE reaches an enabled CQ wherever BAR0 answers. -/
theorem exec_cqDisable_of_en {s : State} {n : BitVec 4} (hbar : s.barOn = true) (hen : (s.fl.cqs.get n.toNat).en = true) :
    exec (.cqDisable n) s = .next (s.cqOff n.toNat) := by
  change execCqDisable n s = _
  simp only [execCqDisable, hbar, hen, Bool.and_self, if_true]

/-- Settles O48: a bound SQ that is enabled or on its way to STOPPED (entry 84 of the assumption log) decides whether the
clear is refused or taken; the shadow page becomes due either way. -/
theorem cqDisable : Obligations.CqDisable := by
  unfold Obligations.CqDisable
  intro s n hbar hen q inUse becomes
  have hiff : s.fl.cqInUse n.toNat = true ↔ inUse := s.fl.cqInUse_iff n
  refine ⟨s.cqOff n.toNat, exec_cqDisable_of_en hbar hen, ?refused, ?taken⟩
  case refused =>
    intro hu
    rw [State.cqOff_eq, if_pos (hiff.mpr hu)]
    rfl
  case taken =>
    intro hu
    rw [State.cqOff_eq, if_neg (mt hiff.mp hu)]
    rfl

end Sys2Proof.Machine
end

section
/-! The commands of the Flue (chapter 12): a command whose descriptor passes every check, output that one posted write
carries, and PUBKEY_READ (R332). -/

namespace Sys2Proof.Machine

/-! ## A command that passes its checks (R325, R328) -/

/-- A command that reads no input buffer and whose descriptor passes every check runs its own part, under the next tag. -/
theorem command_of_begins {s : State} {sq : BitVec 4} {d : Desc} {c : CmdRule} (act : Desc → Nat → State → State)
    (h : Begins s sq d c.op c.named c.states) (hreads : c.reads = false) (hrange : c.range d = true)
    (hsize : c.size d = true) : command sq c act s = act d s.fl.nextTag (s.begin_ sq.toNat d) := by
  obtain ⟨hnext, hmay, hcode, hzero, hbuf, hlife⟩ := h
  simp only [command, hnext]
  rw [if_neg (by simp [hmay, hcode, hreads]), if_neg (by simp [hzero, hrange]), if_neg (by simp [hbuf, hsize]),
    if_neg (by simp [hlife])]

/-- Traffic over the hearth link passes while that link does not retrain (R15). -/
theorem State.acrossLink_hearth_of_trained {s : State} (h : s.fb.hearth.training = false) (d : Desc) (t : Nat)
    (buf : List Byte) (f : State → State) : s.acrossLink .hearth d t buf f = f s := by
  simp [State.acrossLink, h]

/-! ## Output that one posted write carries (R284, Table 11.1) -/

theorem splitWrites_nil (fuel : Nat) (a : BitVec 64) : splitWrites fuel a [] = [] := by
  cases fuel <;> rfl

/-- Data that does not cross a 256-byte boundary is one write. -/
theorem splitWrites_of_fits {a : BitVec 64} {l : List Byte} (hl : l ≠ []) (h : l.length ≤ 256 - a.toNat % 256) :
    splitWrites l.length a l = [(a, l)] := by
  obtain ⟨b, r, rfl⟩ := List.exists_cons_of_ne_nil hl
  simp only [List.length_cons, splitWrites, List.isEmpty_cons, Bool.false_eq_true, if_false]
  rw [List.take_of_length_le h, List.drop_of_length_le h, splitWrites_nil]

theorem Flue.emitData_of_fits (f : Flue) {a : BitVec 64} {l : List Byte} (hl : l ≠ [])
    (h : l.length ≤ 256 - a.toNat % 256) : f.emitData a l = f.emit (.write a l) := by
  rw [Flue.emitData, splitWrites_of_fits hl h]
  rfl

/-- A buffer that keeps the rules of R324 begins at a multiple of 64. -/
theorem Desc.dptr_mod_of_bufOk {d : Desc} (h : d.bufOk = true) (hlen : d.dlen ≠ 0) : d.dptr.toNat % 64 = 0 := by
  simpa [Desc.bufOk, hlen] using (Bool.and_eq_true_iff.1 h).2

/-- Output of at most 64 bytes that its buffer holds is one write to DPTR, and the command completes with SUCCESS (R324,
R326). -/
theorem State.answer_of_le_64 (s : State) {d : Desc} (t : Nat) {l : List Byte} (res : List Byte) (hbuf : d.bufOk = true)
    (hl : l ≠ []) (h64 : l.length ≤ 64) (hfit : l.length ≤ d.dlen) :
    s.answer d t l res = (s.modFl (fun f => f.emit (.write d.dptr l))).finish t 0 res := by
  have hpos : 0 < l.length := List.length_pos_iff.2 hl
  have hlen : d.dlen ≠ 0 := by omega
  have halign : d.dptr.toNat % 64 = 0 := Desc.dptr_mod_of_bufOk hbuf hlen
  have hroom : l.length ≤ 256 - d.dptr.toNat % 256 := by omega
  simp only [State.answer, State.dmaOut, if_pos hfit, if_neg hlen, List.take_of_length_le hfit,
    Flue.emitData_of_fits _ hl hroom]

/-! ## PUBKEY_READ (R332) -/

/-- The public key goes out once the key pair exists and its record can be read (R272). -/
theorem State.pubkeyRead_of_key {s : State} (hup : s.fb.hearth.down = false) (hkey : s.hs.se.keyDone = true)
    (hrec : s.hs.vault.recSpoilt 20 = false) (d : Desc) (t : Nat) : s.pubkeyRead d t = s.answer d t s.hs.se.pub [] := by
  simp [State.pubkeyRead, hup, hkey, hrec]

/-- Before the key pair exists the answer is NOT_FOUND. -/
theorem State.pubkeyRead_of_no_key {s : State} (hup : s.fb.hearth.down = false) (hkey : s.hs.se.keyDone = false)
    (d : Desc) (t : Nat) : s.pubkeyRead d t = s.finish t 0x0B := by
  simp [State.pubkeyRead, hup, hkey]

/-- A PUBKEY_READ that passes its checks, over a hearth link that does not retrain, reads the key as it begins. -/
theorem exec_pubkeyRead_of_begins {s : State} {sq : BitVec 4} {d : Desc} (h : Begins s sq d 0x03 [] [1, 2, 3, 4, 7])
    (htrained : s.fb.hearth.training = false) (hlen : 60 ≤ d.dlen) :
    exec (.pubkeyRead sq) s = .next ((s.begin_ sq.toNat d).pubkeyRead d s.fl.nextTag) := by
  change execPubkeyRead sq s = _
  have htrained' : (s.begin_ sq.toNat d).fb.hearth.training = false := htrained
  rw [execPubkeyRead, command_of_begins _ h rfl rfl (decide_eq_true hlen), State.acrossLink_hearth_of_trained htrained']

/-- Settles O50: a buffer of R324 begins at a multiple of 64, so its first 60 bytes cross no 256-byte boundary and the key
is one write; the begin of the command leaves the Hearthstone and the hearth link as they are. -/
theorem pubkeyRead : Obligations.PubkeyRead := by
  unfold Obligations.PubkeyRead
  intro s sq d hbegins hup htrained hlen
  have hexec := exec_pubkeyRead_of_begins hbegins htrained hlen
  set r := s.begin_ sq.toNat d
  have hfb : r.fb = s.fb := rfl
  have hhs : r.hs = s.hs := rfl
  rw [← hfb] at hup
  rw [← hhs]
  refine ⟨fun hkey hpub hrec => ?written, fun hkey => ?notFound⟩
  case written =>
    have hne : r.hs.se.pub ≠ [] := List.ne_nil_of_length_pos (by omega)
    rw [Answers, hexec, State.pubkeyRead_of_key hup hkey hrec,
      State.answer_of_le_64 _ _ [] hbegins.buf hne (by omega) (hpub.trans_le hlen)]
  case notFound =>
    rw [Answers, hexec, State.pubkeyRead_of_no_key hup hkey]
    rfl

end Sys2Proof.Machine
end

section
/-! The syllable set (chapters 04 to 09) on a return stack counted past its sixteen entries. R135 lets a syllable raise
RSTACK for its own pushes and pops; the statements below range over every state, also over one in trap mode whose RSD is 17,
and there a syllable that moves no return-stack entry raises RSTACK, finds no room for the entry and locks its core up. So
each of these statements fails at one of its syllables. -/

namespace Sys2Proof.Machine

/-- A syllable whose change keeps the core as it was about its lockup locks nothing up. -/
theorem not_does_of_locksUp {i : Instr} {s : State} {c : CoreId} {t : ThId} {pops : Nat} {xs : List Cell}
    {fs : List (Nat × Bool)} {g : State → State}
    (h0 : ((g (s.modTh c t (fun u => u.count.advance))).core c).lockup = none) (h : locksUp i s c = true) :
    ¬ Does i s c t pops xs fs g := by
  rintro ⟨s', hx, -, -, hch⟩
  have hl := congrArg (fun q : State => (q.core c).lockup) hch
  simp only [State.arch, Core.arch, Core.modTh, State.core_modCore_self, State.core_modTh_self, h0] at hl
  simp [locksUp, hx, hl] at h

/-- `overCounted` with core 0 changed. -/
def overCountedWith (w : Syl) (g : Core → Core) : State := (overCounted w).modCore 0 g

/-- A syllable stays due when its core changes outside the thread, the watchpoints and what may hold its issue. -/
theorem overCountedWith_dueOp (k : BitVec 8) (g : Core → Core) (hmay : (overCountedWith (opWord k) g).mayIssue 0 0 = true)
    (hth : (overCountedWith (opWord k) g).th 0 0 = (overCounted (opWord k)).th 0 0)
    (hwp : ((overCountedWith (opWord k) g).core 0).wp = ((overCounted (opWord k)).core 0).wp) :
    DueOp (overCountedWith (opWord k) g) 0 0 k := by
  obtain ⟨⟨-, hmapped, hword, hquiet, hroom⟩, hpfx, hseq⟩ := overCounted_dueOp k
  exact ⟨⟨hmay, by rwa [hth], by rwa [hth], by rwa [hwp], by rwa [hth]⟩, by rwa [hth], by rwa [hth]⟩

/-- Refutes O7: NOP moves no return-stack entry, yet in trap mode with an RSD of 17 it locks the core up. -/
theorem not_stackMoves : ¬ Obligations.StackMoves := by
  unfold Obligations.StackMoves
  intro h
  obtain ⟨hnop, -⟩ := h.1 (overCounted (opWord 0x00)) 0 0
  exact not_opRuns_overCounted (by decide) (by decide) hnop

/-- Refutes O8: ADD moves no return-stack entry, yet in trap mode with an RSD of 17 it locks the core up. -/
theorem not_sumsAndLogic : ¬ Obligations.SumsAndLogic := by
  unfold Obligations.SumsAndLogic
  intro h
  obtain ⟨hadd, -⟩ := h.1 (overCounted (opWord 0x10)) 0 0
  exact not_opRuns_overCounted (by decide) (by decide) hadd

/-- Refutes O10: DIV moves no return-stack entry, yet in trap mode with an RSD of 17 it locks the core up. -/
theorem not_productsAndDivisions : ¬ Obligations.ProductsAndDivisions := by
  unfold Obligations.ProductsAndDivisions
  intro h
  obtain ⟨hdiv, -⟩ := h.1 (overCounted (opWord 0x35)) 0 0
  exact not_opRuns_overCounted (by decide) (by decide) hdiv

/-- Refutes O12: LIT moves no return-stack entry, yet in trap mode with an RSD of 17 it locks the core up. -/
theorem not_literalsAndBranches : ¬ Obligations.LiteralsAndBranches := by
  unfold Obligations.LiteralsAndBranches
  intro h
  obtain ⟨hlit, -⟩ := h.1 (overCounted (litW 0)) 0 0 0 0
  exact not_runs_of_locksUp rfl (by decide) (hlit (overCounted_due _) (by decide))

/-- Refutes O13: LD of the local cell 0 moves no return-stack entry, yet in trap mode with an RSD of 17 it locks the core
up. -/
theorem not_loads : ¬ Obligations.Loads := by
  unfold Obligations.Loads
  intro h
  obtain ⟨hld, -⟩ := h (overCounted (opWord 0x40)) 0 0
  obtain ⟨hserved, -⟩ := hld (by decide)
  exact not_opRuns_overCounted (by decide) (by decide) (hserved 0 (by decide))

/-- Refutes O14: ST to the local cell 0 moves no return-stack entry, yet in trap mode with an RSD of 17 it locks the core
up. -/
theorem not_storesAndChecks : ¬ Obligations.StoresAndChecks := by
  unfold Obligations.StoresAndChecks
  intro h
  obtain ⟨hcell, -⟩ := h.2.1 (overCounted (opWord 0x41)) 0 0 (by decide)
  obtain ⟨hst, -⟩ := hcell (by decide)
  exact not_does_of_locksUp rfl (by decide) (hst (overCounted_dueOp _) (by decide))

/-- Refutes O15: PUSHLL with no deferred load outstanding moves no return-stack entry, yet in trap mode with an RSD of 17
it locks the core up. -/
theorem not_deferredAndLocked : ¬ Obligations.DeferredAndLocked := by
  unfold Obligations.DeferredAndLocked
  intro h
  obtain ⟨-, hpushll, -⟩ := h.1 (overCounted (opWord 0x48)) 0 0
  exact not_opRuns_overCounted (by decide) (by decide) (hpushll rfl)

/-- Refutes O16: PUSHB of its own bit 0 moves no return-stack entry, yet in trap mode with an RSD of 17 it locks the
core up. -/
theorem not_bitsAndWaits : ¬ Obligations.BitsAndWaits := by
  unfold Obligations.BitsAndWaits
  intro h
  obtain ⟨-, -, -, -, -, -, -, -, hpushb, -⟩ := h.1 (overCounted (opWord 0x54)) 0 0 0
  exact not_opRuns_overCounted (by decide) (by decide) (hpushb (by decide))

/-- Refutes O17: MTS to SR_STATUS at M level moves no return-stack entry, yet in trap mode with an RSD of 17 it locks the
core up. -/
theorem not_specialRegisters : ¬ Obligations.SpecialRegisters := by
  unfold Obligations.SpecialRegisters
  intro h
  obtain ⟨-, hmts, -⟩ := h (overCounted (opWord 0x61)) 0 0
  exact not_opRuns_overCounted (by decide) (by decide) (hmts (by decide) (by decide))

/-- Refutes O18: BRK on an attached core moves no return-stack entry, yet in trap mode with an RSD of 17 it locks the core
up. -/
theorem not_trapsAndReturns : ¬ Obligations.TrapsAndReturns := by
  unfold Obligations.TrapsAndReturns
  intro h
  obtain ⟨-, -, -, -, -, hbrk, -⟩ := h.1 (overCountedWith (opWord 0x5F) (fun k => { k with attached := true })) 0 0
  obtain ⟨hruns, -⟩ := hbrk rfl
  exact not_runs_of_locksUp rfl (by decide) (hruns (overCountedWith_dueOp _ _ rfl rfl rfl) (by decide))

/-- Refutes O22: a refused LOPEN moves no return-stack entry, yet in trap mode with an RSD of 17 it locks the core up. -/
theorem not_logSyllables : ¬ Obligations.LogSyllables := by
  unfold Obligations.LogSyllables
  intro h
  obtain ⟨-, hlopen, -⟩ := h.1 (overCounted (opWord 0x70)) 0 0 rfl rfl
  exact not_opRuns_overCounted (by decide) (by decide) (hlopen (by decide))

/-- A core with a bundle installed whose every open code starts a routine at 0xC00 without operands or results. -/
def Core.withOpenCodes (k : Core) : Core :=
  { k with cs := { k.cs with openIn := true, disp := Tab.fill 64 0x80000000 } }

/-- Refutes O23: an open code with an entry moves no return-stack entry, yet in trap mode with an RSD of 17 it locks the
core up and starts no routine. -/
theorem not_openRoutines : ¬ Obligations.OpenRoutines := by
  unfold Obligations.OpenRoutines
  intro h
  obtain ⟨hopen, -⟩ := h (overCountedWith (opWord 0xC0) Core.withOpenCodes) 0
  have hdoes := hopen 0 0 ⟨0, 0, false, 0xC00⟩ rfl (by decide) (by decide) rfl
    (overCountedWith_dueOp _ _ rfl rfl rfl) (by decide)
  exact not_does_of_locksUp rfl (by decide) hdoes

/-- Refutes O26: SWAPCTX, here behind another swap of its thread, moves no return-stack entry, yet in trap mode with an RSD
of 17 it locks the core up. -/
theorem not_contextSwaps : ¬ Obligations.ContextSwaps := by
  unfold Obligations.ContextSwaps
  intro h
  obtain ⟨hm, -⟩ := h (overCountedWith (opWord 0x63) (fun k => { k with bell := some (.swap 0) })) 0 0
  obtain ⟨hwait, -⟩ := hm (by decide)
  have hruns := hwait (fun ⟨_, _, _, _, _, _, hbell⟩ => hbell rfl) (overCountedWith_dueOp _ _ rfl rfl rfl) (by decide)
  exact not_runs_of_locksUp rfl (by decide) hruns

end Sys2Proof.Machine
end

section
/-! The words of the syllables (R90, R120, Table 4.1): the decoder and the encoder undo each other, class by class. -/

namespace Sys2Proof

/-! ## The fields of a word -/

theorem toNat_append_eq_add {n m : Nat} (x : BitVec n) (y : BitVec m) :
    (x ++ y).toNat = x.toNat * 2 ^ m + y.toNat := by
  rw [BitVec.toNat_append, ← Nat.shiftLeft_add_eq_or_of_lt y.isLt, Nat.shiftLeft_eq]

/-- The field behind a word's leading bits. -/
theorem setWidth_append {n m : Nat} (x : BitVec n) (y : BitVec m) : (x ++ y).setWidth m = y := by
  apply BitVec.eq_of_toNat_eq
  rw [BitVec.toNat_setWidth, toNat_append_eq_add, Nat.mul_add_mod', Nat.mod_eq_of_lt y.isLt]

/-- A word is its leading bits and the field behind it. -/
theorem append_setWidth {n m : Nat} (x : BitVec n) (w : BitVec (n + m)) (h : w.toNat / 2 ^ m = x.toNat) :
    x ++ w.setWidth m = w := by
  apply BitVec.eq_of_toNat_eq
  rw [toNat_append_eq_add, BitVec.toNat_setWidth, ← h]
  exact Nat.div_add_mod' _ _

/-! ## Zero-operand syllables -/

/-- An open code is the low six bits of its OP code. -/
theorem openCode_eq (k : BitVec 8) (h : 0xC0 ≤ k.toNat) : (0xC0 + (k.setWidth 6).setWidth 8 : BitVec 8) = k := by
  decide +revert

theorem decodeOp_openCode (c : CoreId) (t : ThId) (k : BitVec 6) : decodeOp c t (0xC0 + k.setWidth 8) = .openCode c t k := by
  have hge : 0xC0 ≤ (0xC0 + k.setWidth 8 : BitVec 8).toNat := by decide +revert
  have hk : (0xC0 + k.setWidth 8 : BitVec 8).setWidth 6 = k := by decide +revert
  rw [decodeOp, if_pos hge, hk]

/-- An OP code of R120 spells no other syllable. -/
theorem decodeOp_unassigned (c : CoreId) (t : ThId) (k : BitVec 8) (h : isUnassigned k.toNat = true) :
    decodeOp c t k = .unassignedOp c t k := by
  unfold decodeOp
  split
  · next hk =>
    have hlt : k.toNat ≤ 0xBF := by
      simp [isUnassigned] at h
      omega
    omega
  · split
    case h_103 => rfl
    all_goals next hk => rw [hk] at h; exact absurd h (by decide)

/-- Every OP code spells one well-formed syllable, whose OP code it is. -/
theorem opCode_decodeOp (c : CoreId) (t : ThId) (k : BitVec 8) :
    opCode (decodeOp c t k) = some (c, t, k) ∧ (decodeOp c t k).wf = true := by
  unfold decodeOp
  split
  · next hk => exact ⟨by rw [opCode, openCode_eq k hk], rfl⟩
  · split
    case h_103 => exact ⟨rfl, by simp only [imp_false] at *; simp [Instr.wf, isUnassigned]; omega⟩
    all_goals next hk => exact ⟨by rw [opCode, ← BitVec.ofNat_toNat 8 k |>.trans (BitVec.setWidth_eq k), hk]; rfl, rfl⟩

/-- A well-formed zero-operand syllable is the one that its OP code spells. -/
theorem decodeOp_of_opCode {i : Instr} {c : CoreId} {t : ThId} {k : BitVec 8} (h : opCode i = some (c, t, k))
    (hwf : i.wf = true) : decodeOp c t k = i := by
  cases i
  case openCode c' t' k' =>
    simp only [opCode, Option.some.injEq, Prod.mk.injEq] at h
    obtain ⟨rfl, rfl, rfl⟩ := h
    exact decodeOp_openCode c' t' k'
  case unassignedOp c' t' k' =>
    simp only [opCode, Option.some.injEq, Prod.mk.injEq] at h
    obtain ⟨rfl, rfl, rfl⟩ := h
    exact decodeOp_unassigned c' t' k' hwf
  all_goals
    simp only [opCode, Option.some.injEq, Prod.mk.injEq, reduceCtorEq] at h <;> (obtain ⟨rfl, rfl, rfl⟩ := h; rfl)

/-! ## The classes of Table 4.1 -/

section Classes

variable (c : CoreId) (t : ThId)

theorem decodeSyl_lit (v : BitVec 10) : decodeSyl c t (0b00#2 ++ v) = .lit c t v := by
  have hn := toNat_append_eq_add 0b00#2 v
  have hv := v.isLt
  rw [decodeSyl, if_pos (by simp at hn; omega), setWidth_append]

theorem decodeSyl_call (d : BitVec 9) : decodeSyl c t (0b010#3 ++ d) = .call c t d := by
  have hn := toNat_append_eq_add 0b010#3 d
  have hd := d.isLt
  simp at hn
  rw [decodeSyl, if_neg (by omega), if_pos (by omega), setWidth_append]

theorem decodeSyl_jmp (d : BitVec 9) : decodeSyl c t (0b011#3 ++ d) = .jmp c t d := by
  have hn := toNat_append_eq_add 0b011#3 d
  have hd := d.isLt
  simp at hn
  rw [decodeSyl, if_neg (by omega), if_neg (by omega), if_pos (by omega), setWidth_append]

theorem decodeSyl_bcc (cc : BitVec 4) (d : BitVec 6) : decodeSyl c t ((0b10#2 ++ cc) ++ d) = .bcc c t cc d := by
  have hn := toNat_append_eq_add (0b10#2 ++ cc) d
  have hp := toNat_append_eq_add 0b10#2 cc
  have hd := d.isLt
  have hcc := cc.isLt
  have hfield : ((0b10#2 ++ cc) ++ d).extractLsb' 6 4 = cc := by
    apply BitVec.eq_of_toNat_eq
    rw [BitVec.extractLsb'_toNat, Nat.shiftRight_eq_div_pow, hn, hp]
    simp at hp ⊢
    omega
  simp at hn hp
  rw [decodeSyl, if_neg (by omega), if_neg (by omega), if_neg (by omega), if_pos (by omega), hfield, setWidth_append]

/-- The bit operations: the two bits behind the leading bits name one of four. -/
theorem decodeSyl_bitOp (o : BitVec 2) (a : BitVec 7) : decodeSyl c t ((0b110#3 ++ o) ++ a) =
    match o.toNat with
    | 0 => .setb c t a
    | 1 => .clrb c t a
    | 2 => .tstb c t a
    | _ => .tglb c t a := by
  have hn := toNat_append_eq_add (0b110#3 ++ o) a
  have hp := toNat_append_eq_add 0b110#3 o
  have ha := a.isLt
  have ho := o.isLt
  have hfield : (((0b110#3 ++ o) ++ a).extractLsb' 7 2).toNat = o.toNat := by
    rw [BitVec.extractLsb'_toNat, Nat.shiftRight_eq_div_pow, hn, hp]
    simp at hp ⊢
    omega
  simp at hn hp
  rw [decodeSyl, if_neg (by omega), if_neg (by omega), if_neg (by omega), if_neg (by omega), if_pos (by omega), hfield,
    setWidth_append] <;> rfl

theorem decodeSyl_pfx (p : BitVec 8) : decodeSyl c t (0b1110#4 ++ p) = .pfx c t p := by
  have hn := toNat_append_eq_add 0b1110#4 p
  have hp := p.isLt
  simp at hn
  rw [decodeSyl, if_neg (by omega), if_neg (by omega), if_neg (by omega), if_neg (by omega), if_neg (by omega),
    if_pos (by omega), setWidth_append]

theorem decodeSyl_op (k : BitVec 8) : decodeSyl c t (0b1111#4 ++ k) = decodeOp c t k := by
  have hn := toNat_append_eq_add 0b1111#4 k
  simp at hn
  rw [decodeSyl, if_neg (by omega), if_neg (by omega), if_neg (by omega), if_neg (by omega), if_neg (by omega),
    if_neg (by omega), setWidth_append]

end Classes

/-- A zero-operand syllable has its OP code as its word, and the core and thread that it names as its issuer. -/
theorem encodeSyl_of_opCode {i : Instr} {c : CoreId} {t : ThId} {k : BitVec 8} (h : opCode i = some (c, t, k)) :
    encodeSyl i = some (0b1111#4 ++ k) ∧ sylIssuer i = some (c, t) := by
  constructor
  · unfold encodeSyl
    split
    case h_10 => simp only [h, Option.map_some]
    all_goals simp only [opCode, reduceCtorEq] at h
  · unfold sylIssuer
    split
    case h_10 => simp only [h, Option.map_some]
    all_goals simp only [opCode, reduceCtorEq] at h

/-- A well-formed syllable has a word, and that word spells it. -/
theorem decodeSyl_encodeSyl {i : Instr} {c : CoreId} {t : ThId} (h : sylIssuer i = some (c, t)) (hwf : i.wf = true) :
    ∃ w, encodeSyl i = some w ∧ decodeSyl c t w = i := by
  unfold sylIssuer at h
  split at h
  case h_10 =>
    obtain ⟨⟨c', t', k⟩, hop, hct⟩ := Option.map_eq_some_iff.1 h
    simp only [Prod.mk.injEq] at hct
    obtain ⟨rfl, rfl⟩ := hct
    obtain ⟨henc, -⟩ := encodeSyl_of_opCode hop
    exact ⟨_, henc, by rw [decodeSyl_op, decodeOp_of_opCode hop hwf]⟩
  all_goals
    simp only [Option.some.injEq, Prod.mk.injEq] at h
    obtain ⟨rfl, rfl⟩ := h
  case h_1 => exact ⟨_, rfl, decodeSyl_lit _ _ _⟩
  case h_2 => exact ⟨_, rfl, decodeSyl_call _ _ _⟩
  case h_3 => exact ⟨_, rfl, decodeSyl_jmp _ _ _⟩
  case h_4 => exact ⟨_, rfl, decodeSyl_bcc _ _ _ _⟩
  case h_5 => exact ⟨_, rfl, decodeSyl_pfx _ _ _⟩
  case h_6 => exact ⟨_, rfl, decodeSyl_bitOp _ _ 0 _⟩
  case h_7 => exact ⟨_, rfl, decodeSyl_bitOp _ _ 1 _⟩
  case h_8 => exact ⟨_, rfl, decodeSyl_bitOp _ _ 2 _⟩
  case h_9 => exact ⟨_, rfl, decodeSyl_bitOp _ _ 3 _⟩

/-- Every word spells a well-formed syllable of the thread that fetches it, whose word it is. -/
theorem encodeSyl_decodeSyl (c : CoreId) (t : ThId) (w : Syl) : sylIssuer (decodeSyl c t w) = some (c, t) ∧
    (decodeSyl c t w).wf = true ∧ encodeSyl (decodeSyl c t w) = some w := by
  have hw := w.isLt
  unfold decodeSyl
  split
  · exact ⟨rfl, rfl, congrArg some (append_setWidth (m := 10) 0b00#2 w (by simp; omega))⟩
  split
  · exact ⟨rfl, rfl, congrArg some (append_setWidth (m := 9) 0b010#3 w (by simp; omega))⟩
  split
  · exact ⟨rfl, rfl, congrArg some (append_setWidth (m := 9) 0b011#3 w (by simp; omega))⟩
  split
  · refine ⟨rfl, rfl, congrArg some (append_setWidth (m := 6) (0b10#2 ++ w.extractLsb' 6 4) w ?_)⟩
    rw [toNat_append_eq_add, BitVec.extractLsb'_toNat, Nat.shiftRight_eq_div_pow]
    simp
    omega
  split
  · have hfield : (w.extractLsb' 7 2).toNat = w.toNat / 128 % 4 := by
      rw [BitVec.extractLsb'_toNat, Nat.shiftRight_eq_div_pow]
    split
    case h_1 ho => exact ⟨rfl, rfl, congrArg some (append_setWidth (m := 7) (0b110#3 ++ 0b00#2) w (by simp; omega))⟩
    case h_2 ho => exact ⟨rfl, rfl, congrArg some (append_setWidth (m := 7) (0b110#3 ++ 0b01#2) w (by simp; omega))⟩
    case h_3 ho => exact ⟨rfl, rfl, congrArg some (append_setWidth (m := 7) (0b110#3 ++ 0b10#2) w (by simp; omega))⟩
    case h_4 h0 h1 h2 =>
      simp only [imp_false] at h0 h1 h2
      exact ⟨rfl, rfl, congrArg some (append_setWidth (m := 7) (0b110#3 ++ 0b11#2) w (by simp; omega))⟩
  split
  · exact ⟨rfl, rfl, congrArg some (append_setWidth (m := 8) 0b1110#4 w (by simp; omega))⟩
  · obtain ⟨hop, hwf⟩ := opCode_decodeOp c t (w.setWidth 8)
    obtain ⟨henc, hiss⟩ := encodeSyl_of_opCode hop
    exact ⟨hiss, hwf, henc.trans (congrArg some (append_setWidth (m := 8) 0b1111#4 w (by simp; omega)))⟩

/-- Settles O4: class by class, the field behind a word's leading bits is the syllable's operand. -/
theorem syllableRoundTrip : Obligations.SyllableRoundTrip :=
  ⟨fun _ _ _ h hwf => decodeSyl_encodeSyl h hwf, encodeSyl_decodeSyl⟩

end Sys2Proof
end

section
/-! The state after reset (chapter 14). -/

namespace Sys2Proof.Machine

/-- Settles O2: the memories after reset are empty, and so is the OTP array. -/
theorem resetMeetsInv : Obligations.ResetMeetsInv where
  mems := State.memsWf_reset
  fuses := fun _ => (by decide : (0 : BitVec 39) &&& ~~~0 = 0)

/-- Every core of the state after reset is as a COLD reset leaves it. -/
theorem core_reset (c : CoreId) : State.reset.core c = {} := Tab.get_fill c.toNat _ c.isLt

/-- Every thread of the state after reset is as a COLD reset leaves it. -/
theorem th_reset (c : CoreId) (t : ThId) : State.reset.th c t = {} := by
  rw [State.th, core_reset]
  exact Tab.get_fill t.toNat _ t.isLt

/-- Settles O5: the value of each field after reset, each entry of a table being the one that fills it. -/
theorem resetValues : Obligations.ResetValues := by
  unfold Obligations.ResetValues
  refine ⟨rfl, rfl, rfl, rfl, rfl, rfl, rfl, rfl, rfl, rfl, fun c t => ?threads, fun i hi => ?_, fun i hi => ?_,
    by decide, fun i hi => ?_, fun i hi => ?_, fun i hi => ?_, rfl, rfl, rfl, rfl, rfl⟩
  case threads =>
    rw [th_reset, core_reset]
    exact ⟨rfl, rfl, rfl, rfl, rfl, rfl, fun i hi => congrArg Arm.en (Tab.get_fill i _ hi)⟩
  · exact congrArg Compar.en (Tab.get_fill i _ hi)
  · exact congrArg EmRing.en (Tab.get_fill i _ hi)
  · exact congrArg LogSlot.state (Tab.get_fill i _ hi)
  · exact ⟨congrArg SqRing.en (Tab.get_fill i _ hi), congrArg CqRing.en (Tab.get_fill i _ hi)⟩
  · exact congrArg EqRing.en (Tab.get_fill i _ hi)

end Sys2Proof.Machine
end

section
/-! What faults, entries and lockups leave of the cores and memories (sections 6.2 to 6.4), and what an entry makes of its
thread: the rules that the core's events use. -/

namespace Sys2Proof

/-- A change that a reading of each entry does not see leaves the readings as they were. -/
theorem Tab.map_modify {α β : Type} [Inhabited α] {n : Nat} (v : Tab α n) (i : Nat) (f : α → α) (g : α → β)
    (h : g (f (v.get i)) = g (v.get i)) : (v.modify i f).map g = v.map g := by
  unfold Tab.modify Tab.set
  split
  · next hi =>
    apply Vector.ext
    intro j hj
    simp only [Vector.getElem_map, Vector.getElem_set]
    split
    · next e => subst e; rw [h]; simp [Tab.get, hi]
    · rfl
  · rfl

/-- An entry of a table whose every entry is changed. -/
theorem Tab.get_map {α β : Type} [Inhabited α] [Inhabited β] {n : Nat} (v : Tab α n) (f : α → β) (i : Nat) (h : i < n) :
    Tab.get (v.map f) i = f (Tab.get v i) := by
  simp [Tab.get, h]

end Sys2Proof

namespace Sys2Proof.Machine

/-! ## Least indices -/

theorem firstIdx_eq_none_iff {p : Nat → Bool} {n : Nat} : firstIdx p n = none ↔ ∀ j, j < n → p j = false := by
  induction n with
  | zero => simp [firstIdx]
  | succ n ih =>
    unfold firstIdx
    cases h : firstIdx p n with
    | some k =>
      have hne : ¬ ∀ j, j < n → p j = false := fun hall => by rw [ih.2 hall] at h; cases h
      simp only [reduceCtorEq, false_iff]
      exact fun hall => hne (fun j hj => hall j (by omega))
    | none =>
      have hall := ih.1 h
      simp only [ite_eq_right_iff, reduceCtorEq, imp_false, Bool.not_eq_true]
      exact ⟨fun hn j hj => (Nat.lt_succ_iff_lt_or_eq.1 hj).elim (hall j) (fun e => e ▸ hn), fun hj => hj n (by omega)⟩

theorem firstIdx_spec {p : Nat → Bool} {n i : Nat} (h : firstIdx p n = some i) :
    i < n ∧ p i = true ∧ ∀ j, j < i → p j = false := by
  induction n with
  | zero => simp [firstIdx] at h
  | succ n ih =>
    unfold firstIdx at h
    cases hn : firstIdx p n with
    | some k =>
      rw [hn, Option.some.injEq] at h
      subst h
      obtain ⟨hk, hpk, hbelow⟩ := ih hn
      exact ⟨by omega, hpk, hbelow⟩
    | none =>
      simp only [hn, Option.ite_none_right_eq_some, Option.some.injEq] at h
      obtain ⟨hpn, rfl⟩ := h
      exact ⟨by omega, hpn, firstIdx_eq_none_iff.1 hn⟩

/-- The least index at which `p` holds is found. -/
theorem firstIdx_eq_some {p : Nat → Bool} {n i : Nat} (hi : i < n) (hp : p i = true) (hbelow : ∀ j, j < i → p j = false) :
    firstIdx p n = some i := by
  cases h : firstIdx p n with
  | none => rw [firstIdx_eq_none_iff.1 h i hi] at hp; cases hp
  | some k =>
    obtain ⟨-, hpk, hk⟩ := firstIdx_spec h
    rcases Nat.lt_trichotomy k i with hlt | rfl | hlt
    · rw [hbelow k hlt] at hpk; cases hpk
    · rfl
    · rw [hk i hlt] at hp; cases hp

/-! ## Bits and fields -/

theorem getLsbD_setBit_of_lt {w : Nat} (x : BitVec w) (j i : Nat) (b : Bool) (hi : i < w) :
    (setBit x j b).getLsbD i = if i = j then b else x.getLsbD i := by
  have hp : (BitVec.ofNat w (2 ^ j)).getLsbD i = decide (i = j) := by
    rw [BitVec.getLsbD_ofNat, Nat.testBit_two_pow]
    simp [hi, eq_comm]
  unfold setBit
  cases b
  · simp only [Bool.false_eq_true, if_false, BitVec.getLsbD_and, BitVec.getLsbD_not, hp, hi, decide_true, Bool.true_and]
    by_cases e : i = j <;> simp [e]
  · simp only [if_true, BitVec.getLsbD_or, hp]
    by_cases e : i = j <;> simp [e]

theorem getLsbD_setField {w : Nat} (x : BitVec w) (lo n v i : Nat) (hi : i < w) :
    (setField x lo n v).getLsbD i = if lo ≤ i ∧ i < lo + n then v.testBit (i - lo) else x.getLsbD i := by
  have hmask : (BitVec.ofNat w ((2 ^ n - 1) * 2 ^ lo)).getLsbD i = decide (lo ≤ i ∧ i < lo + n) := by
    rw [BitVec.getLsbD_ofNat, Nat.testBit_mul_two_pow, Nat.testBit_two_pow_sub_one]
    by_cases h : lo ≤ i
    · have e : decide (i - lo < n) = decide (i < lo + n) := decide_eq_decide.2 (by omega)
      simp [hi, h, e]
    · simp [h]
  have hval : (BitVec.ofNat w ((v % 2 ^ n) * 2 ^ lo)).getLsbD i = (decide (lo ≤ i ∧ i < lo + n) && v.testBit (i - lo)) := by
    rw [BitVec.getLsbD_ofNat, Nat.testBit_mul_two_pow, Nat.testBit_mod_two_pow]
    by_cases h : lo ≤ i
    · have e : decide (i - lo < n) = decide (i < lo + n) := decide_eq_decide.2 (by omega)
      simp [hi, h, e]
    · simp [h]
  simp only [setField, BitVec.getLsbD_or, BitVec.getLsbD_and, BitVec.getLsbD_not, hi, decide_true, Bool.true_and, hmask, hval]
  by_cases h : lo ≤ i ∧ i < lo + n <;> simp [h]

/-! ## The data of the cores -/

/-- A thread without what an entry, a lockup, the end of a wait or the fetch changes: its data stack, its latch, its
deferred loads, its own bits and its arms stay. -/
def Thread.data (u : Thread) : Thread :=
  { u with st := .stopped, why := .none, want := none, pc := 0, status := 0, prod := 0, pend := [], rs := Tab.fill 16 0,
           rsd := 0, rsp := 0, pacc := 0, pk := 0, lockN := none, fr := {}, buf := none, xfer := none, haltReq := false,
           step := none, wasSt := .stopped }

/-- A core with the data of its threads, without its fetch, its requests and its lockup. -/
def Core.data (k : Core) : Core :=
  { (k.mapTh Thread.data) with icache := [], fills := [], slotq := [], bq := [], lastTh := 7, lockup := none }

/-- The data of the cores, and the memories that they share. -/
def State.data (s : State) : Tab Core 16 × Mem 12 × Mem 24 × Mem 24 :=
  (s.cores.map Core.data, s.fb.prog, s.fb.shared, s.fb.ember)

@[simp] theorem Thread.settle_data (u : Thread) : u.settle.data = u.data := by
  unfold Thread.settle
  split <;> rfl

@[simp] theorem Thread.enter_data (u : Thread) (e : EntryInfo) : (u.enter e).data = u.data := rfl

theorem Core.data_modTh (k : Core) (t : ThId) (f : Thread → Thread) (h : ∀ u, (f u).data = u.data) :
    (k.modTh t f).data = k.data := by
  have hth : (k.th.modify t.toNat f).map Thread.data = k.th.map Thread.data := Tab.map_modify _ _ _ _ (h _)
  simp only [Core.data, Core.modTh, Core.mapTh, hth]

theorem Core.data_mapTh (k : Core) (f : Thread → Thread) (h : ∀ u, (f u).data = u.data) : (k.mapTh f).data = k.data := by
  have hth : (k.th.map f).map Thread.data = k.th.map Thread.data := by
    apply Vector.ext
    intro j hj
    simp only [Vector.getElem_map, h]
  simp only [Core.data, Core.mapTh, hth]

@[simp] theorem Core.unask_data (k : Core) (r : SlotReq) : (k.unask r).data = k.data := rfl

@[simp] theorem Core.fillTurns_data (k : Core) : k.fillTurns.data = k.data := rfl

@[simp] theorem Core.askFill_data (k : Core) (l : BitVec 16) : (k.askFill l).data = k.data := by
  unfold Core.askFill Core.askSlot
  split
  · rfl
  · split <;> rfl

@[simp] theorem Core.testXfer_data (k : Core) (t : ThId) : (k.testXfer t).data = k.data := by
  unfold Core.testXfer
  split
  · rfl
  · exact Core.data_modTh k t _ (fun _ => rfl)

@[simp] theorem Core.retry_data (k : Core) : k.retry.data = k.data := by
  refine (Core.data_mapTh k.fillTurns _ (fun u => ?_)).trans k.fillTurns_data
  split
  · exact Thread.settle_data _
  · rfl

theorem State.data_modCore (s : State) (c : CoreId) (f : Core → Core) (h : (f (s.core c)).data = (s.core c).data) :
    (s.modCore c f).data = s.data := by
  have hc : (s.cores.modify c.toNat f).map Core.data = s.cores.map Core.data := Tab.map_modify _ _ _ _ h
  simp only [State.data, State.modCore_cores, State.modCore_fb, hc]

theorem State.data_modTh (s : State) (c : CoreId) (t : ThId) (f : Thread → Thread) (h : ∀ u, (f u).data = u.data) :
    (s.modTh c t f).data = s.data :=
  State.data_modCore s c _ (Core.data_modTh _ t f h)

/-- Operations that are repeated leave the data alone when each of them does. -/
theorem State.foldl_data {α : Type} (f : State → α → State) (h : ∀ q a, (f q a).data = q.data) (l : List α) (s : State) :
    (l.foldl f s).data = s.data :=
  List.foldlRecOn l f (motive := fun q => q.data = s.data) rfl (fun q hq a _ => (h q a).trans hq)

theorem Core.foldl_data {α : Type} (f : Core → α → Core) (h : ∀ q a, (f q a).data = q.data) (l : List α) (k : Core) :
    (l.foldl f k).data = k.data :=
  List.foldlRecOn l f (motive := fun q => q.data = k.data) rfl (fun q hq a _ => (h q a).trans hq)

/-! ## Lockups (R161, R162) -/

/-- A core with every thread FROZEN and no thread waiting for a memory slot. -/
def Core.frozen (k : Core) : Core :=
  (List.range 8).foldl (fun (q : Core) i => q.unask (.thread (BitVec.ofNat 3 i)))
    (k.mapTh (fun u => { u with wasSt := u.st, st := .frozen }))

theorem Core.frozen_data (k : Core) : k.frozen.data = k.data :=
  (Core.foldl_data _ (fun q _ => q.unask_data _) _ _).trans (Core.data_mapTh k _ (fun _ => rfl))

theorem Core.frozen_th (k : Core) : k.frozen.th = k.th.map (fun u => { u with wasSt := u.st, st := .frozen }) :=
  List.foldlRecOn (List.range 8) _ (motive := fun q : Core => q.th = _) rfl (fun _ hq _ _ => hq)

section Frames

variable (s : State)

@[simp] theorem State.fetchLine_data (c : CoreId) (t : ThId) : (s.fetchLine c t).data = s.data := by
  unfold State.fetchLine
  dsimp only
  split_ifs
  · rfl
  · rfl
  · split
    · exact State.data_modCore s c _ (Core.data_modTh (s.core c) t _ (fun _ => rfl))
    · refine State.data_modCore s c _ ((Core.askFill_data _ _).trans (Core.data_modTh (s.core c) t _ (fun _ => rfl)))

@[simp] theorem State.traceRec_data (c : CoreId) (t : ThId) (kd : Nat) (p q : PAddr) :
    (s.traceRec c t kd p q).data = s.data := by
  unfold State.traceRec
  dsimp only
  split <;> rfl

@[simp] theorem State.endLock_data (c : CoreId) (t : ThId) : (s.endLock c t).data = s.data := by
  unfold State.endLock
  split
  · rfl
  · exact State.data_modTh s c t (fun u => { u with lockN := none }) (fun _ => rfl)

@[simp] theorem State.dropLog_data (i : Nat) : (s.dropLog i).data = s.data := by
  unfold State.dropLog State.freeSlot
  dsimp only
  split <;> rfl

@[simp] theorem State.dropOpen_data (c : CoreId) : (s.dropOpen c).data = s.data :=
  State.foldl_data _ (fun q i => q.dropLog_data i) _ s

@[simp] theorem State.syncDstate_data : s.syncDstate.data = s.data := by
  unfold State.syncDstate
  split <;> rfl

@[simp] theorem State.syncDstate_cores : s.syncDstate.cores = s.cores := by
  unfold State.syncDstate
  split <;> rfl

/-- The locked sequences of core `c` end and its OPEN logs are dropped. -/
def State.letGo (s : State) (c : CoreId) : State :=
  ((List.range 8).foldl (fun (r : State) i => r.endLock c (BitVec.ofNat 3 i)) s).dropOpen c

theorem State.letGo_data (c : CoreId) : (s.letGo c).data = s.data := by
  rw [State.letGo, State.dropOpen_data]
  exact State.foldl_data _ (fun q i => q.endLock_data c _) _ s

/-- What a core that locks up keeps for its machine note. -/
def State.lockupOf (c : CoreId) (t : ThId) (cause what : Nat) : Lockup :=
  { t := t, cause := BitVec.ofNat 2 cause, what := BitVec.ofNat 5 what,
    dropped := (s.openSlots c).map (fun i => (s.hs.slots.get i).hdr.cls) }

/-- Core `c` frozen, with the cause of its lockup. -/
def State.frozenAt (c : CoreId) (t : ThId) (cause what : Nat) : State :=
  (s.letGo c).modCore c (fun k => { k.frozen with lockup := some (s.lockupOf c t cause what) })

theorem State.lockUp_eq (c : CoreId) (t : ThId) (cause what : Nat) : s.lockUp c t cause what =
    if s.pw.life = .starting && s.bootCore = some c.toNat then
      ((s.frozenAt c t cause what).modCnt c (fun n => { n with lockups := satInc n.lockups })).syncDstate.bootEnds
    else ((s.frozenAt c t cause what).modCnt c (fun n => { n with lockups := satInc n.lockups })).syncDstate := rfl

@[simp] theorem State.bootEnds_cores : s.bootEnds.cores = s.cores := rfl

@[simp] theorem State.bootEnds_data : s.bootEnds.data = s.data := rfl

@[simp] theorem State.modCnt_data (c : CoreId) (f : CoreCnt → CoreCnt) : (s.modCnt c f).data = s.data := rfl

/-- What a lockup makes of the cores: its own is frozen and keeps the cause. -/
theorem State.lockUp_cores (c : CoreId) (t : ThId) (cause what : Nat) :
    (s.lockUp c t cause what).cores = (s.frozenAt c t cause what).cores := by
  rw [State.lockUp_eq]
  split <;> simp

/-- A core that locks up freezes its threads with their data. -/
@[simp] theorem State.lockUp_data (c : CoreId) (t : ThId) (cause what : Nat) : (s.lockUp c t cause what).data = s.data := by
  have hfrozen : (s.frozenAt c t cause what).data = s.data :=
    (State.data_modCore (s.letGo c) c (fun k => { k.frozen with lockup := some (s.lockupOf c t cause what) })
      (Core.frozen_data _)).trans (s.letGo_data c)
  rw [State.lockUp_eq]
  split <;> simp [hfrozen]

theorem State.lockUp_core (c : CoreId) (t : ThId) (cause what : Nat) :
    (s.lockUp c t cause what).core c = { ((s.letGo c).core c).frozen with lockup := some (s.lockupOf c t cause what) } := by
  rw [State.core, State.lockUp_cores]
  exact State.core_modCore_self _ c _

theorem State.lockUp_frozen (c : CoreId) (t : ThId) (cause what i : Nat) (hi : i < 8) :
    (((s.lockUp c t cause what).core c).th.get i).st = .frozen := by
  rw [State.lockUp_core]
  dsimp only
  rw [Core.frozen_th, Tab.get_map _ _ _ hi]

@[simp] theorem State.enter_data (c : CoreId) (t : ThId) (e : EntryInfo) : (s.enter c t e).data = s.data := by
  unfold State.enter
  dsimp only
  split
  · exact s.lockUp_data c t _ _
  · rw [State.traceRec_data, State.fetchLine_data]
    refine State.data_modCore s c _ ?_
    exact Core.data_modTh ((s.core c).unask (.thread t)).fillTurns t (fun v => v.enter e) (fun u => u.enter_data e)

@[simp] theorem State.raise_data (c : CoreId) (t : ThId) (f : FClass) (a : PAddr) (o : Cell) :
    (s.raise c t f a o).data = s.data := by
  unfold State.raise
  dsimp only
  split_ifs <;> simp

/-! ## Entries (R152 to R155) -/

@[simp] theorem State.traceRec_cores (c : CoreId) (t : ThId) (kd : Nat) (p q : PAddr) :
    (s.traceRec c t kd p q).cores = s.cores := by
  unfold State.traceRec
  dsimp only
  split <;> rfl

/-- An entry into a handler: a return stack that traps has no room for its two pushes (R154). -/
def Thread.entryFull (u : Thread) : Prop := u.status.getLsbD 11 = true ∧ 15 ≤ u.rsd

theorem State.enter_of_full (c : CoreId) (t : ThId) (e : EntryInfo) (h : (s.th c t).entryFull) :
    s.enter c t e = s.lockUp c t 0 e.vec := by
  obtain ⟨htrap, hrsd⟩ := h
  simp [State.enter, Thread.trapMode, htrap, hrsd]

/-- An entry changes the core of its thread by the entry alone, up to bookkeeping. -/
theorem State.enter_core_settled (c : CoreId) (t : ThId) (e : EntryInfo) (h : ¬ (s.th c t).entryFull) :
    ((s.enter c t e).core c).settled t = ((s.core c).modTh t (fun v => v.enter e)).settled t := by
  have hfull : ((s.th c t).trapMode && decide (15 ≤ (s.th c t).rsd)) = false := by
    simp only [Thread.entryFull] at h
    simpa [Thread.trapMode] using h
  have hcore : ∀ q : State, (q.core c).settled t = ((q.settled c t).core c) :=
    fun q => (State.core_modCore_self q c (fun k => k.settled t)).symm
  have htrace : ∀ (q : State) kd a b, ((q.traceRec c t kd a b).core c) = q.core c :=
    fun q kd a b => congrArg (fun v : Tab Core 16 => v.get c.toNat) (q.traceRec_cores c t kd a b)
  simp only [State.enter, hfull, Bool.false_eq_true, if_false]
  rw [htrace, hcore, State.settled_fetchLine, ← hcore, State.core_modCore_self]
  rfl

theorem State.enter_th_settled (c : CoreId) (t : ThId) (e : EntryInfo) (h : ¬ (s.th c t).entryFull) :
    ((s.enter c t e).th c t).settled = ((s.th c t).enter e).settled := by
  have hcore := congrArg (fun k : Core => k.th.get t.toNat) (s.enter_core_settled c t e h)
  have hset : ∀ k : Core, (k.settled t).th.get t.toNat = (k.th.get t.toNat).settled :=
    fun k => Core.th_modTh_self k t Thread.settled
  simp only [hset, Core.th_modTh_self] at hcore
  exact hcore

theorem State.enter_lockup (c : CoreId) (t : ThId) (e : EntryInfo) (h : ¬ (s.th c t).entryFull) :
    ((s.enter c t e).core c).lockup = (s.core c).lockup := by
  have hl := congrArg Core.lockup (s.enter_core_settled c t e h)
  exact hl

end Frames

/-! ## What an entry makes of its thread -/

/-- The two pushes of an entry (R136, R152). -/
theorem Thread.enter_pushes (u : Thread) (e : EntryInfo) :
    (u.enter e).rsp = (u.rsp + 2) % 16 ∧ (u.enter e).rs.get ((u.rsp + 1) % 16) = e.pushPc.setWidth 24 ∧
    (u.enter e).rs.get ((u.rsp + 2) % 16) = u.status := by
  have htop : ((u.rsp + 1) % 16 + 1) % 16 = (u.rsp + 2) % 16 := by omega
  have hrs : (u.enter e).rs = (u.rs.set ((u.rsp + 1) % 16) (e.pushPc.setWidth 24)).set ((u.rsp + 2) % 16) u.status := by
    rw [← htop]; rfl
  refine ⟨htop, ?_, ?_⟩
  · rw [hrs, Tab.get_set_ne _ _ _ _ (by omega), Tab.get_set_self _ _ _ (by omega)]
  · rw [hrs, Tab.get_set_self _ _ _ (by omega)]

/-- A field of three bits, bit by bit. -/
theorem setField_three (x : Cell) (lo v : Nat) : setField x lo 3 v =
    setBit (setBit (setBit x lo (v.testBit 0)) (lo + 1) (v.testBit 1)) (lo + 2) (v.testBit 2) := by
  apply BitVec.eq_of_getLsbD_eq
  intro i hi
  simp only [getLsbD_setField _ _ _ _ _ hi, getLsbD_setBit_of_lt _ _ _ _ hi]
  have hbits : ¬ (lo ≤ i ∧ i < lo + 3) ∨ i = lo ∨ i = lo + 1 ∨ i = lo + 2 := by omega
  rcases hbits with h | rfl | rfl | rfl
  · rw [if_neg h, if_neg (by omega), if_neg (by omega), if_neg (by omega)]
  · simp
  · simp
  · simp

/-- The flags of an entry that sets MASK to `m`, and ESC if it escalates (R152, R159). -/
theorem Thread.enter_flagsAre (u : Thread) (e : EntryInfo) (m : Nat) (hm : e.mask = some m) :
    FlagsAre u.status (u.enter e).status
      ([(6, true), (7, m.testBit 0), (8, m.testBit 1), (9, m.testBit 2)] ++ if e.esc then [(10, true)] else []) := by
  have hst : (u.enter e).status = if e.esc then setBit (setField (setBit u.status 6 true) 7 3 m) 10 true
      else setField (setBit u.status 6 true) 7 3 m := by
    simp only [Thread.enter, hm]
  have hmask : FlagsAre u.status (setField (setBit u.status 6 true) 7 3 m)
      [(6, true), (7, m.testBit 0), (8, m.testBit 1), (9, m.testBit 2)] := by
    rw [setField_three]
    exact flagsAre_setBit (flagsAre_setBit (flagsAre_setBit (flagsAre_setBit (flagsAre_refl _) 6 _ rfl) 7 _ rfl) 8 _ rfl)
      9 _ rfl
  rw [hst]
  cases e.esc with
  | false => simpa using hmask
  | true => exact flagsAre_setBit hmask 10 true rfl

end Sys2Proof.Machine
end

section
/-! Raising a fault outside a locked sequence (R157 to R161). -/

namespace Sys2Proof.Machine

theorem maskOf_eq (st : Cell) : maskOf st = (st.extractLsb' 7 3).toNat := by
  rw [BitVec.extractLsb'_toNat, Nat.shiftRight_eq_div_pow]
  rfl

/-- MASK is 7, so that a fault escalates (R159). -/
def Thread.escalates (u : Thread) : Bool := decide ((u.status.extractLsb' 7 3).toNat = 7)

/-- The entry that a fault with ESC 0 takes (R158, R159). -/
def Thread.faultEntry (u : Thread) (f : FClass) (a : PAddr) (o : Cell) : EntryInfo :=
  { kind := if u.escalates then .escalated else .fault, vec := if u.escalates then 0 else f.num, cls := f.num, pushPc := a,
    saddr := a, oaddr := o, mask := some 7, esc := u.escalates }

section Raise

variable {s : State} {c : CoreId} {t : ThId} (f : FClass) (a : PAddr) (o : Cell)

theorem State.endLock_of_none (h : (s.th c t).lockN = none) : s.endLock c t = s := by
  simp [State.endLock, h]

theorem State.raise_of_esc (hlock : (s.th c t).lockN = none) (hfrozen : (s.th c t).st ≠ .frozen)
    (hstopped : (s.th c t).st ≠ .stopped) (hesc : (s.th c t).status.getLsbD 10 = true) :
    s.raise c t f a o = s.lockUp c t 1 f.num := by
  simp only [State.raise, State.endLock_of_none hlock]
  rw [if_neg (by simp [hfrozen, hstopped]), if_pos (show escOf (s.th c t).status = true from hesc)]

theorem State.raise_of_not_esc (hlock : (s.th c t).lockN = none) (hfrozen : (s.th c t).st ≠ .frozen)
    (hstopped : (s.th c t).st ≠ .stopped) (hesc : (s.th c t).status.getLsbD 10 = false) :
    s.raise c t f a o = s.enter c t ((s.th c t).faultEntry f a o) := by
  have hno : ¬ escOf (s.th c t).status = true := by rw [escOf, hesc]; exact Bool.false_ne_true
  simp only [State.raise, State.endLock_of_none hlock, maskOf_eq]
  rw [if_neg (by simp [hfrozen, hstopped]), if_neg hno, Thread.faultEntry]
  split
  · next h => rw [Thread.escalates, decide_eq_true h]; rfl
  · next h => rw [Thread.escalates, decide_eq_false h]; rfl

end Raise

/-- The fields of a thread that has entered a handler, as far as bookkeeping does not touch them. -/
theorem Thread.entered_fields {u v : Thread} {e : EntryInfo} (h : v.settled = (u.enter e).settled) :
    v.pc = BitVec.ofNat 20 (4 * e.vec) ∧ v.rsp = (u.enter e).rsp ∧ v.rs = (u.enter e).rs ∧
    v.status = (u.enter e).status ∧ v.w = u.w ∧ v.win = u.win ∧ v.last = u.last ∧ v.ll = u.ll ∧ v.bits = u.bits ∧
    v.fr = { kind := e.kind, vec := BitVec.ofNat 5 e.vec, cls := BitVec.ofNat 4 e.cls,
             arm := BitVec.ofNat 3 e.arm, saddr := e.saddr, oaddr := e.oaddr } := by
  have hpc := congrArg Thread.pc h
  have hrsp := congrArg Thread.rsp h
  have hrs := congrArg Thread.rs h
  have hst := congrArg Thread.status h
  have hw := congrArg Thread.w h
  have hwin := congrArg Thread.win h
  have hlast := congrArg Thread.last h
  have hll := congrArg Thread.ll h
  have hbits := congrArg Thread.bits h
  have hfr := congrArg Thread.fr h
  exact ⟨hpc, hrsp, hrs, hst, hw, hwin, hlast, hll, hbits, hfr⟩

/-- Settles O19: with ESC 0 the fault enters its vector, or vector 0 where MASK is 7, and a return stack without room for
the entry, or ESC 1, locks the core up. -/
theorem faultEntries : Obligations.FaultEntries := by
  unfold Obligations.FaultEntries
  intro s c t f a o hlock hfrozen hstopped u s' v esc mask full vec
  have hup : u.escalates = decide (mask = 7) := rfl
  have hvec : (u.faultEntry f a o).vec = vec := by simp only [Thread.faultEntry, hup, decide_eq_true_eq, vec]
  have hentry : esc = false → s' = s.enter c t (u.faultEntry f a o) := State.raise_of_not_esc f a o hlock hfrozen hstopped
  refine ⟨fun hesc hfull => ?entered, fun hesc => ?escaped, fun hesc hroom => ?noRoom⟩
  case entered =>
    have hv : v.settled = (u.enter (u.faultEntry f a o)).settled := by
      simp only [v, hentry hesc]
      exact s.enter_th_settled c t _ hfull
    have hlk : (s'.core c).lockup = (s.core c).lockup := by rw [hentry hesc]; exact s.enter_lockup c t _ hfull
    obtain ⟨hpc, hrsp, hrs, hst, hw, hwin, hlast, hll, hbits, hfr⟩ := Thread.entered_fields hv
    obtain ⟨hsp, hpush, hpush2⟩ := u.enter_pushes (u.faultEntry f a o)
    have hflags := u.enter_flagsAre (u.faultEntry f a o) 7 rfl
    rw [← hst] at hflags
    rw [hvec] at hpc hfr
    simp only [Thread.faultEntry, hup, decide_eq_true_eq] at hflags hfr
    exact ⟨hpc, hrsp.trans hsp, fun _ => hrs ▸ hpush, fun _ => hrs ▸ hpush2, hflags, hfr, hw, hwin, hlast, hll, hbits, hlk⟩
  case escaped =>
    have hs : s' = s.lockUp c t 1 f.num := State.raise_of_esc f a o hlock hfrozen hstopped hesc
    rw [hs]
    exact ⟨by rw [State.lockUp_core]; rfl, fun i hi => s.lockUp_frozen c t 1 f.num i hi⟩
  case noRoom =>
    have hs : s' = s.lockUp c t 0 vec := by rw [hentry hesc, s.enter_of_full c t _ hroom, hvec]
    rw [hs]
    exact ⟨by rw [State.lockUp_core]; rfl, fun i hi => s.lockUp_frozen c t 0 vec i hi⟩

end Sys2Proof.Machine
end

section
/-! What an operation of the timebase leaves alone: a checkpoint reaches the log queue, the vault's waiting list and the
checkpoint fields of the timebase, a change of the timebase besides these the event bits and the mirror. -/

namespace Sys2Proof.Machine

/-- The rings' event bits once those at the addresses `l` have been set. -/
def evAfter (ev : BitVec 1024) (l : List Nat) : BitVec 1024 :=
  l.foldl (fun e a => setBit e (a - 0x1000) (true && evAssigned a)) ev

theorem State.foldl_setEv (l : List Nat) : ∀ s : State,
    l.foldl (fun (r : State) e => r.setEv e) s = s.modFb (fun f => { f with ev := evAfter f.ev l }) := by
  induction l with
  | nil => intro s; rfl
  | cons a l ih => intro s; exact ih (s.setEv a)

theorem State.submit_vault (s : State) (k : CKind) (tag : Option Nat) : ∃ v, s.submit k tag = s.modVault (fun _ => v) := by
  by_cases h : s.life = 4 ∨ s.life = 7
  · exact ⟨s.hs.vault, by rw [State.submit, if_pos h]; rfl⟩
  · exact ⟨_, by rw [State.submit, if_neg h]; rfl⟩

theorem State.pilotNext_frame : ∀ (n : Nat) (s : State), ∃ v q, s.pilotNext n =
    { s with hs := { s.hs with vault := v }, pil := { s.pil with logQ := q } } := by
  intro n
  induction n with
  | zero => exact fun s => ⟨s.hs.vault, s.pil.logQ, rfl⟩
  | succ n ih =>
    intro s
    rw [State.pilotNext]
    split
    · split
      · next h p rest _ _ =>
        obtain ⟨v, hv⟩ := State.submit_vault ({ s with pil := { s.pil with logQ := rest } }) (.hw h p true) none
        obtain ⟨v', q, hq⟩ := ih (({ s with pil := { s.pil with logQ := rest } } : State).submit (.hw h p true))
        exact ⟨v', q, by rw [hq, hv]; rfl⟩
      · exact ⟨s.hs.vault, s.pil.logQ, rfl⟩
    · exact ⟨s.hs.vault, s.pil.logQ, rfl⟩

theorem State.pilotLog_frame (s : State) (cls : Nat) (payload : List Byte) : ∃ v q, s.pilotLog cls payload =
    { s with hs := { s.hs with vault := v }, pil := { s.pil with logQ := q } } := by
  obtain ⟨v, q, h⟩ := State.pilotNext_frame (s.pil.logQ.length + 1)
    ({ s with pil := { s.pil with logQ := s.pil.logQ ++ [(s.pil.ph.logHdr cls, payload)] } })
  exact ⟨v, q, h⟩

/-- The timebase with the checkpoint that it remembers. -/
def Phase.withCk (p : Phase) (odo tick : Dbl) (adv : Bool) : Phase := { p with ckOdo := odo, ckTick := tick, ckAdv := adv }

theorem State.checkpoint_frame (s : State) (reason : Nat) : ∃ v q o t a, s.checkpoint reason =
    { s with hs := { s.hs with vault := v }, pil := { s.pil with logQ := q, ph := s.pil.ph.withCk o t a } } := by
  rw [State.checkpoint]
  split
  · obtain ⟨v, q, h⟩ := s.pilotLog_frame 0x80 (s.pil.ph.ckPayload reason)
    exact ⟨v, q, s.pil.ph.odo, s.pil.ph.tick, false, by rw [h]; rfl⟩
  · exact ⟨s.hs.vault, s.pil.logQ, s.pil.ph.ckOdo, s.pil.ph.ckTick, s.pil.ph.ckAdv, rfl⟩

theorem State.ckDistance_frame (s : State) : ∃ v q o t a, s.ckDistance =
    { s with hs := { s.hs with vault := v }, pil := { s.pil with logQ := q, ph := s.pil.ph.withCk o t a } } := by
  rw [State.ckDistance]
  split
  · exact s.checkpoint_frame 1
  · exact ⟨s.hs.vault, s.pil.logQ, s.pil.ph.ckOdo, s.pil.ph.ckTick, s.pil.ph.ckAdv, rfl⟩

theorem State.syncMirror_frame (s : State) : ∃ m, s.syncMirror = s.modFb (fun f => { f with mir := m }) := by
  rw [State.syncMirror]
  split
  · exact ⟨s.fb.mir, rfl⟩
  · exact ⟨_, rfl⟩

theorem State.putPh_frame (s : State) (x : PhOut) : ∃ v q o t a m, s.putPh x =
    { s with fb := { s.fb with ev := evAfter s.fb.ev x.2, mir := m }, hs := { s.hs with vault := v },
             pil := { s.pil with logQ := q, ph := x.1.withCk o t a } } := by
  rw [State.putPh, State.foldl_setEv]
  obtain ⟨m, hm⟩ := ((s.modPh (fun _ => x.1)).modFb (fun f => { f with ev := evAfter f.ev x.2 })).syncMirror_frame
  rw [hm]
  obtain ⟨v, q, o, t, a, h⟩ := (((s.modPh (fun _ => x.1)).modFb (fun f => { f with ev := evAfter f.ev x.2 })).modFb
    (fun f => { f with mir := m })).ckDistance_frame
  exact ⟨v, q, o, t, a, m, h⟩

/-- The odometer takes teeth without a change of the phases, of the inputs or of the synchronisation. -/
theorem Phase.odoTeeth_frame (p : Phase) (n : Nat) : ∃ e o r q,
    p.odoTeeth n = { p with eff := e, odo := o, rem := r, pending := q, ckAdv := true } := by
  rw [Phase.odoTeeth]
  dsimp only [Phase.applyPending, Phase.addUm]
  split_ifs <;> exact ⟨_, _, _, _, rfl⟩

/-- COURSE at the next whole tooth. -/
def nextTooth (course : Dbl) : Dbl := BitVec.ofNat 48 ((course.toNat / 4096 + 1) * 4096)

theorem Phase.advance_one (p : Phase) : (p.advance 1).course = nextTooth p.course ∧ (p.advance 1).ang = p.ang ∧
    (p.advance 1).tick = p.tick := by
  obtain ⟨e, o, r, q, h⟩ := Phase.odoTeeth_frame { p with course := BitVec.ofNat 48 ((p.course.toNat / 4096 + 1) * 4096) } 1
  exact ⟨by rw [Phase.advance, h]; rfl, by rw [Phase.advance, h], by rw [Phase.advance, h]⟩

/-- An accepted tooth of the COURSE source advances COURSE, whether the source is the primary, the backup or neither. -/
theorem Phase.wheel_source (p : Phase) (w : Nat) (awake : Bool) (h : p.src.toNat = w) :
    (p.wheel w awake).2 = true ∧ (p.wheel w awake).1.1.course = nextTooth p.course ∧ (p.wheel w awake).1.1.ang = p.ang ∧
    (p.wheel w awake).1.1.tick = p.tick := by
  rw [Phase.wheel]
  dsimp only
  by_cases hp : w = p.pri
  · rw [if_pos hp, if_pos h]
    refine ⟨rfl, ?_⟩
    split_ifs <;> exact Phase.advance_one _
  · rw [if_neg hp]
    by_cases hb : (decide (p.bak < 4) && decide (w = p.bak)) = true
    · rw [if_pos hb]
      rw [if_neg, if_pos h]
      · exact ⟨rfl, Phase.advance_one _⟩
      · intro hc
        rw [Bool.and_eq_true, Bool.and_eq_true, decide_eq_true_eq] at hc
        exact hp (h.symm.trans hc.1.1)
    · rw [if_neg hb, if_pos h]
      exact ⟨rfl, p.advance_one⟩

theorem Phase.applyCourse_of_not_pending (p : Phase) (w : Nat) (h : p.pendCourse = false) : p.applyCourse w = p := by
  rw [Phase.applyCourse, h]; rfl

end Sys2Proof.Machine
end

section
/-! O28, O29 and O31: the angle inputs, TICK and the standby counting. -/

namespace Sys2Proof.Machine

/-! What a timebase change shows: the new timebase but for its checkpoint fields, and its event bits. -/

theorem State.putPh_ph (s : State) (x : PhOut) : ∃ o t a, (s.putPh x).pil.ph = x.1.withCk o t a := by
  obtain ⟨v, q, o, t, a, m, h⟩ := s.putPh_frame x
  exact ⟨o, t, a, by rw [h]⟩

theorem State.putPh_ev (s : State) (x : PhOut) : (s.putPh x).fb.ev = evAfter s.fb.ev x.2 := by
  obtain ⟨v, q, o, t, a, m, h⟩ := s.putPh_frame x
  rw [h]

theorem State.putPh_wk (s : State) (x : PhOut) : (s.putPh x).pil.wk = s.pil.wk := by
  obtain ⟨v, q, o, t, a, m, h⟩ := s.putPh_frame x
  rw [h]

theorem State.putPh_wakePin (s : State) (x : PhOut) : (s.putPh x).pil.wakePin = s.pil.wakePin := by
  obtain ⟨v, q, o, t, a, m, h⟩ := s.putPh_frame x
  rw [h]

theorem State.putPh_pw (s : State) (x : PhOut) : (s.putPh x).pw = s.pw := by
  obtain ⟨v, q, o, t, a, m, h⟩ := s.putPh_frame x
  rw [h]

theorem State.angleEdge_eq (s : State) (i : Nat) (level : Bool) (hp : s.plclk = true) (ha : s.pw.vddioA = true)
    (hl : (s.pil.ph.ang.get i).level ≠ level) :
    s.angleEdge i level = (s.putPh (s.pil.ph.edgeIn i level s.gpioLevels).1).modWk
      (fun w => { w with standbyRun := w.standbyRun && !(s.pil.ph.edgeIn i level s.gpioLevels).2 }) := by
  rw [State.angleEdge, hp, ha]
  exact if_neg (by simpa using hl)

theorem extractLsb'_toNat_fieldN {w : Nat} (x : BitVec w) (lo n : Nat) : (x.extractLsb' lo n).toNat = fieldN x lo n := by
  rw [BitVec.extractLsb'_toNat, Nat.shiftRight_eq_div_pow]
  rfl

/-- The conditions of R35 in words are those of the conditioning stage. -/
theorem Phase.rejects_iff (p : Phase) (i : Nat) (tooth : Bool) : p.rejects i tooth = true ↔
    (∃ x, (p.ang.get i).lastTr = some x ∧ p.clk - x < p.holdoff i) ∨ (tooth = true ∧
      ((∃ x, (p.ang.get i).lastTooth = some x ∧ p.clk - x < 2500) ∨
       ∃ x y, (p.ang.get i).lastTooth = some x ∧ (p.ang.get i).tprev = some y ∧ 4 * (p.clk - x) < p.early i * y)) := by
  simp only [Phase.rejects]
  cases (p.ang.get i).lastTr <;> cases (p.ang.get i).lastTooth <;> cases (p.ang.get i).tprev <;> simp

theorem isTooth_iff (edge : Nat) (level : Bool) :
    isTooth edge level = true ↔ edge = 2 ∨ (edge = 0 ∧ level = true) ∨ (edge ≠ 0 ∧ level = false) := by
  by_cases h0 : edge = 0 <;> cases level <;> simp [isTooth, h0]

theorem Phase.edgeIn_of_rejects (p : Phase) (i : Nat) (level : Bool) (gpio : Byte)
    (h : p.rejects i (isTooth (p.edge i) level) = true) : p.edgeIn i level gpio =
    (({ p with ang := p.ang.set i { p.ang.get i with level := level, rejects := satInc (p.ang.get i).rejects } }, []), false) :=
  if_pos h

/-- Input `i` once it has accepted a tooth edge in this cycle after an interval `n` that is remembered. -/
def AngIn.accept (a : AngIn) (level : Bool) (clk : Nat) (n : Option Nat) : AngIn :=
  { a with level := level, lastTr := some clk, lastTooth := some clk, stopped := false, tprev := n, pulse := none }

theorem Phase.edgeIn_of_tooth (p : Phase) (i : Nat) (level : Bool) (gpio : Byte)
    (hr : p.rejects i (isTooth (p.edge i) level) = false) (ht : isTooth (p.edge i) level = true) :
    p.edgeIn i level gpio =
      (let n := (p.ang.get i).lastTooth.map (fun t => p.clk - t)
       let q := { p with ang := p.ang.set i ((p.ang.get i).accept level p.clk (if i = 4 then (p.ang.get i).tprev else n)) }
       if i < 4 then q.wheelTooth i gpio else if i = 4 then (q.crankTooth n, false) else (q.camTooth, false)) := by
  rw [Phase.edgeIn]
  exact (if_neg (by rw [hr]; exact Bool.false_ne_true)).trans (if_neg (by rw [ht]; exact Bool.false_ne_true))

/-- A tooth of the COURSE source: the direction is decoded besides, which moves no phase and no history of an input. -/
theorem Phase.wheelTooth_source (p : Phase) (w : Nat) (gpio : Byte) (hs : p.src.toNat = w) (hp : p.pendCourse = false) (_ : w < 4) :
    (p.wheelTooth w gpio).2 = true ∧ (p.wheelTooth w gpio).1.1.course = nextTooth p.course ∧
      ∃ u, (p.wheelTooth w gpio).1.1.ang.get w = { p.ang.get w with pulse := u } := by
  obtain ⟨h2, hc, ha, -⟩ := Phase.wheel_source (p.adopt w) w true hs
  rw [Phase.wheelTooth, Phase.applyCourse_of_not_pending (p.adopt w) w hp]
  simp only [h2, Bool.not_true, Bool.false_eq_true, if_false]
  split
  · exact ⟨rfl, hc, _, congrArg (fun v : Tab AngIn 6 => v.get w) ha⟩
  · exact ⟨rfl, hc, _, congrArg (fun v : Tab AngIn 6 => v.get w) ha⟩
  · refine ⟨rfl, hc, some p.clk, ?_⟩
    rw [Tab.get_modify_self _ _ _ (by omega), ha]
    rfl

/-- What R48 makes of an active CAM edge. -/
theorem Phase.camTooth_cases (p : Phase) (he : p.camEn = true) :
    (p.crk = .sync360 → p.camTooth.1.crk = .sync720 ∧ p.camTooth.1.camFault = p.camFault ∧
      p.camTooth.1.crank = if p.crank.getLsbD 15 = p.camHalf then p.crank else p.crank + 32768) ∧
    (p.crk = .sync720 → p.camTooth.1.crank = p.crank ∧
      p.camTooth.1.camFault = if p.crank.getLsbD 15 = p.camHalf then p.camFault else satInc p.camFault) := by
  have h11 : (p.adopt 5).eff.get 11 = p.eff.get 11 := Tab.get_set_ne p.eff 5 11 _ (by decide)
  have hen : (p.adopt 5).camEn = true := by rw [Phase.camEn, h11]; exact he
  have hhalf : (p.adopt 5).camHalf = p.camHalf := by rw [Phase.camHalf, h11]; rfl
  have hcrk : (p.adopt 5).crk = p.crk := rfl
  have hcrank : (p.adopt 5).crank = p.crank := rfl
  simp only [Phase.camTooth, hen, hhalf, hcrk, hcrank, Bool.not_true, Bool.false_eq_true, if_false]
  refine ⟨fun h => ?_, fun h => ?_⟩
  all_goals
    rw [h]
    by_cases hh : p.crank.getLsbD 15 = p.camHalf
    · simp only [hh, if_true]; simp [Phase.adopt]
    · simp only [hh, if_false]; simp [Phase.adopt]

theorem inputNo_lt (i : AngleIn) : inputNo i < 6 := by
  cases i with
  | whl w => exact lt_of_lt_of_le w.isLt (by decide)
  | crank => decide
  | cam => decide

theorem inputNo_eq_four (i : AngleIn) : inputNo i = 4 ↔ i = .crank := by
  cases i with
  | whl w => exact ⟨fun h => absurd w.isLt (by simp only [inputNo] at h; omega), fun h => by cases h⟩
  | crank => exact ⟨fun _ => rfl, fun _ => rfl⟩
  | cam => exact ⟨fun h => absurd h (by decide), fun h => by cases h⟩

/-- Settles O28: an edge that the conditioning stage rejects changes the input's count alone; what it accepts reaches COURSE
by the wheel's tooth and CRANK by R48's cases. -/
theorem angleInputs : Obligations.AngleInputs := by
  unfold Obligations.AngleInputs
  refine ⟨?inputs, ?camAndStill⟩
  case' inputs =>
    intro s i level n p a since tooth early rejected hplclk hvdd hlevel
    refine ⟨fun hrej => ?rejects, fun hrej htooth hn hsrc hpend => ?accepts⟩
  case' camAndStill =>
    intro s p half hplclk
    refine ⟨fun level hvdd hlevel hrej htooth hen => ?cam, fun i x hx hdue => ?still⟩
  case rejects =>
    have hr : p.rejects n (isTooth (p.edge n) level) = true := by
      rw [Phase.rejects_iff, isTooth_iff, Phase.holdoff, ← extractLsb'_toNat_fieldN]; exact hrej
    obtain ⟨o, t, b, hph⟩ := s.putPh_ph (p.edgeIn n level s.gpioLevels).1
    refine ⟨_, congrArg Host.Outcome.next (s.angleEdge_eq n level hplclk hvdd hlevel), ?_⟩
    simp only [State.modWk_pil]
    rw [hph, Phase.edgeIn_of_rejects p n level _ hr]
    exact ⟨rfl, rfl, rfl⟩
  case accepts =>
    have hr : p.rejects n (isTooth (p.edge n) level) = false := by
      rw [← Bool.not_eq_true, Phase.rejects_iff, isTooth_iff, Phase.holdoff, ← extractLsb'_toNat_fieldN]; exact hrej
    have ht : isTooth (p.edge n) level = true := (isTooth_iff _ _).2 htooth
    obtain ⟨o, t, b, hph⟩ := s.putPh_ph (p.edgeIn n level s.gpioLevels).1
    refine ⟨_, congrArg Host.Outcome.next (s.angleEdge_eq n level hplclk hvdd hlevel), ?_⟩
    obtain ⟨hadv, hcourse, u, hang⟩ := Phase.wheelTooth_source
      { p with ang := p.ang.set n (a.accept level p.clk (a.lastTooth.map (fun x => p.clk - x))) } n s.gpioLevels hsrc hpend hn
    have hin : p.edgeIn n level s.gpioLevels = _ := p.edgeIn_of_tooth n level s.gpioLevels hr ht
    simp only [if_pos hn, if_neg (show n ≠ 4 by omega)] at hin
    simp only [State.modWk_pil]
    rw [hph]
    simp only [Phase.withCk]
    rw [hin, hcourse, hang, hadv, Tab.get_set_self _ _ _ (inputNo_lt i)]
    exact ⟨rfl, rfl, rfl, rfl, Bool.and_false _⟩
  case cam =>
    obtain ⟨o, t, b, hph⟩ := s.putPh_ph (p.edgeIn 5 level s.gpioLevels).1
    refine ⟨_, congrArg Host.Outcome.next (s.angleEdge_eq 5 level hplclk hvdd hlevel), ?_⟩
    have hin : p.edgeIn 5 level s.gpioLevels = _ := p.edgeIn_of_tooth 5 level s.gpioLevels hrej htooth
    simp only [State.modWk_pil]
    rw [hph, hin]
    exact Phase.camTooth_cases { p with ang := p.ang.set 5 _ } hen
  case still =>
    have hdue' : (s.plclk && p.stillDue (inputNo i)) = true := by
      simp only [hplclk, Phase.stillDue, hx, standstill, Bool.true_and]
      exact decide_eq_true hdue
    obtain ⟨o, t, b, hph⟩ := s.putPh_ph (p.stopInput (inputNo i), [])
    refine ⟨_, congrArg Host.Outcome.next (if_pos hdue'), ?_⟩
    rw [hph]
    simp only [Phase.withCk, Phase.stopInput, inputNo_eq_four]
    split_ifs <;> simp [inputNo_lt]

theorem getLsbD_setBit_self {w : Nat} (x : BitVec w) (i : Nat) (b : Bool) (h : i < w) : (setBit x i b).getLsbD i = b := by
  rw [getLsbD_setBit_of_lt x i i b h, if_pos rfl]

/-- Settles O29. -/
theorem tickAndCheckpoints : Obligations.TickAndCheckpoints := by
  unfold Obligations.TickAndCheckpoints
  refine ⟨?ticks, ?checkpoint⟩
  case' ticks =>
    intro s p
    refine ⟨fun hplclk hx hh hl hd => ?holdover, fun hplclk hx hl => ?ends, fun hplclk => ?fails, fun hlife => ?lost⟩
  case' checkpoint => intro s p hplclk hadv htick hodo hvault hpl hhl
  case holdover =>
    have hdue : (s.plclk && p.holdDue) = true := by simp [Phase.holdDue, hplclk, hx, hh, hl, hd]
    obtain ⟨o, t, b, hph⟩ := s.putPh_ph p.enterHoldover
    refine ⟨_, congrArg Host.Outcome.next (if_pos hdue), ?_, ?_, ?_⟩
    · rw [hph]; rfl
    · rw [hph]
      simp [Phase.withCk, Phase.enterHoldover, Phase.update, Phase.tickNow, hl]
    · rw [State.evBit, State.putPh_ev]
      exact getLsbD_setBit_self s.fb.ev 0x46 true (by decide)
  case ends =>
    have hc : (s.plclk && !p.xtal && !p.tickLost) = true := by simp [hplclk, hx, hl]
    obtain ⟨o, t, b, hph⟩ := s.putPh_ph
      (({ p with holdover := false, xtal := true, sbS := p.sbS + 1, sbN := 0, sbAcc := 0 } : Phase).update, [])
    refine ⟨_, congrArg Host.Outcome.next (if_pos hc), ?_, ?_⟩
    · rw [hph]; rfl
    · rw [hph]
      simp [Phase.withCk, Phase.update, Phase.tickNow, hl]
  case fails =>
    have hlife : s.pw.life ≠ .off := by intro h; simp [State.plclk, h] at hplclk
    exact congrArg Host.Outcome.next ((if_neg hlife).trans (if_pos hplclk))
  case lost =>
    have hplclk : s.plclk = false := by simp [State.plclk, hlife]
    exact congrArg Host.Outcome.next ((if_neg (by simp [hlife])).trans (if_neg (by simp [hplclk])))
  case checkpoint =>
    have hc : (s.plclk && p.ckAdv && decide (p.ckTick.toNat + 10 * 2 ^ 20 ≤ p.tick.toNat)) = true := by simp [hplclk, hadv]; exact htick
    have hv : (p.odoValid && s.vaultOn && !s.fb.plink.down && !s.fb.hearth.down) = true := by simp [hodo, hvault, hpl, hhl]
    exact congrArg Host.Outcome.next ((if_pos hc).trans (if_pos hv))

/-- The wake fields after a request of cause `cause` that stands first or behind an earlier one (R391). -/
def Wake.requested (w : Wake) (cause : Nat) (tick : Dbl) : Wake :=
  if w.wake then { w with req := true } else { w with req := true, wake := true, cause := BitVec.ofNat 3 cause, tick := tick }

theorem Wake.requested_spec (w : Wake) (cause : Nat) (tick : Dbl) :
    (w.requested cause tick).req = true ∧ (w.requested cause tick).wake = true ∧
      (w.wake = false → (w.requested cause tick).cause = BitVec.ofNat 3 cause ∧ (w.requested cause tick).tick = tick) ∧
      (w.wake = true → (w.requested cause tick).cause = w.cause ∧ (w.requested cause tick).tick = w.tick) ∧
      (w.requested cause tick).count = w.count ∧ (w.requested cause tick).lastTooth = w.lastTooth := by
  cases h : w.wake <;> simp [Wake.requested, h]

theorem State.wakeRequest_eq (s : State) (cause : Nat) (hl : s.pw.life = .standby) (hp : s.pil.wakePin = true) :
    s.wakeRequest cause = { s with pil := { s.pil with wk := s.pil.wk.requested cause s.pil.ph.tick, wakePin := false } } := by
  rw [State.wakeRequest, if_neg (by simp [hl, hp])]
  rfl

/-- A wake request changes the wake pin and the request that stands; a count of teeth stays. -/
theorem State.wakeRequest_frame (s : State) (cause : Nat) : ∃ w b, s.wakeRequest cause =
    { s with pil := { s.pil with wk := w, wakePin := b } } ∧ w.count = s.pil.wk.count ∧ w.lastTooth = s.pil.wk.lastTooth := by
  by_cases h : s.pw.life ≠ .standby ∨ !s.pil.wakePin
  · exact ⟨s.pil.wk, s.pil.wakePin, by rw [State.wakeRequest, if_pos h], rfl, rfl⟩
  · obtain ⟨-, -, -, -, hc, ht⟩ := s.pil.wk.requested_spec cause s.pil.ph.tick
    simp only [not_or, not_not, Bool.not_eq_true', Bool.not_eq_false] at h
    exact ⟨_, _, s.wakeRequest_eq cause h.1 h.2, hc, ht⟩

/-- The two bits of a field of two bits. -/
theorem fieldN_two {w : Nat} (x : BitVec w) (lo : Nat) :
    (fieldN x lo 2 % 2 = 1 ↔ x.getLsbD lo = true) ∧ (2 ≤ fieldN x lo 2 ↔ x.getLsbD (lo + 1) = true) := by
  simp only [fieldN, BitVec.getLsbD, Nat.testBit_eq_decide_div_mod_eq, decide_eq_true_eq, pow_succ, ← Nat.div_div_eq_div_mul]
  omega

/-- Two source teeth stand 16 SBCLK periods apart or closer (R61). -/
def State.standbyFast (s : State) : Bool :=
  match s.pil.wk.lastTooth with | some t => decide (s.pil.ph.sbS - t ≤ 16) | none => false

/-- What a source tooth makes of the timebase in standby. -/
def Phase.standbyStep (p : Phase) (w : Nat) (level : Bool) : PhOut :=
  ((({ p with ang := p.ang.modify w (fun a => { a with level := level }) } : Phase).adopt w).wheel w false).1

theorem Phase.standbyStep_source (p : Phase) (w : Nat) (level : Bool) (hs : p.src.toNat = w) :
    (p.standbyStep w level).1.course = nextTooth p.course ∧ (p.standbyStep w level).1.tick = p.tick := by
  obtain ⟨-, hc, -, ht⟩ := Phase.wheel_source
    (({ p with ang := p.ang.modify w (fun a => { a with level := level }) } : Phase).adopt w) w false hs
  exact ⟨hc, ht⟩

/-- The state once a source tooth in standby has been counted, before a wake request. -/
def State.standbyCounted (s : State) (w : Nat) (level : Bool) : State :=
  (s.putPh ((s.pil.ph.standbyStep w level).1, (s.pil.ph.standbyStep w level).2 ++ (if s.standbyFast then [0x1047] else []))).modWk
    (fun k => { k with count := k.count + 1, lastTooth := some s.pil.ph.sbS })

theorem State.standbyTooth_of_source (s : State) (w : Nat) (level : Bool) (hl : s.pw.life = .standby) (hr : s.pil.wk.standbyRun = true)
    (hv : s.pw.vddioA = true) (hc : s.pil.ph.counted w = true) (hlev : (s.pil.ph.ang.get w).level ≠ level)
    (ht : isTooth (s.pil.ph.edge w) level = true) (hs : s.pil.ph.src.toNat = w) (hp : s.pil.ph.pendCourse = false) :
    s.standbyTooth w level =
      if s.standbyFast then (s.standbyCounted w level).wakeRequest 2 else s.standbyCounted w level := by
  let q : Phase := { s.pil.ph with ang := s.pil.ph.ang.modify w (fun a => { a with level := level }) }
  obtain ⟨hadv, -⟩ := Phase.wheel_source (q.adopt w) w false hs
  rw [State.standbyTooth, if_neg (by simp [hl, hr, hv, hc, hlev]), if_neg (by simp [ht]),
    Phase.applyCourse_of_not_pending (q.adopt w) w hp]
  simp only [hadv, if_true, Bool.true_and]
  rfl

/-- Settles O31: a source tooth counts and advances COURSE, and whatever raises a wake request keeps the first cause. -/
theorem standbyWakes : Obligations.StandbyWakes := by
  unfold Obligations.StandbyWakes
  intro s p k woken hlife
  have hwoken : ∀ (r : State) (cause : Nat) (g : Wake → Wake), r.pw.life = .standby → r.pil.wakePin = true → r.pil.ph.tick = p.tick →
      r.pil.wk.wake = k.wake → r.pil.wk.cause = k.cause → r.pil.wk.tick = k.tick →
      (∀ w, (g w).req = w.req ∧ (g w).wake = w.wake ∧ (g w).cause = w.cause ∧ (g w).tick = w.tick) →
      woken ((r.wakeRequest cause).modWk g) cause := by
    intro r cause g hl hpin htick hw hc ht hg
    obtain ⟨hgr, hgw, hgc, hgt⟩ := hg (r.pil.wk.requested cause p.tick)
    obtain ⟨hreq, hwake, hfirst, hlater, -⟩ := r.pil.wk.requested_spec cause p.tick
    rw [hw] at hfirst
    rw [hc, ht, hw] at hlater
    rw [r.wakeRequest_eq cause hl hpin, htick]
    exact ⟨rfl, hgr.trans hreq, hgw.trans hwake, fun h => ⟨hgc.trans (hfirst h).1, hgt.trans (hfirst h).2⟩,
      fun h => ⟨hgc.trans (hlater h).1, hgt.trans (hlater h).2⟩⟩
  refine ⟨fun w level hrun hvdd hcount hlevel htooth hsrc hpend => ?tooth, fun hreq hteeth => ?teeth, fun i level hvdd hlevel => ?trig⟩
  case tooth =>
    have hs : p.src.toNat = w.toNat := congrArg BitVec.toNat hsrc
    obtain ⟨hcourse, htick⟩ := p.standbyStep_source w.toNat level hs
    obtain ⟨o, t, b, hph⟩ := s.putPh_ph
      ((p.standbyStep w.toNat level).1, (p.standbyStep w.toNat level).2 ++ (if s.standbyFast then [0x1047] else []))
    have heq := s.standbyTooth_of_source w.toNat level hlife hrun hvdd hcount hlevel htooth hs hpend
    have hcph : (s.standbyCounted w.toNat level).pil.ph = (p.standbyStep w.toNat level).1.withCk o t b := hph
    have hcwk : (s.standbyCounted w.toNat level).pil.wk = { k with count := k.count + 1, lastTooth := some p.sbS } :=
      congrArg (fun x : Wake => { x with count := x.count + 1, lastTooth := some p.sbS }) (s.putPh_wk _)
    have hcpw : (s.standbyCounted w.toNat level).pw = s.pw := s.putPh_pw _
    have hcpin : (s.standbyCounted w.toNat level).pil.wakePin = s.pil.wakePin := s.putPh_wakePin _
    have hfast : s.standbyFast = true ↔ ∃ t, k.lastTooth = some t ∧ p.sbS - t ≤ 16 := by
      simp only [State.standbyFast, k, p]
      cases s.pil.wk.lastTooth <;> simp
    refine ⟨_, congrArg Host.Outcome.next heq, ?_⟩
    by_cases hf : s.standbyFast = true
    · obtain ⟨u, v, hfr, hcount', hlast⟩ := (s.standbyCounted w.toNat level).wakeRequest_frame 2
      rw [if_pos hf]
      refine ⟨?_, ?_, ?_, fun _ hpin => ?_⟩
      · rw [hfr, hcph]; exact hcourse
      · rw [hfr]; exact hcount'.trans (by rw [hcwk])
      · rw [hfr]; exact hlast.trans (by rw [hcwk])
      · exact hwoken (s.standbyCounted w.toNat level) 2 id (hcpw ▸ hlife) (hcpin.trans hpin) (by rw [hcph]; exact htick) (by rw [hcwk])
          (by rw [hcwk]) (by rw [hcwk]) (fun w => ⟨rfl, rfl, rfl, rfl⟩)
    · rw [if_neg hf, hcph, hcwk]
      exact ⟨hcourse, rfl, rfl, fun h => absurd (hfast.2 h) hf⟩
  case teeth =>
    have hc : (s.pw.life = .standby && !s.pil.wk.distReq && decide (p.wakeTeeth ≤ s.pil.wk.count)) = true := by
      simp only [hlife, Bool.and_eq_true, decide_eq_true_eq, Bool.not_eq_true']
      exact ⟨⟨trivial, hreq⟩, hteeth⟩
    exact ⟨_, congrArg Host.Outcome.next (if_pos hc), rfl,
      fun hpin => hwoken s 1 _ hlife hpin rfl rfl rfl rfl (fun w => ⟨rfl, rfl, rfl, rfl⟩)⟩
  case trig =>
    let s1 := s.modCap (fun c => { c with trigPin := setBit c.trigPin i.toNat level })
    let sel := fieldN k.stbyWake (2 * i.toNat) 2
    have heq : exec (.standbyTrigEdge i level) s = .next (if (level && sel % 2 = 1) || (!level && 2 ≤ sel) then
        s1.wakeRequest (3 + i.toNat) else s1) :=
      congrArg Host.Outcome.next (if_neg (by simpa [hlife, hvdd] using hlevel))
    obtain ⟨u, v, hfr, -⟩ := s1.wakeRequest_frame (3 + i.toNat)
    refine ⟨_, heq, ?_, fun hsel hpin => ?_⟩
    · split
      · rw [hfr]; rfl
      · rfl
    · have hs : ((level && decide (sel % 2 = 1)) || (!level && decide (2 ≤ sel))) = true := by
        obtain ⟨hlow, hhigh⟩ := fieldN_two k.stbyWake (2 * i.toNat)
        cases level with
        | true => simpa [sel, hlow] using hsel
        | false => simpa [sel, hhigh] using hsel
      rw [if_pos hs]
      exact hwoken s1 (3 + i.toNat) id hlife hpin rfl rfl rfl rfl (fun w => ⟨rfl, rfl, rfl, rfl⟩)

end Sys2Proof.Machine
end

section
/-! O30: the phase comparators. -/

namespace Sys2Proof.Machine

theorem passed_iff (v target : Dbl) : passed v target = true ↔ (v - target).msb = false := by
  rw [passed, decide_eq_true_eq, BitVec.msb_eq_decide, decide_eq_false_iff_not, not_le]

theorem passed_eq (v target : Dbl) : passed v target = !(v - target).msb := by
  have h := passed_iff v target
  cases hp : passed v target <;> cases hm : (v - target).msb <;> simp_all

theorem toNat_satAdd {w : Nat} (x : BitVec w) (n : Nat) : (satAdd x n).toNat = min (2 ^ w - 1) (x.toNat + n) := by
  rw [satAdd]
  split
  · next h => rw [BitVec.toNat_ofNat, Nat.mod_eq_of_lt h]; omega
  · rw [BitVec.toNat_allOnes]; omega

theorem BitVec.ofNat_fieldN {w : Nat} (x : BitVec w) (lo n : Nat) : BitVec.ofNat n (fieldN x lo n) = x.extractLsb' lo n := by
  rw [← extractLsb'_toNat_fieldN, BitVec.ofNat_toNat, BitVec.setWidth_eq]

theorem State.evBit_setEv (s : State) (a : Nat) (h : a - 0x1000 < 1024) (ha : evAssigned a = true) : (s.setEv a).evBit a = true := by
  rw [State.evBit, State.setEv_fb, getLsbD_setBit_self _ _ _ h, ha]
  rfl

theorem Compar.hit_once (c : Compar) (v : Dbl) (set : Bool) (h : c.periodic = false) :
    (c.hit v set).en = false ∧ (c.hit v set).target = c.target := by
  simp [Compar.hit, h]

theorem Compar.hit_periodic (c : Compar) (v : Dbl) (set : Bool) (h : c.periodic = true) :
    (c.hit v set).en = c.en ∧
      (c.hit v set).target = c.target + BitVec.ofNat 48 (((v - c.target).toNat / c.incr.toNat + 1) * c.incr.toNat) ∧
      (c.hit v set).skip = satAdd c.skip ((v - c.target).toNat / c.incr.toNat) := by
  simp [Compar.hit, h]

theorem Compar.hit_overrun (c : Compar) (v : Dbl) (set : Bool) :
    (c.hit v set).overrun = if set then satInc c.overrun else c.overrun := by
  simp only [Compar.hit]
  split <;> rfl

theorem Compar.hit_carried (c : Compar) (v : Dbl) (set : Bool) : (c.hit v set).carried = if set then c.carried else c.level := by
  simp only [Compar.hit]
  split <;> rfl

/-- Settles O30. -/
theorem comparators : Obligations.Comparators := by
  unfold Obligations.Comparators
  intro s n c value v set
  have hn : n.toNat < 64 := n.isLt
  refine ⟨fun hon hen hmsb => ?hit, fun hon hen hmsb => ?notYet, fun x => rfl, fun x => ?incr, fun x => ?ctrl⟩
  case hit =>
    have hpass : passed v c.target = true := (passed_iff _ _).2 hmsb
    have heq : exec (.comparatorHit n) s = .next ((set (c.hit v (s.evBit (0x1000 + n.toNat)))).setEv (0x1000 + n.toNat)) :=
      congrArg Host.Outcome.next ((if_neg (by simp [hon]; exact hen)).trans (if_pos hpass))
    have hget : (s.fb.cmp.set n.toNat (c.hit v (s.evBit (0x1000 + n.toNat)))).get n.toNat = c.hit v (s.evBit (0x1000 + n.toNat)) :=
      Tab.get_set_self _ _ _ hn
    refine ⟨_, heq, ?_, ?_⟩
    · exact State.evBit_setEv _ _ (by omega) (by simp [evAssigned]; omega)
    · simp only [State.setEv_fb, set, hget]
      refine ⟨fun hp => ?_, fun hp _ => ?_, fun hset => ?_, fun hset => ?_⟩
      · exact c.hit_once v _ hp
      · obtain ⟨hpen, htarget, hskip⟩ := c.hit_periodic v (s.evBit (0x1000 + n.toNat)) hp
        exact ⟨hpen.trans hen, htarget, (congrArg BitVec.toNat hskip).trans (toNat_satAdd c.skip _)⟩
      · rw [c.hit_overrun, hset]; rfl
      · rw [c.hit_overrun, c.hit_carried, hset]; exact ⟨rfl, rfl⟩
  case notYet =>
    have hpass : ¬ passed v c.target = true := by rw [passed_iff]; simp [hmsb]
    exact congrArg Host.Outcome.next ((if_neg (by simp [hon]; exact hen)).trans (if_neg hpass))
  case incr =>
    have hmsb : 2 ^ 47 ≤ x.toNat ↔ x.msb = true := by rw [BitVec.msb_eq_decide, decide_eq_true_eq]
    exact congrArg Host.Outcome.next (if_congr hmsb rfl rfl)
  case ctrl =>
    intro level src bad d
    have hlevel : fieldN x 4 3 = 0 ↔ level = 0 := by
      rw [← extractLsb'_toNat_fieldN]; exact ⟨fun h => BitVec.eq_of_toNat_eq h, fun h => congrArg BitVec.toNat h⟩
    have hsrc : fieldN x 1 2 = 3 ↔ src = 3 := by
      rw [← extractLsb'_toNat_fieldN]; exact ⟨fun h => BitVec.eq_of_toNat_eq h, fun h => congrArg BitVec.toNat h⟩
    have hvalue : s.cmpValue (fieldN x 1 2) = value src.toNat := by rw [← extractLsb'_toNat_fieldN]; rfl
    have hd : d = { c with en := x.getLsbD 0 && !decide (fieldN x 4 3 = 0 ∨ fieldN x 1 2 = 3 ∨ (x.getLsbD 3 = true ∧ c.incr = 0)),
                           src := BitVec.ofNat 2 (fieldN x 1 2), periodic := x.getLsbD 3, level := BitVec.ofNat 3 (fieldN x 4 3) } := by
      simp only [d, bad, hlevel, hsrc, BitVec.ofNat_fieldN, src, level]
    rw [hd, ← hvalue, ← passed_eq]
    rfl

end Sys2Proof.Machine
end

section
/-! O33 to O36: the ring engine. -/

namespace Sys2Proof.Machine

/-- An event queue takes an entry: the rings, Ember memory and the event bits stay. -/
theorem State.pushEq_frame (s : State) (c : CoreId) (e : Dbl) : ∃ k n l, s.pushEq c e =
    { s with cores := k, fb := { s.fb with cnt := n }, hs := { s.hs with slots := l } } := by
  rw [State.pushEq]
  split
  · exact ⟨_, s.fb.cnt, s.hs.slots, rfl⟩
  · exact ⟨s.cores, _, _, rfl⟩

theorem State.emEvent_frame (s : State) (r kd src : Nat) (tick : Dbl) : ∃ k n l, s.emEvent r kd src tick =
    { s with cores := k, fb := { s.fb with ev := setBit s.fb.ev (0x1080 + 4 * r + (kd - 1) - 0x1000)
                                            (true && evAssigned (0x1080 + 4 * r + (kd - 1))), cnt := n },
             hs := { s.hs with slots := l } } := by
  obtain ⟨k, n, l, h⟩ := (s.setEv (0x1080 + 4 * r + (kd - 1))).pushEq_frame (s.fb.rings.get r).core
    (BitVec.ofNat 48 (kd * 2 ^ 44 + r * 2 ^ 40 + (if kd = 1 ∨ kd = 3 then src % 32 else 0) * 2 ^ 35 + tick.toNat % 2 ^ 32))
  exact ⟨k, n, l, h⟩

theorem State.emEvent_rings (s : State) (r kd src : Nat) (tick : Dbl) : (s.emEvent r kd src tick).fb.rings = s.fb.rings := by
  obtain ⟨k, n, l, h⟩ := s.emEvent_frame r kd src tick
  rw [h]

theorem State.emEvent_ember (s : State) (r kd src : Nat) (tick : Dbl) : (s.emEvent r kd src tick).fb.ember = s.fb.ember := by
  obtain ⟨k, n, l, h⟩ := s.emEvent_frame r kd src tick
  rw [h]

theorem State.evBit_emEvent (s : State) (r kd src : Nat) (tick : Dbl) (hr : r < 16) (hk : kd ≤ 4) :
    (s.emEvent r kd src tick).evBit (0x1080 + 4 * r + (kd - 1)) = true := by
  obtain ⟨k, n, l, h⟩ := s.emEvent_frame r kd src tick
  have ha : evAssigned (0x1080 + 4 * r + (kd - 1)) = true := by simp [evAssigned]; omega
  rw [h, State.evBit, getLsbD_setBit_self _ _ _ (by omega), ha]
  rfl

/-- The end of a post window changes its own ring, and no other ring nor Ember memory. -/
theorem State.endPost_rings (s : State) (i : Nat) (trunc : Bool) :
    (s.endPost i trunc).fb.rings = s.fb.rings.modify i (fun r => r.endPost trunc) := by
  simp only [State.endPost]
  split <;> simp only [State.emEvent_rings] <;> rfl

theorem State.endPost_ember (s : State) (i : Nat) (trunc : Bool) : (s.endPost i trunc).fb.ember = s.fb.ember := by
  simp only [State.endPost]
  split <;> simp only [State.emEvent_ember] <;> rfl

/-! ## Ring cells (O36) -/

theorem State.ring_modRing (s : State) (i : Nat) (f : EmRing → EmRing) (h : i < 16) :
    (s.modRing i f).fb.rings.get i = f (s.fb.rings.get i) := Tab.get_modify_self _ _ _ h

theorem EmRing.freeHalf_wins (r : EmRing) (h : Bool) : (r.freeHalf h).wins = r.wins := by
  simp only [EmRing.freeHalf, EmRing.setHalf]
  split_ifs <;> rfl

/-- A half that is freed (R208, R209): in SINGLE it is ARMED at once, in PAIRED only while the other half takes no writes. -/
theorem EmRing.freeHalf_half (r : EmRing) (h : Bool) :
    (r.paired = false → (r.freeHalf h).h0 = .armed) ∧
    (r.paired = true → (r.half (!h)).active = true → (r.freeHalf h).half h = .free) ∧
    (r.paired = true → (r.half (!h)).active = false → (r.freeHalf h).half h = .armed) := by
  refine ⟨fun hp => ?_, fun hp ha => ?_, fun hp ha => ?_⟩
  · rw [EmRing.freeHalf, if_pos (by simp [hp])]
  · rw [EmRing.freeHalf, if_neg (by simp [hp]), if_pos ha]
    cases h <;> rfl
  · rw [EmRing.freeHalf, if_neg (by simp [hp]), if_neg (by simp [ha])]
    cases h <;> rfl

theorem EmRing.cleanup_frame (r : EmRing) : ∃ w m l q, r.cleanup = { r with wins := w, missed := m, mlist := l, waitMiss := q } := by
  simp only [EmRing.cleanup]
  split
  · exact ⟨_, _, _, _, rfl⟩
  · exact ⟨_, r.missed, r.mlist, r.waitMiss, rfl⟩

theorem EmRing.disable_off (r : EmRing) : r.disable.en = false ∧ r.disable.h0 = .free ∧ r.disable.h1 = .free := by
  obtain ⟨w, m, l, q, h⟩ := EmRing.cleanup_frame
    { (r.endPost true) with en := false, h0 := .free, h1 := .free, wp := 0, depth := 0,
                            wins := (r.endPost true).wins.map (fun w => { w with dead := true }) }
  rw [EmRing.disable, h]
  exact ⟨rfl, rfl, rfl⟩

/-- A disabled ring takes a configuration cell other than its control cell. -/
theorem State.writeRingCell_off (s : State) (i off : Nat) (v : Cell) (hen : (s.fb.rings.get i).en = false) (hoff : off ≠ 0)
    (hm : ringMask off ≠ 0) : s.writeRingCell i off v = s.modRing i (fun q => q.putCfg off v) := by
  simp only [State.writeRingCell, if_neg hm, hen, Bool.false_eq_true, if_false]
  rw [if_neg (by simp [hoff])]

/-- The state once an enabled ring has refused the value `v` of a configuration cell: CFGERR is 6 where a field would change. -/
def State.cfgRefused (s : State) (i off : Nat) (v : Cell) : State :=
  if ((s.fb.rings.get i).cfgCell off ^^^ v) &&& (ringMask off &&& ~~~(if off = 0 then 1 else 0)) = 0 then s
  else s.modRing i (fun q => { q with cfgerr := 6 })

theorem State.writeRingCell_on (s : State) (i off : Nat) (v : Cell) (hen : (s.fb.rings.get i).en = true) (hm : ringMask off ≠ 0) :
    s.writeRingCell i off v =
      if off = 0 && !v.getLsbD 0 then (s.cfgRefused i off v).modRing i EmRing.disable else s.cfgRefused i off v := by
  rw [State.writeRingCell, if_neg hm, if_pos hen]
  rfl

/-- EN of a ring is set where its checks hold, else CFGERR says which failed (R199, R209). -/
theorem State.enableRing_ring (s : State) (i : Nat) (h : i < 16) :
    (s.ringCheck i = 0 → ((s.enableRing i).fb.rings.get i).en = true ∧ ((s.enableRing i).fb.rings.get i).h0 = .armed ∧
      ((s.enableRing i).fb.rings.get i).h1 = .free ∧ ((s.enableRing i).fb.rings.get i).wp = 0 ∧
      ((s.enableRing i).fb.rings.get i).depth = 0 ∧ ((s.enableRing i).fb.rings.get i).missed = 0) ∧
    (s.ringCheck i ≠ 0 → ((s.enableRing i).fb.rings.get i).en = (s.fb.rings.get i).en ∧
      ((s.enableRing i).fb.rings.get i).cfgerr = BitVec.ofNat 4 (s.ringCheck i)) := by
  rw [State.enableRing, State.ring_modRing _ _ _ h]
  refine ⟨fun hc => ?_, fun hc => ?_⟩
  · rw [if_pos hc]; exact ⟨rfl, rfl, rfl, rfl, rfl, rfl⟩
  · rw [if_neg hc]; exact ⟨rfl, rfl⟩

theorem ringMask_chmap (j : Nat) (h : j < 16) : ringMask (8 + j) = 0x80003F := by
  simp only [ringMask]
  rw [if_neg (by omega), if_neg (by omega), if_neg (by omega), if_neg (by omega), if_pos (by omega)]

theorem EmRing.putCfg_chmap (r : EmRing) (j : Nat) (v : Cell) (h : j < 16) :
    r.putCfg (8 + j) v = { r with chmap := r.chmap.set j (v &&& 0x80003F) } := by
  interval_cases j <;> rfl

/-- A value that fits BASE and is not the ring's differs from it in a field of the cell. -/
theorem EmRing.base_differs (r : EmRing) (v : Cell) (hne : v ≠ r.base.setWidth 24) (htop : v.extractLsb' 22 2 = 0) :
    ¬ (r.cfgCell 1 ^^^ v) &&& (ringMask 1 &&& ~~~(if 1 = 0 then 1 else 0)) = 0 := by
  intro h
  refine hne (BitVec.eq_of_getLsbD_eq fun j hj => ?_)
  by_cases hl : j < 22
  · have hbit := congrArg (fun x : Cell => x.getLsbD j) h
    have hmask : ∀ i : Fin 24, i.val < 22 → (ringMask 1 &&& ~~~(if 1 = 0 then 1 else 0) : Cell).getLsbD i.val = true := by decide
    simp only [BitVec.getLsbD_and, BitVec.getLsbD_xor, hmask ⟨j, hj⟩ hl, Bool.and_true] at hbit
    exact (bne_eq_false_iff_eq.1 (hbit.trans BitVec.getLsbD_zero)).symm
  · have hbit := congrArg (fun x : BitVec 2 => x.getLsbD (j - 22)) htop
    have hhigh : v.getLsbD j = false := by
      simpa [BitVec.getLsbD_extractLsb', show j - 22 < 2 by omega, show 22 + (j - 22) = j by omega] using hbit
    rw [hhigh, BitVec.getLsbD_setWidth, BitVec.getLsbD_of_ge _ _ (by omega), Bool.and_false]

/-- Settles O36. -/
theorem ringCells : Obligations.RingCells := by
  unfold Obligations.RingCells
  intro s k i r cfg
  have hi : i < 16 := k.isLt
  refine ⟨fun v hv => congrArg Host.Outcome.next (if_pos hv), fun w hw => ?release, fun v hen => ?config, fun v hen hv => ?enable,
    fun v hen hne htop => ?refused, fun v hen hv => ?disable⟩
  case release =>
    have hr : r.release = { (r.freeHalf w.half) with wins := r.wins.erase w } := by rw [EmRing.release, hw]
    rw [hr]
    exact ⟨rfl, r.freeHalf_half w.half⟩
  case config =>
    refine ⟨?_, ?_, ?_, ?_, fun j hj => ?_⟩
    · exact congrArg Host.Outcome.next (s.writeRingCell_off i 1 v hen (by decide) (by decide))
    · exact congrArg Host.Outcome.next (s.writeRingCell_off i 2 v hen (by decide) (by decide))
    · exact congrArg Host.Outcome.next (s.writeRingCell_off i 3 v hen (by decide) (by decide))
    · exact congrArg Host.Outcome.next (s.writeRingCell_off i 4 v hen (by decide) (by decide))
    · have hoff : (8 + BitVec.ofNat 7 j).toNat = 8 + j := by simp; omega
      have h60 : (8 + BitVec.ofNat 7 j) ≠ 0x60 := fun h => by have := congrArg BitVec.toNat h; rw [hoff] at this; simp at this; omega
      refine congrArg Host.Outcome.next ((if_neg h60).trans ?_)
      rw [hoff, s.writeRingCell_off i (8 + j) v hen (by omega) (by rw [ringMask_chmap j hj]; decide)]
      simp only [EmRing.putCfg_chmap _ j v hj]
  case enable =>
    intro s1
    have hcfg : (fun q : EmRing => q.putCfg 0 v) =
        fun q => { q with paired := v.getLsbD 1, crec := v.getLsbD 2, core := v.extractLsb' 3 4 } := by
      funext q; rw [← BitVec.ofNat_fieldN]; rfl
    have heq : exec (.ringCellWrite k 0 v) s = .next (s1.enableRing i) := by
      have hw : s.writeRingCell i 0 v = (s.modRing i (fun q => q.putCfg 0 v)).enableRing i := by
        rw [State.writeRingCell, if_neg (by decide), if_neg (ne_true_of_eq_false hen), if_pos (by simpa using hv)]
      rw [hcfg] at hw
      exact congrArg Host.Outcome.next hw
    have hoff : (s1.fb.rings.get i).en = false := by rw [State.ring_modRing _ _ _ hi]; exact hen
    obtain ⟨hset, herr⟩ := s1.enableRing_ring i hi
    rw [hoff] at herr
    exact ⟨_, heq, hset, herr⟩
  case refused =>
    refine congrArg Host.Outcome.next ((s.writeRingCell_on i 1 v hen (by decide)).trans ?_)
    rw [if_neg (by simp), State.cfgRefused, if_neg ?_]
    exact r.base_differs v hne htop
  case disable =>
    refine ⟨_, congrArg Host.Outcome.next ((s.writeRingCell_on i 0 v hen (by decide)).trans (if_pos ?_)), ?_⟩
    · rw [hv]; rfl
    · rw [State.ring_modRing _ _ _ hi]
      exact EmRing.disable_off _

end Sys2Proof.Machine
end

section
/-! O33 and O34: entries and triggers reach the rings. -/

namespace Sys2Proof.Machine

/-- Cells written into an area of Ember from offset `wp` stand there, wrapping, and no other cell changes (R200). -/
theorem memRead_writeArea (lo size : Nat) (cs : List Cell) : ∀ (m : Mem 24) (wp : Nat), Memory.wf m = true →
    wp < size → cs.length ≤ size →
    (∀ k, k < cs.length → memRead (writeArea m lo size wp cs) (lo + (wp + k) % size) = cs.getD k 0) ∧
    (∀ a, (∀ k, k < cs.length → a ≠ lo + (wp + k) % size) → memRead (writeArea m lo size wp cs) a = memRead m a) := by
  induction cs with
  | nil => exact fun m wp _ _ _ => ⟨fun k hk => absurd hk (Nat.not_lt_zero k), fun a _ => rfl⟩
  | cons v cs ih =>
    intro m wp hm hwp hlen
    rw [List.length_cons] at hlen ⊢
    have hnext : ∀ k, ((wp + 1) % size + k) % size = (wp + (k + 1)) % size := fun k => by
      rw [Nat.mod_add_mod]; congr 1; omega
    obtain ⟨hnew, hold⟩ := ih (memWrite m (lo + wp) v) ((wp + 1) % size) (Memory.wf_memWrite m _ v hm)
      (Nat.mod_lt _ (by omega)) (by omega)
    simp only [hnext] at hnew hold
    refine ⟨fun k hk => ?_, fun a ha => ?_⟩
    · cases k with
      | zero =>
        have hfirst : ∀ j, j < cs.length → lo + (wp + 0) % size ≠ lo + (wp + (j + 1)) % size := by
          intro j hj h
          have hdvd : size ∣ j + 1 := (Nat.modEq_zero_iff_dvd.1 (Nat.ModEq.add_left_cancel' wp (Nat.add_left_cancel h)).symm)
          exact absurd (Nat.le_of_dvd (by omega) hdvd) (by omega)
        rw [writeArea, hold _ hfirst, Nat.add_zero, Nat.mod_eq_of_lt hwp, memRead_memWrite_wf m _ _ v hm, if_pos rfl]
        rfl
      | succ k => exact hnew k (by omega)
    · rw [writeArea, hold a (fun k hk => ha (k + 1) (by omega)), memRead_memWrite_wf m _ _ v hm, if_neg]
      have := ha 0 (by omega)
      rwa [Nat.add_zero, Nat.mod_eq_of_lt hwp] at this

/-- Ring `i` once the cells of entry `e` with TAG `tag` have gone into its active half `h`, before a window that they complete
is ended (R200, R207). -/
def State.entryIn (s : State) (i : Nat) (h : Bool) (cs : List Cell) : State :=
  (s.modFb (fun f => { f with ember := writeArea f.ember ((s.fb.rings.get i).lo h) (s.fb.rings.get i).area (s.fb.rings.get i).wp cs })).modRing i
    (fun q => { q with wp := (q.wp + cs.length) % q.area, depth := q.depth + cs.length,
                       wins := if (s.fb.rings.get i).half h = .post then
                           q.wins.map (fun w => if !w.dead && !w.complete then { w with postw := w.postw + cs.length } else w)
                         else q.wins })

theorem State.ringEntry_cases (s : State) (i : Nat) (e : StreamEntry) (h : Bool) (tag : Nat)
    (ha : (s.fb.rings.get i).active = some h) (ht : (s.fb.rings.get i).tagOf e.ch = some tag) :
    s.ringEntry i e = s.entryIn i h (entryCells e tag) ∨
    ((s.fb.rings.get i).half h = .post ∧ s.ringEntry i e = (s.entryIn i h (entryCells e tag)).endPost i false) := by
  have heq : ∃ b : Bool, s.ringEntry i e = if decide ((s.fb.rings.get i).half h = .post) && b then
      (s.entryIn i h (entryCells e tag)).endPost i false else s.entryIn i h (entryCells e tag) := by
    simp only [State.ringEntry, ha, ht]
    exact ⟨_, rfl⟩
  obtain ⟨b, hb⟩ := heq
  by_cases hp : (s.fb.rings.get i).half h = .post
  · rw [hb]
    exact (ite_eq_or_eq _ _ _).symm.imp id (fun h => ⟨hp, h⟩)
  · exact Or.inl (by rw [hb, decide_eq_false hp, Bool.false_and, if_neg Bool.false_ne_true])

theorem State.entryIn_rings (s : State) (i : Nat) (h : Bool) (cs : List Cell) (j : Nat) (hij : j ≠ i) :
    (s.entryIn i h cs).fb.rings.get j = s.fb.rings.get j := Tab.get_modify_ne _ _ _ _ (Ne.symm hij)

theorem entryCells_single (e : StreamEntry) (tag : Nat) (x : BitVec 16) (ht : tag < 16) (h : e.cells = [x]) :
    entryCells e tag = [(if e.g then 0x200000 else 0) ||| (if e.q then 0x100000 else 0) ||| BitVec.ofNat 24 (tag * 65536) |||
      x.setWidth 24] := by
  have hx : x.toNat < 2 ^ 16 := x.isLt
  have hq : b2n e.q ≤ 1 := by cases e.q <;> decide
  have htag : 2 ^ 16 * tag ||| x.toNat = 2 ^ 16 * tag + x.toNat := (Nat.two_pow_add_eq_or_of_lt hx tag).symm
  have hpe : 2 ^ 20 * b2n e.q ||| (2 ^ 16 * tag + x.toNat) = 2 ^ 20 * b2n e.q + (2 ^ 16 * tag + x.toNat) :=
    (Nat.two_pow_add_eq_or_of_lt (by omega) _).symm
  have hgap : 2 ^ 21 * b2n e.g ||| (2 ^ 20 * b2n e.q + (2 ^ 16 * tag + x.toNat)) =
      2 ^ 21 * b2n e.g + (2 ^ 20 * b2n e.q + (2 ^ 16 * tag + x.toNat)) := (Nat.two_pow_add_eq_or_of_lt (by omega) _).symm
  have hg0 : (if e.g then 0x200000 else 0 : Cell) = BitVec.ofNat 24 (2 ^ 21 * b2n e.g) := by cases e.g <;> rfl
  have hq0 : (if e.q then 0x100000 else 0 : Cell) = BitVec.ofNat 24 (2 ^ 20 * b2n e.q) := by cases e.q <;> rfl
  have hx0 : x.setWidth 24 = BitVec.ofNat 24 x.toNat := (BitVec.ofNat_toNat 24 x).symm
  rw [hg0, hq0, hx0, ← BitVec.ofNat_or, ← BitVec.ofNat_or, ← BitVec.ofNat_or, Nat.mul_comm tag 65536, Nat.or_assoc, Nat.or_assoc]
  have hsum : 2 ^ 21 * b2n e.g ||| (2 ^ 20 * b2n e.q ||| (65536 * tag ||| x.toNat)) =
      2 ^ 21 * b2n e.g + (2 ^ 20 * b2n e.q + (65536 * tag + x.toNat)) := by
    rw [show (65536 : Nat) = 2 ^ 16 from rfl, htag, hpe, hgap]
  simp only [entryCells, h, hsum, List.map_nil, List.isEmpty_nil, Bool.not_true, show b2n false = 0 from rfl]
  exact congrArg (fun n => [BitVec.ofNat 24 n]) (by omega)

/-- Settles O33. -/
theorem entriesReachRings : Obligations.EntriesReachRings := by
  unfold Obligations.EntriesReachRings
  refine ⟨fun s e r hs hl hf => ?_, ?_, fun e tag x ht h => entryCells_single e tag x ht h⟩
  · show Host.Outcome.next _ = _
    simp only [hs, hl, Bool.not_true, Bool.false_eq_true, if_false]
    exact congrArg Host.Outcome.next (if_pos hf)
  · intro s i e h tag hi r cs ha ht hlen hwp hwf s'
    have hcases := s.ringEntry_cases i e h tag ha ht
    obtain ⟨hnew, hold⟩ := memRead_writeArea (r.lo h) r.area cs s.fb.ember r.wp hwf hwp hlen
    have hember : s'.fb.ember = writeArea s.fb.ember (r.lo h) r.area r.wp cs := by
      rcases hcases with heq | ⟨-, heq⟩
      · simp only [s', heq]; rfl
      · simp only [s', heq, State.endPost_ember]; rfl
    rw [hember]
    refine ⟨hnew, hold, fun harm => ?_, fun j hj hij => ?_⟩
    · rcases hcases with heq | ⟨hpost, -⟩
      · simp only [s', heq]
        rw [State.entryIn, State.ring_modRing _ _ _ hi]
        exact ⟨rfl, rfl⟩
      · exact absurd (harm.symm.trans hpost) (by decide)
    · rcases hcases with heq | ⟨-, heq⟩
      · simp only [s', heq]; exact s.entryIn_rings i h cs j hij
      · simp only [s', heq, State.endPost_rings]
        rw [Tab.get_modify_ne _ _ _ _ (Ne.symm hij)]
        exact s.entryIn_rings i h cs j hij

/-! ## Triggers -/

theorem preDepth_le (m : Mem 24) (lo size fp : Nat) : ∀ n, preDepth m lo size fp n ≤ n := by
  intro n
  induction n with
  | zero => exact Nat.le_refl 0
  | succ n ih =>
    rw [preDepth]
    split
    · exact Nat.le_succ_of_le ih
    · exact Nat.le_refl _

/-- The window that a freeze of half `h` by a trigger without a record to come opens (R207). -/
def State.frozenWin (s : State) (i : Nat) (h : Bool) (g : Trig) : Win :=
  let r := s.fb.rings.get i
  let d := preDepth s.fb.ember (r.lo h) r.area r.wp (min r.pre.toNat r.depth)
  { half := h, lo := r.lo h, size := r.area, fp := r.wp, d := d, src := g.src, tick := g.tick, course := g.course, crank := g.crank,
    mTick := s.fb.mir.tick, mCourse := s.fb.mir.course, mCrank := s.fb.mir.crank, shortPre := decide (d < r.pre.toNat) }

theorem State.freeze_eq (s : State) (i : Nat) (h : Bool) (g : Trig) (hg : g.wait = none) (hs : s.stoppedFor (s.fb.rings.get i) = false) :
    s.freeze i h g =
      (s.modRing i (fun q => { (q.setHalf h .post) with wins := q.wins ++ [s.frozenWin i h g] })).emEvent i 1 g.src g.tick := by
  simp only [State.freeze, hs, hg, Option.isSome_none, Bool.false_eq_true, if_false]
  rfl

theorem EmRing.half_setHalf (r : EmRing) (h : Bool) (x : HState) : (r.setHalf h x).half h = x := by cases h <;> rfl

theorem EmRing.setHalf_missed (r : EmRing) (h : Bool) (x : HState) : (r.setHalf h x).missed = r.missed := by cases h <;> rfl

/-- The ring that has missed a trigger without a record to come (R211). -/
def EmRing.missing (r : EmRing) (g : Trig) : EmRing :=
  { r with missed := satInc r.missed,
           mlist := if r.mlist.length < 8 then r.mlist ++ [{ src := g.src, tick := g.tick, wait := none }] else r.mlist }

theorem State.miss_eq (s : State) (i : Nat) (g : Trig) (hg : g.wait = none) :
    s.miss i g = (s.modRing i (fun r => r.missing g)).emEvent i 3 g.src g.tick := by
  simp only [State.miss, hg, Option.isSome_none, Bool.false_eq_true, if_false]
  rfl

theorem State.trigger_of_armed (s : State) (i : Nat) (g : Trig) (h : Bool) (he : (s.fb.rings.get i).en = true)
    (ha : (s.fb.rings.get i).active = some h) (hh : (s.fb.rings.get i).half h = .armed) : s.trigger i g = s.freeze i h g := by
  simp only [State.trigger, he, ha, hh, Bool.not_true, Bool.false_eq_true, if_false, if_true]

theorem State.trigger_of_missed (s : State) (i : Nat) (g : Trig) (he : (s.fb.rings.get i).en = true)
    (hh : ∀ h, (s.fb.rings.get i).active = some h → (s.fb.rings.get i).half h ≠ .armed) : s.trigger i g = s.miss i g := by
  rw [State.trigger, if_neg (by simp [he])]
  split
  · next h ha => exact if_neg (hh h ha)
  · rfl

/-- Settles O34. -/
theorem triggersAct : Obligations.TriggersAct := by
  unfold Obligations.TriggersAct
  refine ⟨?acts, ?reaches⟩
  case acts =>
    intro s i g hi hg r s' r'
    refine ⟨fun hen => if_pos (by rw [hen]; rfl), fun h hen ha hh hst => ?freezes, fun hen hno => ?misses⟩
    case freezes =>
      have heq : s' = _ := (s.trigger_of_armed i g h hen ha hh).trans (s.freeze_eq i h g hg hst)
      have hr' : r' = { (r.setHalf h .post) with wins := r.wins ++ [s.frozenWin i h g] } := by
        simp only [r', heq, State.emEvent_rings]
        exact State.ring_modRing _ _ _ hi
      rw [hr']
      refine ⟨(EmRing.half_setHalf _ _ _), EmRing.setHalf_missed _ _ _, ?_, s.frozenWin i h g, rfl, rfl, rfl, rfl, rfl, rfl, rfl, rfl,
        preDepth_le _ _ _ _ _⟩
      rw [heq]
      exact State.evBit_emEvent _ i 1 g.src g.tick hi (by decide)
    case misses =>
      have heq : s' = _ := (s.trigger_of_missed i g hen hno).trans (s.miss_eq i g hg)
      have hr' : r' = r.missing g := by
        simp only [r', heq, State.emEvent_rings]
        exact State.ring_modRing _ _ _ hi
      rw [hr']
      refine ⟨rfl, rfl, ?_, rfl⟩
      rw [heq]
      exact State.evBit_emEvent _ i 3 g.src g.tick hi (by decide)
  case reaches =>
    intro s hf m at_
    refine ⟨fun x hx => ?pulse, fun x r hx hl hp => ?record⟩
    case pulse =>
      show Host.Outcome.next _ = _
      simp only [hx, State.modCap, hf, List.filter_cons, List.filter_nil, decide_not, decide_true, Bool.not_true,
        Bool.false_eq_true, if_true, if_false, at_]
      cases hd : s.fb.plink.down <;> simp only [List.foldl_cons, List.foldl_nil, hd] <;> rfl
    case record =>
      have hp' : s.pil.cap.pulses.any (fun y => y.id = x.id) = false := by simpa using hp
      show Host.Outcome.next _ = _
      simp only [hx, hl, hp', Bool.not_true, Bool.or_false, Bool.false_eq_true, if_false]
      exact congrArg Host.Outcome.next (if_pos hf)

end Sys2Proof.Machine
end

section
/-! O35: the copies of frozen windows. -/

namespace Sys2Proof.Machine

/-- The first element of a list that meets `p` stands behind those that do not. -/
theorem find?_append_cons {α : Type} (p : α → Bool) (l r : List α) (k : α) (hl : ∀ x, x ∈ l → p x = false) (hk : p k = true) :
    (l ++ k :: r).find? p = some k := by
  rw [List.find?_append, List.find?_eq_none.2 (fun x hx => by simp [hl x hx]), List.find?_cons_of_pos hk]
  rfl

theorem erase_append_cons {α : Type} [DecidableEq α] (l r : List α) (k : α) (h : k ∉ l) : (l ++ k :: r).erase k = l ++ r := by
  rw [List.erase_append_right _ h, List.erase_cons_head]

theorem State.copyWin_mem (s : State) (k : Copy) (w : Win) (h : s.copyWin k = some w) : w ∈ (s.fb.rings.get k.ring).wins :=
  List.mem_of_find?_eq_some h

theorem State.submit_fb (s : State) (k : CKind) (tag : Option Nat) : (s.submit k tag).fb = s.fb := by
  obtain ⟨v, h⟩ := s.submit_vault k tag
  rw [h]; rfl

theorem State.submit_slots (s : State) (k : CKind) (tag : Option Nat) : (s.submit k tag).hs.slots = s.hs.slots := by
  obtain ⟨v, h⟩ := s.submit_vault k tag
  rw [h]; rfl

theorem State.logReady_fb (s : State) (i : Nat) : (s.logReady i).fb = s.fb := by
  simp only [State.logReady]
  split
  · exact s.submit_fb _ _
  · rfl

theorem State.logReady_slots (s : State) (i : Nat) : (s.logReady i).hs.slots = s.hs.slots := by
  simp only [State.logReady]
  split
  · exact s.submit_slots _ _
  · rfl

/-- A command's completion changes the Flue alone. -/
theorem State.finish_frame (s : State) (t : Nat) (st : Byte) (res : List Byte) : ∃ f, s.finish t st res = s.modFl f := by
  rw [State.finish]
  split
  · exact ⟨id, rfl⟩
  · exact ⟨_, rfl⟩

/-- A fold relates its start to its end by every reflexive and transitive relation that its steps keep. -/
theorem foldl_rel {σ α : Type} (R : σ → σ → Prop) (hrefl : ∀ s, R s s) (htrans : ∀ a b c, R a b → R b c → R a c) (f : σ → α → σ)
    (h : ∀ q a, R q (f q a)) : ∀ (l : List α) (s : σ), R s (l.foldl f s) := by
  intro l
  induction l with
  | nil => exact hrefl
  | cons a l ih => exact fun s => htrans _ _ _ (h s a) (ih (f s a))

theorem State.foldl_modFl {α : Type} (f : State → α → State) (h : ∀ q a, ∃ g, f q a = q.modFl g) (l : List α) (s : State) :
    ∃ g, l.foldl f s = s.modFl g := by
  refine foldl_rel (fun a b => ∃ g, b = a.modFl g) (fun s => ⟨id, rfl⟩) ?_ f h l s
  rintro a b c ⟨g, rfl⟩ ⟨k, rfl⟩
  exact ⟨fun x => k (g x), rfl⟩

theorem State.emberOffRuns_frame (s : State) : ∃ f, s.emberOffRuns = s.modFl f := by
  refine State.foldl_modFl _ (fun q r => ?_) _ _
  split
  · split
    · exact ⟨id, rfl⟩
    · exact q.finish_frame _ _ _
  · exact ⟨id, rfl⟩

/-- The misses that a completed copy takes with it leave the ring, and its window is gone (R211, R218). -/
theorem EmRing.copied_wins (r : EmRing) (w : Win) (h : w ∈ r.wins) : (r.copied w).wins.length < r.wins.length := by
  have herase : (r.wins.erase w).length < r.wins.length := by
    rw [List.length_erase_of_mem h]
    exact Nat.sub_lt (List.length_pos_of_mem h) Nat.one_pos
  rw [EmRing.copied]
  split
  · rw [List.length_map]; exact herase
  · split
    · refine lt_of_le_of_lt ?_ herase
      rw [EmRing.cleanup]
      split
      · exact Nat.zero_le _
      · exact List.length_filter_le _ _
    · rw [EmRing.freeHalf_wins]; exact herase

theorem EmRing.copied_missed (r : EmRing) (w : Win) (h : w.old = none) : (r.copied w).missed = 0 ∧ (r.copied w).mlist = [] := by
  have hfree : ∀ (q : EmRing) (b : Bool), (q.freeHalf b).missed = q.missed ∧ (q.freeHalf b).mlist = q.mlist := by
    intro q b
    simp only [EmRing.freeHalf, EmRing.setHalf]
    split_ifs <;> exact ⟨rfl, rfl⟩
  rw [EmRing.copied, h]
  dsimp only
  split
  · rw [EmRing.cleanup]
    split <;> exact ⟨rfl, rfl⟩
  · exact hfree _ _

theorem getD_modify_self {α : Type} (l : List α) (i : Nat) (f : α → α) (d : α) (h : i < l.length) :
    (l.modify i f).getD i d = f (l.getD i d) := by
  simp [List.getD_eq_getElem?_getD, List.getElem?_eq_getElem h]

theorem State.slot_modSlot (s : State) (i : Nat) (f : LogSlot → LogSlot) (h : i < 64) :
    (s.modSlot i f).hs.slots.get i = f (s.hs.slots.get i) := Tab.get_modify_self _ _ _ h

/-- The state after a burst of copy `k`, which copies window `w` (R217). -/
def State.copyBurst (s : State) (k : Copy) (w : Win) : State :=
  (s.modFb (fun f => { f with copies := f.copies.erase k ++ [{ k with sent := k.sent + min 64 (s.copyRoom k) }] })).modSlot k.slot
    (fun l => { l with segs := l.segs.modify k.seg (fun g =>
      { g with cells := g.cells ++ (List.range (min 64 (s.copyRoom k))).map (fun j => w.cell s.fb.ember (k.sent + j)) }) })

theorem State.copyBurst_copies (s : State) (k : Copy) (w : Win) : (s.copyBurst k w).fb.copies =
    s.fb.copies.erase k ++ [{ k with sent := k.sent + min 64 (s.copyRoom k) }] := rfl

theorem State.copyBurst_segs (s : State) (k : Copy) (w : Win) (h : k.slot < 64) : ((s.copyBurst k w).hs.slots.get k.slot).segs =
    (s.hs.slots.get k.slot).segs.modify k.seg (fun g =>
      { g with cells := g.cells ++ (List.range (min 64 (s.copyRoom k))).map (fun j => w.cell s.fb.ember (k.sent + j)) }) := by
  rw [State.copyBurst, State.slot_modSlot _ _ _ h]
  rfl

theorem exec_copyBurst (s : State) (k : Copy) (w : Win) (hf : s.fb.copies.find? (fun k => decide (0 < s.copyRoom k)) = some k)
    (hw : s.copyWin k = some w) (hl : s.hearthUp = true) (hon : s.fireOn = true) : exec .copyBurst s = .next (s.copyBurst k w) := by
  show execCopyBurst s = _
  simp only [execCopyBurst, hf, hw, hl, hon, Bool.not_true, Bool.or_false, Bool.false_eq_true, if_false]
  rfl

/-- A segment that a copy fills, once the copy of window `w` of ring `ring` has ended with the missed triggers `miss` (R211,
R218). -/
def Seg.copyEnds (g : Seg) (w : Win) (ring : Nat) (miss : BitVec 16 × List Missed) : Seg :=
  match g.copy with
  | some c =>
    { g with fin := true, cells := (if c.crec then w.capRec ring miss.1.toNat else []) ++ g.cells,
             copy := some { c with shortPre := w.shortPre, trunc := w.trunc, missed := miss.1.toNat,
                                   list := miss.2.map (fun m => if m.wait.isSome then (0x1F, (0 : Dbl)) else (m.src, m.tick)) } }
  | none => g

/-- The state after copy `k` of window `w` has ended, before its log goes on (R217, R218). -/
def State.copyEnds (s : State) (k : Copy) (w : Win) : State :=
  (s.modFb (fun f => { f with copies := f.copies.filter (fun x => x ≠ k),
                              rings := f.rings.modify k.ring (fun q => q.copied w) })).modSlot k.slot
    (fun l => { l with segs := l.segs.modify k.seg (fun g => g.copyEnds w k.ring ((s.fb.rings.get k.ring).missesOf w)) })

theorem State.copyEnds_segs (s : State) (k : Copy) (w : Win) (h : k.slot < 64) : ((s.copyEnds k w).hs.slots.get k.slot).segs =
    (s.hs.slots.get k.slot).segs.modify k.seg (fun g => g.copyEnds w k.ring ((s.fb.rings.get k.ring).missesOf w)) := by
  rw [State.copyEnds, State.slot_modSlot _ _ _ h]
  rfl

theorem State.copyEnds_ring (s : State) (k : Copy) (w : Win) (h : k.ring < 16) :
    (s.copyEnds k w).fb.rings.get k.ring = (s.fb.rings.get k.ring).copied w := Tab.get_modify_self _ _ _ h

theorem State.not_mem_copyEnds (s : State) (k : Copy) (w : Win) : k ∉ (s.copyEnds k w).fb.copies :=
  fun h => absurd rfl (of_decide_eq_true (List.mem_filter.1 h).2)

theorem Seg.copyEnds_spec (g : Seg) (w : Win) (ring : Nat) (miss : BitVec 16 × List Missed) (h : g.copy ≠ none) :
    (g.copyEnds w ring miss).fin = true ∧ (g.copyEnds w ring miss).copy.map (fun x => x.missed) = some miss.1.toNat := by
  obtain ⟨c, hc⟩ := Option.ne_none_iff_exists'.1 h
  rw [Seg.copyEnds, hc]
  exact ⟨rfl, rfl⟩

/-- Copy `k` has its whole window and has sent it (R217). -/
def State.copyDone (s : State) (k : Copy) : Bool :=
  match s.copyWin k with | some w => w.complete && decide (w.have_ ≤ k.sent) | none => false

theorem exec_copyComplete (s : State) (k : Copy) (w : Win) (hs : k.slot < 64)
    (hf : s.fb.copies.find? (fun x => x.slot = k.slot && s.copyDone x) = some k)
    (hw : s.copyWin k = some w) (hl : s.hearthUp = true) (hon : s.fireOn = true) :
    exec (.copyComplete (BitVec.ofNat 6 k.slot)) s = .next (((s.copyEnds k w).logReady k.slot).emberOffRuns) := by
  have hi : (BitVec.ofNat 6 k.slot).toNat = k.slot := by rw [BitVec.toNat_ofNat, Nat.mod_eq_of_lt hs]
  show execCopyComplete _ s = _
  simp only [execCopyComplete, hi]
  split
  · next hnone => cases hf.symm.trans hnone
  · next k' hsome =>
    obtain rfl : k = k' := Option.some.inj (hf.symm.trans hsome)
    simp only [hw, hl, hon, Bool.not_true, Bool.or_false, Bool.false_eq_true, if_false]
    rfl

/-- Settles O35: the first copy in turn is the one that the scan finds, and what it changes is its log's segment and its
ring. -/
theorem windowCopies : Obligations.WindowCopies := by
  unfold Obligations.WindowCopies
  intro s k p r w l g rg hcopies hslot hwin hring hseg hlink hfire
  refine ⟨fun hmore hdone => ?burst, fun hcomplete hsent hcopy hfirst => ?complete⟩
  case burst =>
    intro n
    have hroom : s.copyRoom k = w.d + w.postw - k.sent := by rw [State.copyRoom, hwin]; rfl
    have hp : ∀ x, x ∈ p → decide (0 < s.copyRoom x) = false := by
      intro x hx
      have hzero : s.copyRoom x = 0 := by
        rw [State.copyRoom]
        split
        · next v hv => exact Nat.sub_eq_zero_of_le (hdone x v hx hv)
        · rfl
      rw [hzero]; rfl
    have hfind : s.fb.copies.find? (fun k => decide (0 < s.copyRoom k)) = some k := by
      rw [hcopies]
      exact find?_append_cons _ p r k hp (by rw [hroom]; exact decide_eq_true (by omega))
    have hk : k ∉ p := fun hk => by have := hp k hk; rw [hroom] at this; simp at this; omega
    refine ⟨_, exec_copyBurst s k w hfind hwin hlink hfire, ?_, ?_⟩
    · rw [State.copyBurst_copies, hroom, hcopies, erase_append_cons p r k hk]
    · rw [s.copyBurst_segs k w hslot, getD_modify_self _ _ _ _ hseg, hroom]
      rfl
  case complete =>
    have hk : s.copyDone k = true := by
      simp only [State.copyDone, hwin, hcomplete, Bool.true_and]; exact decide_eq_true hsent
    have hp : ∀ x, x ∈ p → (decide (x.slot = k.slot) && s.copyDone x) = false := by
      intro x hx
      rw [Bool.and_eq_false_iff, decide_eq_false_iff_not, ← imp_iff_not_or, State.copyDone]
      intro hxs
      split
      · next v hv =>
        rw [Bool.and_eq_false_iff, decide_eq_false_iff_not, Win.have_, not_le, ← Bool.not_eq_true, ← imp_iff_not_or]
        exact hfirst x v hx hxs hv
      · rfl
    have hfind : s.fb.copies.find? (fun x => x.slot = k.slot && s.copyDone x) = some k := by
      rw [hcopies]
      exact find?_append_cons _ p r k hp (by simpa using hk)
    obtain ⟨f, hf⟩ := ((s.copyEnds k w).logReady k.slot).emberOffRuns_frame
    have hfb : (((s.copyEnds k w).logReady k.slot).emberOffRuns).fb = (s.copyEnds k w).fb := by
      rw [hf]; exact State.logReady_fb _ _
    have hslots : (((s.copyEnds k w).logReady k.slot).emberOffRuns).hs.slots = (s.copyEnds k w).hs.slots := by
      rw [hf]; exact State.logReady_slots _ _
    refine ⟨_, exec_copyComplete s k w hslot hfind hwin hlink hfire, ?_⟩
    rw [hfb, hslots, State.copyEnds_segs _ _ _ hslot, getD_modify_self _ _ _ _ hseg, State.copyEnds_ring _ _ _ hring]
    obtain ⟨hfin, hmissed⟩ := g.copyEnds_spec w k.ring (rg.missesOf w) hcopy
    refine ⟨s.not_mem_copyEnds k w, hfin, rg.copied_wins w (s.copyWin_mem k w hwin), fun hold => ?_, fun o hold => ?_⟩
    · obtain ⟨hm, hl⟩ := rg.copied_missed w hold
      refine ⟨hm, hl, hmissed.trans ?_⟩
      rw [EmRing.missesOf, hold]
    · refine hmissed.trans ?_
      rw [EmRing.missesOf, hold]

end Sys2Proof.Machine
end

section
/-! What a sample, a trigger source and a look of the discrete channels change (R194 to R206). -/

namespace Sys2Proof.Machine

/-- A channel's stream buffer has room (R195). -/
def Capture.room (c : Capture) (ch : Nat) : Prop := (c.stream.filter (fun e => e.ch = ch)).length < Config.streamDepth ch + 1

theorem Capture.streamFull_iff (c : Capture) (ch : Nat) : c.streamFull ch = false ↔ c.room ch := by
  simp [Capture.streamFull, Capture.room]

/-- The capture state once a sample has left for the ring engine (R195, R196). -/
def Capture.sent (c : Capture) (ch : Nat) (q : Bool) (cells : List (BitVec 16)) : Capture :=
  { c with stream := c.stream ++ [{ ch := ch, g := c.gap.getLsbD ch, q := q, cells := cells }], gap := setBit c.gap ch false }

/-- The capture state once a sample has been lost (R195). -/
def Capture.lose (c : Capture) (ch : Nat) : Capture := { c with lost := c.lost.modify ch satInc, gap := setBit c.gap ch true }

theorem State.stream_of_room (s : State) (ch : Nat) (q : Bool) (cells : List (BitVec 16)) (hl : s.plinkUp = true)
    (h : s.pil.cap.room ch) : s.stream ch q cells = s.modCap (fun c => c.sent ch q cells) :=
  if_neg (by simp [hl, (s.pil.cap.streamFull_iff ch).2 h])

theorem State.stream_of_full (s : State) (ch : Nat) (q : Bool) (cells : List (BitVec 16)) (h : ¬ s.pil.cap.room ch) :
    s.stream ch q cells = s.modCap (fun c => c.lose ch) :=
  if_pos (by rw [← Capture.streamFull_iff, Bool.not_eq_false] at h; simp [h])

/-- A sample either leaves or is lost. -/
theorem State.stream_cases (s : State) (ch : Nat) (q : Bool) (cells : List (BitVec 16)) :
    s.stream ch q cells = s.modCap (fun c => c.sent ch q cells) ∨ s.stream ch q cells = s.modCap (fun c => c.lose ch) := by
  rw [State.stream]
  split
  · exact Or.inr rfl
  · exact Or.inl rfl

/-! A source that fires reaches the pulses and the records of the capture state, and nothing else. -/

theorem State.fire_frame (s : State) (k : Nat) : ∃ p r n, s.fire k =
    s.modCap (fun c => { c with pulses := p, recs := r, pulseNext := n }) := by
  refine foldl_rel (fun a b : State => ∃ p r n, b = a.modCap (fun c => { c with pulses := p, recs := r, pulseNext := n }))
    (fun s => ⟨s.pil.cap.pulses, s.pil.cap.recs, s.pil.cap.pulseNext, rfl⟩) ?_ _ (fun q i => ?_) _ _
  · rintro a b c ⟨p, r, n, rfl⟩ ⟨p', r', n', rfl⟩
    exact ⟨p', r', n', rfl⟩
  · dsimp only
    split_ifs
    · exact ⟨q.pil.cap.pulses, q.pil.cap.recs, q.pil.cap.pulseNext, rfl⟩
    · exact ⟨_, _, q.pil.cap.pulseNext, rfl⟩
    · exact ⟨_, _, _, rfl⟩

/-- The comparators that judge a sample change their outputs, their event bits, and what a source that fires changes. -/
def JudgeRel (a b : State) : Prop :=
  ∃ e o t p r n, b = (a.modFb (fun f => { f with ev := e })).modCap (fun c =>
    { c with thOut := o, thCnt := t, pulses := p, recs := r, pulseNext := n })

theorem JudgeRel.refl (s : State) : JudgeRel s s := ⟨s.fb.ev, s.pil.cap.thOut, s.pil.cap.thCnt, s.pil.cap.pulses, s.pil.cap.recs,
  s.pil.cap.pulseNext, rfl⟩

theorem JudgeRel.trans (a b c : State) : JudgeRel a b → JudgeRel b c → JudgeRel a c := by
  rintro ⟨e, o, t, p, r, n, rfl⟩ ⟨e', o', t', p', r', n', rfl⟩
  exact ⟨e', o', t', p', r', n', rfl⟩

theorem State.fire_judgeRel (s : State) (k : Nat) : JudgeRel s (s.fire k) := by
  obtain ⟨p, r, n, h⟩ := s.fire_frame k
  exact ⟨s.fb.ev, s.pil.cap.thOut, s.pil.cap.thCnt, p, r, n, h⟩

/-- What threshold comparator `j` does once its sample meets its condition or not (R203). -/
def State.judgeOut (s : State) (j lim : Nat) (meets : Bool) : State :=
  if meets = s.pil.cap.thOut.getLsbD j then s.modCap (fun c => { c with thCnt := c.thCnt.set j 0 })
  else if s.pil.cap.thCnt.get j + 1 < lim then s.modCap (fun c => { c with thCnt := c.thCnt.set j (s.pil.cap.thCnt.get j + 1) })
  else if meets then
    ((s.modCap (fun c => { c with thOut := setBit c.thOut j meets, thCnt := c.thCnt.set j 0 })).putEv (0x10C4 + j) meets).fire (4 + j)
  else (s.modCap (fun c => { c with thOut := setBit c.thOut j meets, thCnt := c.thCnt.set j 0 })).putEv (0x10C4 + j) meets

theorem State.judge_cases (s : State) (ch : Nat) (x : BitVec 16) (j : Nat) :
    s.judge ch x j = s ∨ ∃ lim meets, s.judge ch x j = s.judgeOut j lim meets := by
  rw [State.judge]
  split
  · exact Or.inl rfl
  · exact Or.inr ⟨_, _, rfl⟩

theorem State.judgeOut_judgeRel (s : State) (j lim : Nat) (meets : Bool) : JudgeRel s (s.judgeOut j lim meets) := by
  rw [State.judgeOut]
  split_ifs
  · exact ⟨s.fb.ev, s.pil.cap.thOut, _, s.pil.cap.pulses, s.pil.cap.recs, s.pil.cap.pulseNext, rfl⟩
  · exact ⟨s.fb.ev, s.pil.cap.thOut, _, s.pil.cap.pulses, s.pil.cap.recs, s.pil.cap.pulseNext, rfl⟩
  · exact JudgeRel.trans _ _ _ ⟨_, _, _, s.pil.cap.pulses, s.pil.cap.recs, s.pil.cap.pulseNext, rfl⟩ (State.fire_judgeRel _ _)
  · exact ⟨_, _, _, s.pil.cap.pulses, s.pil.cap.recs, s.pil.cap.pulseNext, rfl⟩

/-- A sample is judged by every comparator (R203). -/
def State.judged (s : State) (ch : Nat) (x : BitVec 16) : State := (List.range 16).foldl (fun (r : State) j => r.judge ch x j) s

theorem State.judged_judgeRel (s : State) (ch : Nat) (x : BitVec 16) : JudgeRel s (s.judged ch x) := by
  refine foldl_rel JudgeRel JudgeRel.refl JudgeRel.trans _ (fun q j => ?_) _ _
  rcases q.judge_cases ch x j with h | ⟨lim, meets, h⟩
  · rw [h]; exact JudgeRel.refl q
  · rw [h]; exact q.judgeOut_judgeRel j lim meets

/-- A sample leaves for the ring engine with the G of its channel, or is lost, counted, and sets G (R195, R196). -/
def Capture.Sends (c d : Capture) (ch : Nat) (q : Bool) (cells : List (BitVec 16)) : Prop :=
  (c.room ch → d.stream = c.stream ++ [{ ch := ch, g := c.gap.getLsbD ch, q := q, cells := cells }] ∧ d.gap = setBit c.gap ch false) ∧
  (¬ c.room ch → d.stream = c.stream ∧ d.gap = setBit c.gap ch true ∧ d.lost = c.lost.modify ch satInc)

theorem State.stream_sends (s : State) (ch : Nat) (q : Bool) (cells : List (BitVec 16)) (hl : s.plinkUp = true) :
    s.pil.cap.Sends (s.stream ch q cells).pil.cap ch q cells := by
  refine ⟨fun h => ?_, fun h => ?_⟩
  · rw [s.stream_of_room ch q cells hl h]; exact ⟨rfl, rfl⟩
  · rw [s.stream_of_full ch q cells h]; exact ⟨rfl, rfl, rfl⟩

/-- A sample that the comparators judge first is sent or lost as it was before. -/
theorem State.sampled_sends (s : State) (ch : Nat) (q : Bool) (x : BitVec 16) (hl : s.plinkUp = true) :
    s.pil.cap.Sends (s.sampled ch q x).pil.cap ch q [x] ∧ (s.sampled ch q x).pil.cap.adcq = s.pil.cap.adcq ∧
      (s.sampled ch q x).pil.cap.spiRun = s.pil.cap.spiRun := by
  obtain ⟨e, o, t, p, r, n, h⟩ := s.judged_judgeRel ch x
  have hs : s.sampled ch q x = (s.judged ch x).stream ch q [x] := rfl
  have hsend := (s.judged ch x).stream_sends ch q [x] (by rw [h]; exact hl)
  rw [hs]
  refine ⟨by rw [h] at hsend ⊢; exact hsend, ?_, ?_⟩
  · rcases (s.judged ch x).stream_cases ch q [x] with h' | h' <;> rw [h', h] <;> rfl
  · rcases (s.judged ch x).stream_cases ch q [x] with h' | h' <;> rw [h', h] <;> rfl

/-! ## The discrete channels -/

/-- The state without what the discrete channels write: their last levels and times, the streamed samples, the gaps and losses. -/
def State.discRest (s : State) : State :=
  s.modCap (fun c => { c with discLast := Tab.fill 14 0, discPend := 0, discAt := Tab.fill 14 none, stream := [], gap := 0,
                              lost := Tab.fill 48 0 })

/-- The samples of one channel that are under way. -/
def Capture.mine (c : Capture) (ch : Nat) : List StreamEntry := c.stream.filter (fun e => e.ch = ch)

/-- What is discrete channel `34 + k`'s own: its samples under way, last levels, pending change, last entry's time and gap. -/
def Capture.discOwn (c : Capture) (k : Nat) : List StreamEntry × BitVec 12 × Bool × Option Nat × Bool :=
  (c.mine (34 + k), c.discLast.get k, c.discPend.getLsbD k, c.discAt.get k, c.gap.getLsbD (34 + k))

/-- The capture state once discrete channel `34 + k` has seen the levels `lev` (R194). -/
def Capture.saw (c : Capture) (k clk : Nat) (lev : BitVec 12) (pend now : Bool) : Capture :=
  { c with discLast := c.discLast.set k lev, discPend := setBit c.discPend k (pend && !now),
           discAt := if now then c.discAt.set k (some clk) else c.discAt }

/-- Discrete channel `34 + k` has a change to write (R194). -/
def State.discDue (s : State) (k : Nat) : Bool := s.pil.cap.discPend.getLsbD k || s.discMoved (34 + k)

theorem State.discMoved_eq (s : State) (k : Nat) : s.discMoved (34 + k) =
    (((s.discLevels ^^^ s.pil.cap.discLast.get k) &&& (s.pil.cap.objCell (.channel (34 + k)) 1).setWidth 12) != 0) := by
  rw [State.discMoved, Nat.add_sub_cancel_left]

theorem State.discFree_eq (s : State) (k : Nat) : s.discFree (34 + k) =
    (s.pil.cap.discAt.get k).all (fun t => decide (t + 100 ≤ s.pil.ph.clk)) := by
  unfold State.discFree
  rw [Nat.add_sub_cancel_left]
  cases s.pil.cap.discAt.get k <;> rfl

theorem State.discSee_eq (s : State) (k : Nat) :
    s.discSee (34 + k) =
      (let s1 := s.modCap (fun c => c.saw k s.pil.ph.clk s.discLevels (s.discDue k) (s.discDue k && s.discFree (34 + k)))
       if s.discDue k && s.discFree (34 + k) then s1.discEntry (34 + k) else s1) := by
  rw [State.discSee, Nat.add_sub_cancel_left]
  rfl

theorem State.discEntry_rest (s : State) (ch : Nat) : (s.discEntry ch).discRest = s.discRest := by
  rcases s.stream_cases ch false [s.discLevels.setWidth 16] with h | h <;> rw [State.discEntry, h] <;> rfl

theorem State.discSee_rest (s : State) (k : Nat) : (s.discSee (34 + k)).discRest = s.discRest := by
  rw [State.discSee_eq]
  dsimp only
  split
  · rw [State.discEntry_rest]; rfl
  · rfl

theorem Capture.mine_sent_ne (c : Capture) (ch ch' : Nat) (q : Bool) (cells : List (BitVec 16)) (h : ch' ≠ ch) :
    (c.sent ch q cells).mine ch' = c.mine ch' := by
  simp [Capture.sent, Capture.mine, List.filter_append, Ne.symm h]

theorem State.discEntry_own (s : State) (j k : Nat) (hj : j < 14) (h : j ≠ k) :
    (s.discEntry (34 + k)).pil.cap.discOwn j = s.pil.cap.discOwn j := by
  have hgap : ∀ b, (setBit s.pil.cap.gap (34 + k) b).getLsbD (34 + j) = s.pil.cap.gap.getLsbD (34 + j) := fun b => by
    rw [getLsbD_setBit_of_lt _ _ _ _ (by omega), if_neg (by omega)]
  rcases s.stream_cases (34 + k) false [s.discLevels.setWidth 16] with he | he
  · rw [State.discEntry, he]
    simp only [State.modCap_pil, Capture.discOwn, Capture.mine_sent_ne _ _ _ _ _ (show 34 + j ≠ 34 + k by omega)]
    simp only [Capture.sent, hgap]
  · rw [State.discEntry, he]
    simp only [State.modCap_pil, Capture.discOwn, Capture.lose, Capture.mine, hgap]

theorem Capture.saw_own (c : Capture) (j k clk : Nat) (lev : BitVec 12) (pend now : Bool) (hj : j < 14) (h : j ≠ k) :
    (c.saw k clk lev pend now).discOwn j = c.discOwn j := by
  have hat : (if now then c.discAt.set k (some clk) else c.discAt).get j = c.discAt.get j := by
    split
    · exact Tab.get_set_ne _ _ _ _ h.symm
    · rfl
  simp only [Capture.discOwn, Capture.saw, Capture.mine, hat, Tab.get_set_ne _ _ _ _ h.symm]
  rw [getLsbD_setBit_of_lt _ _ _ _ hj, if_neg h]

theorem State.discSee_own_ne (s : State) (j k : Nat) (hj : j < 14) (h : j ≠ k) :
    (s.discSee (34 + k)).pil.cap.discOwn j = s.pil.cap.discOwn j := by
  rw [State.discSee_eq]
  dsimp only
  split
  · rw [State.discEntry_own _ _ _ hj h]; exact Capture.saw_own _ _ _ _ _ _ _ hj h
  · exact Capture.saw_own _ _ _ _ _ _ _ hj h

/-- What a discrete channel in CHANGE mode makes of the levels (R194): they are its last levels; a change waits until its last
entry is 1 us old, and then is written. -/
structure DiscSeen (s : State) (d : Capture) (k : Nat) : Prop where
  last : d.discLast.get k = s.discLevels
  pend : d.discPend.getLsbD k = (s.discDue k && !(s.discDue k && s.discFree (34 + k)))
  at_ : (s.discDue k && s.discFree (34 + k)) = true → d.discAt.get k = some s.pil.ph.clk
  quiet : (s.discDue k && s.discFree (34 + k)) = false → d.mine (34 + k) = s.pil.cap.mine (34 + k)
  entry : (s.discDue k && s.discFree (34 + k)) = true → s.plinkUp = true → s.pil.cap.room (34 + k) →
    d.mine (34 + k) = s.pil.cap.mine (34 + k) ++
      [{ ch := 34 + k, g := s.pil.cap.gap.getLsbD (34 + k), q := false, cells := [s.discLevels.setWidth 16] }]

theorem Capture.mine_sent_self (c : Capture) (ch : Nat) (q : Bool) (cells : List (BitVec 16)) :
    (c.sent ch q cells).mine ch = c.mine ch ++ [{ ch := ch, g := c.gap.getLsbD ch, q := q, cells := cells }] := by
  simp [Capture.sent, Capture.mine, List.filter_append]

theorem State.discEntry_seen (s : State) (ch : Nat) :
    (s.discEntry ch).pil.cap.discLast = s.pil.cap.discLast ∧ (s.discEntry ch).pil.cap.discPend = s.pil.cap.discPend ∧
      (s.discEntry ch).pil.cap.discAt = s.pil.cap.discAt := by
  rcases s.stream_cases ch false [s.discLevels.setWidth 16] with he | he
  · rw [State.discEntry, he]; exact ⟨rfl, rfl, rfl⟩
  · rw [State.discEntry, he]; exact ⟨rfl, rfl, rfl⟩

theorem State.discSee_seen (s : State) (k : Nat) (hk : k < 14) : DiscSeen s (s.discSee (34 + k)).pil.cap k := by
  rw [State.discSee_eq]
  generalize hnow : (s.discDue k && s.discFree (34 + k)) = now
  have hlast : (s.pil.cap.saw k s.pil.ph.clk s.discLevels (s.discDue k) now).discLast.get k = s.discLevels := Tab.get_set_self _ _ _ hk
  have hpend : (s.pil.cap.saw k s.pil.ph.clk s.discLevels (s.discDue k) now).discPend.getLsbD k = (s.discDue k && !now) :=
    getLsbD_setBit_self _ _ _ hk
  cases now with
  | false => 
    have hno : ¬ (s.discDue k && s.discFree (34 + k)) = true := by rw [hnow]; exact Bool.false_ne_true
    exact ⟨hlast, by rw [hnow]; exact hpend, fun h => absurd h hno, fun _ => rfl, fun h => absurd h hno⟩
  | true =>
    have hat : (s.pil.cap.saw k s.pil.ph.clk s.discLevels (s.discDue k) true).discAt.get k = some s.pil.ph.clk :=
      Tab.get_set_self _ _ _ hk
    let s1 := s.modCap (fun c => c.saw k s.pil.ph.clk s.discLevels (s.discDue k) true)
    obtain ⟨h1, h2, h3⟩ := s1.discEntry_seen (34 + k)
    refine ⟨?_, ?_, fun _ => ?_, fun h => (by rw [hnow] at h; cases h), fun _ hl hr => ?_⟩
    · exact (congrArg (fun v : Tab (BitVec 12) 14 => v.get k) h1).trans hlast
    · rw [hnow]; exact (congrArg (fun v : BitVec 14 => v.getLsbD k) h2).trans hpend
    · exact (congrArg (fun v : Tab (Option Nat) 14 => v.get k) h3).trans hat
    · have he : s1.discEntry (34 + k) = _ := s1.stream_of_room (34 + k) false [s1.discLevels.setWidth 16] hl hr
      simp only [if_true]
      rw [he]
      exact Capture.mine_sent_self _ _ _ _

/-- A fold over different numbers changes what is `k`'s own only at `k`. -/
theorem foldl_own {σ β : Type} (own : σ → β) (f : σ → Nat → σ) (l : List Nat) (h : ∀ q j, j ∈ l → own (f q j) = own q) (s : σ) :
    own (l.foldl f s) = own s := by
  induction l generalizing s with
  | nil => rfl
  | cons j l ih =>
    exact (ih (fun q i hi => h q i (List.mem_cons_of_mem j hi)) (f s j)).trans (h s j List.mem_cons_self)

theorem foldl_range_own {σ β : Type} (own : σ → β) (f : σ → Nat → σ) (n k : Nat) (hk : k < n)
    (h : ∀ q j, j < n → j ≠ k → own (f q j) = own q) (s : σ) :
    ∃ q, own q = own s ∧ own ((List.range n).foldl f s) = own (f q k) := by
  obtain ⟨l, r, hlr⟩ := List.append_of_mem (List.mem_range.2 hk)
  have hnd : (l ++ k :: r).Nodup := hlr ▸ List.nodup_range
  have hlt : ∀ j, j ∈ l ++ k :: r → j < n := fun j hj => List.mem_range.1 (hlr ▸ hj)
  obtain ⟨-, hkr, hl⟩ := List.nodup_append.1 hnd
  refine ⟨l.foldl f s, foldl_own own f l (fun q j hj => ?_) s, ?_⟩
  · exact h q j (hlt j (List.mem_append_left _ hj)) (hl j hj k List.mem_cons_self)
  · rw [hlr, List.foldl_append, List.foldl_cons]
    refine foldl_own own f r (fun q j hj => ?_) _
    exact h q j (hlt j (List.mem_append_right _ (List.mem_cons_of_mem k hj)))
      (fun e => (List.nodup_cons.1 hkr).1 (e ▸ hj))

/-- What every discrete channel may look at but its own state, and its own state. -/
def State.discView (k : Nat) (s : State) :
    State × List StreamEntry × BitVec 12 × Bool × Option Nat × Bool := (s.discRest, s.pil.cap.discOwn k)

/-- What a channel makes of the levels depends on its view alone. -/
theorem DiscSeen.of_view {q s : State} {c d : Capture} {k : Nat} (hv : q.discView k = s.discView k) (hd : c.discOwn k = d.discOwn k)
    (h : DiscSeen q c k) : DiscSeen s d k := by
  obtain ⟨hrest, hown⟩ := Prod.mk.inj hv
  obtain ⟨hmine, hlast, hpend, hat, hgap⟩ : q.pil.cap.mine (34 + k) = s.pil.cap.mine (34 + k) ∧
      q.pil.cap.discLast.get k = s.pil.cap.discLast.get k ∧ q.pil.cap.discPend.getLsbD k = s.pil.cap.discPend.getLsbD k ∧
      q.pil.cap.discAt.get k = s.pil.cap.discAt.get k ∧ q.pil.cap.gap.getLsbD (34 + k) = s.pil.cap.gap.getLsbD (34 + k) := by
    simpa [Capture.discOwn] using hown
  obtain ⟨dmine, dlast, dpend, dat, -⟩ : c.mine (34 + k) = d.mine (34 + k) ∧ c.discLast.get k = d.discLast.get k ∧
      c.discPend.getLsbD k = d.discPend.getLsbD k ∧ c.discAt.get k = d.discAt.get k ∧
      c.gap.getLsbD (34 + k) = d.gap.getLsbD (34 + k) := by
    simpa [Capture.discOwn] using hd
  have hlev : q.discRest.discLevels = s.discRest.discLevels := congrArg State.discLevels hrest
  have hclk : q.discRest.pil.ph.clk = s.discRest.pil.ph.clk := congrArg (fun x : State => x.pil.ph.clk) hrest
  have hobj : q.discRest.pil.cap.objCell (.channel (34 + k)) 1 = s.discRest.pil.cap.objCell (.channel (34 + k)) 1 :=
    congrArg (fun x : State => x.pil.cap.objCell (.channel (34 + k)) 1) hrest
  have hlink : q.discRest.plinkUp = s.discRest.plinkUp := congrArg State.plinkUp hrest
  change q.discLevels = s.discLevels at hlev
  change q.pil.ph.clk = s.pil.ph.clk at hclk
  change q.pil.cap.objCell (.channel (34 + k)) 1 = s.pil.cap.objCell (.channel (34 + k)) 1 at hobj
  change q.plinkUp = s.plinkUp at hlink
  have hdue : q.discDue k = s.discDue k := by
    rw [State.discDue, State.discDue, State.discMoved_eq, State.discMoved_eq, hpend, hlev, hlast, hobj]
  have hfree : q.discFree (34 + k) = s.discFree (34 + k) := by
    rw [State.discFree_eq, State.discFree_eq, hat, hclk]
  have hroom : q.pil.cap.room (34 + k) ↔ s.pil.cap.room (34 + k) := by
    rw [Capture.room, Capture.room]
    exact iff_of_eq (congrArg (fun l : List StreamEntry => l.length < Config.streamDepth (34 + k) + 1) hmine)
  obtain ⟨h1, h2, h3, h4, h5⟩ := h
  rw [hdue, hfree] at h2 h3 h4 h5
  exact ⟨dlast ▸ hlev ▸ h1, dpend ▸ h2, fun e => dat ▸ hclk ▸ h3 e, fun e => dmine ▸ hmine ▸ h4 e,
    fun e el er => dmine ▸ hmine ▸ hgap ▸ hlev ▸ h5 e (hlink.trans el) (hroom.2 er)⟩

/-- Discrete channel `34 + k` in CHANGE mode has seen the levels after a look of all of them. -/
theorem State.discWatch_seen (s : State) (k : Nat) (hk : k < 14) :
    (s.pil.cap.changes (34 + k) = true → DiscSeen s s.discWatch.pil.cap k) ∧
    (s.pil.cap.changes (34 + k) = false → s.discWatch.pil.cap.discOwn k = s.pil.cap.discOwn k) := by
  have hne : ∀ (q : State) j, j < 14 → j ≠ k →
      State.discView k (if q.pil.cap.changes (34 + j) then q.discSee (34 + j) else q) = q.discView k := by
    intro q j hj hjk
    split
    · exact Prod.ext (q.discSee_rest j) (q.discSee_own_ne k j hk hjk.symm)
    · rfl
  obtain ⟨q, hq, hw⟩ := foldl_range_own (State.discView k)
    (fun (q : State) j => if q.pil.cap.changes (34 + j) then q.discSee (34 + j) else q) 14 k hk hne s
  obtain ⟨hrest, hown⟩ := Prod.mk.inj hq
  have hch : q.discRest.pil.cap.changes (34 + k) = s.discRest.pil.cap.changes (34 + k) :=
    congrArg (fun x : State => x.pil.cap.changes (34 + k)) hrest
  change q.pil.cap.changes (34 + k) = s.pil.cap.changes (34 + k) at hch
  have hwown : s.discWatch.pil.cap.discOwn k = _ := (Prod.mk.inj hw).2
  refine ⟨fun hon => ?_, fun hoff => ?_⟩
  · rw [hch, hon, if_pos rfl] at hwown
    exact (q.discSee_seen k hk).of_view hq hwown.symm
  · rw [hch, hoff, if_neg Bool.false_ne_true] at hwown
    exact hwown.trans hown

end Sys2Proof.Machine
end

section
/-! O32: samples, frames and pin changes. -/

namespace Sys2Proof.Machine

theorem queueIn_perm (x : Nat × Nat) : ∀ l : List (Nat × Nat), (queueIn x l).Perm (x :: l) := by
  intro l
  induction l with
  | nil => exact List.Perm.refl _
  | cons y r ih =>
    rw [queueIn]
    split
    · exact List.Perm.refl _
    · exact (ih.cons y).trans (List.Perm.swap x y r)

/-! ## Channel instants -/

theorem exec_channelSample_adc (s : State) (ch : BitVec 6) (hp : s.plclk = true) (hen : s.pil.cap.chanEn ch.toNat = true)
    (h : ch.toNat < 8) :
    exec (.channelSample ch) s = .next (s.modCap (fun c => { c with adcq := queueIn (ch.toNat + 1, s.pil.ph.clk) c.adcq })) := by
  show execChannelSample ch s = _
  rw [execChannelSample]
  dsimp only
  rw [if_neg (by simp [hp, hen]; omega), if_pos h]

/-- The state when the instant of an SPI slot comes and its last instant is still due, which is lost then (R192). -/
def State.spiMissed (s : State) (n : Nat) : State :=
  if (s.pil.cap.spiDue.get ((n - 8) / 6)).any (fun x => x.1 = (n - 8) % 6) then s.loseSample n else s

theorem exec_channelSample_spi (s : State) (ch : BitVec 6) (hp : s.plclk = true) (hen : s.pil.cap.chanEn ch.toNat = true)
    (hv : s.pw.vddioB = true) (h8 : 8 ≤ ch.toNat) (h : ch.toNat < 32) :
    exec (.channelSample ch) s = .next ((s.spiMissed ch.toNat).modCap (fun c =>
      { c with spiDue := c.spiDue.modify ((ch.toNat - 8) / 6) (fun l =>
          queueIn ((ch.toNat - 8) % 6, s.pil.ph.clk) (l.filter (fun x => x.1 ≠ (ch.toNat - 8) % 6))) })) := by
  show execChannelSample ch s = _
  rw [execChannelSample]
  dsimp only
  rw [if_neg (by simp [hp, hen]; omega), if_neg (by omega), if_pos h, if_neg (by simp [hv])]
  rfl

theorem exec_channelSample_disc (s : State) (ch : BitVec 6) (hp : s.plclk = true) (hen : s.pil.cap.chanEn ch.toNat = true)
    (h34 : 34 ≤ ch.toNat) (h : ch.toNat < 48) (hper : (s.pil.cap.objCell (.channel ch.toNat) 0).getLsbD 2 = false) :
    exec (.channelSample ch) s = .next (s.discEntry ch.toNat) := by
  show execChannelSample ch s = _
  rw [execChannelSample]
  dsimp only
  rw [if_neg (by simp [hp, hen]; omega), if_neg (by omega), if_neg (by omega), if_neg (by omega), if_neg (by rw [hper]; exact Bool.false_ne_true)]

theorem State.spiMissed_frame (s : State) (n : Nat) (hn : n < 48) :
    (s.spiMissed n).pil.cap.spiDue = s.pil.cap.spiDue ∧
    (s.spiMissed n).pil.cap.lost.get n =
      if (s.pil.cap.spiDue.get ((n - 8) / 6)).any (fun x => x.1 = (n - 8) % 6) then satInc (s.pil.cap.lost.get n)
      else s.pil.cap.lost.get n := by
  rw [State.spiMissed]
  split
  · exact ⟨rfl, Tab.get_modify_self _ _ _ hn⟩
  · exact ⟨rfl, rfl⟩

/-! ## Conversions, transactions and frames -/

theorem exec_adcConversionDone (s : State) (code : BitVec 16) (n t : Nat) (r : List (Nat × Nat)) (h : s.pil.cap.adcq = (n + 1, t) :: r)
    (hp : s.plclk = true) : exec (.adcConversionDone code) s =
      .next ((s.modCap (fun c => { c with adcq := r })).sampled n (code = 0 || code = 0xFFFF) code) := by
  show execAdcConversionDone code s = _
  simp only [execAdcConversionDone, h, hp, Bool.not_true, Bool.false_eq_true, if_false]

theorem exec_spiTransaction (s : State) (m : BitVec 2) (x : Nat × Nat) (r : List (Nat × Nat)) (hr : s.pil.cap.spiRun.get m.toNat = none)
    (hd : s.pil.cap.spiDue.get m.toNat = x :: r) (hp : s.plclk = true) : exec (.spiTransaction m) s =
      .next (s.modCap (fun c =>
        { c with spiRun := c.spiRun.set m.toNat (some x.1), spiDue := c.spiDue.set m.toNat r,
                 spiTx := c.spiTx.set m.toNat (c.spiBytes (6 * m.toNat + x.1)),
                 sclkIdle := setBit c.sclkIdle m.toNat ((c.objCell (.spi (6 * m.toNat + x.1)) 0).getLsbD 4) })) := by
  show execSpiTransaction m s = _
  simp only [execSpiTransaction, hr, hd, hp, Bool.not_true, Bool.false_eq_true, if_false]

/-- The Q of a slot's sample: the status bits under the mask are not the expected ones (R192). -/
def Capture.spiQ (c : Capture) (slot : Nat) (rx : BitVec 48) : Bool :=
  spiStatus rx (c.objField (.spi slot) 0 12 3) (c.objField (.spi slot) 0 18 6) &&&
    ((c.objCell (.spi slot) 4).setWidth 8 ++ c.objCell (.spi slot) 3) !=
  ((c.objCell (.spi slot) 6).setWidth 8 ++ c.objCell (.spi slot) 5)

theorem exec_spiTransactionDone (s : State) (m : BitVec 2) (rx : BitVec 48) (k : Nat) (hr : s.pil.cap.spiRun.get m.toNat = some k)
    (hp : s.plclk = true) (hen : s.pil.cap.chanEn (8 + (6 * m.toNat + k)) = true) (ht : s.pil.tap.scanning = false) :
    exec (.spiTransactionDone m rx) s = .next ((s.modCap (fun c => { c with spiRun := c.spiRun.set m.toNat none })).sampled
      (8 + (6 * m.toNat + k)) (s.pil.cap.spiQ (6 * m.toNat + k) rx)
      (BitVec.ofNat 16 (rx.toNat / 2 ^ (32 - s.pil.cap.objField (.spi (6 * m.toNat + k)) 0 18 6)))) := by
  show execSpiTransactionDone m rx s = _
  simp only [execSpiTransactionDone, hr, hp, hen, ht, Bool.not_true, Bool.false_eq_true, if_false]
  rfl

/-- The state once the CAN filters have judged a frame of input `n` (R204). -/
def State.canFired (s : State) (n : Nat) (f : CanFrame) : State :=
  (List.range 8).foldl (fun (q : State) j => if q.pil.cap.canHit n f j then q.fire (20 + j) else q) s

theorem State.canFired_judgeRel (s : State) (n : Nat) (f : CanFrame) : JudgeRel s (s.canFired n f) := by
  refine foldl_rel JudgeRel JudgeRel.refl JudgeRel.trans _ (fun q j => ?_) _ _
  split
  · exact q.fire_judgeRel _
  · exact JudgeRel.refl q

theorem exec_canFrame_stored (s : State) (i : BitVec 1) (f : CanFrame) (hp : s.plclk = true) (hv : s.pw.vddioA = true)
    (hen : s.pil.cap.chanEn (32 + i.toNat) = true) (hst : s.pil.cap.canStored i.toNat f = true) :
    exec (.canFrame i f true) s = .next ((s.canFired i.toNat f).stream (32 + i.toNat) f.esi (canCells f)) := by
  show execCanFrame i f true s = _
  simp only [execCanFrame, hp, hv, hen, hst, Bool.not_true, Bool.or_false, Bool.and_self, Bool.false_eq_true, if_false, if_true]
  rfl

/-! ## The TRIG pins -/

/-- A pulse or record of ring `i` for a source that fires at `clk`, of source `k` or a lower one, stands. -/
def Capture.fired (c : Capture) (i clk k : Nat) : Prop := ∃ x, x ∈ c.pulses ++ c.recs ∧ x.ring = i ∧ x.at_ = clk ∧ x.src ≤ k

/-- A pulse of ring `i` in cycle `clk`. -/
def Pulse.here (x : Pulse) (i clk : Nat) : Bool := x.ring = i && x.at_ = clk
/-- A pulse of ring `i` in cycle `clk` once source `k` has fired with it (R206). -/
def Pulse.low (x : Pulse) (i clk k : Nat) : Pulse := if x.here i clk then { x with src := min x.src k } else x

/-- What source `k` does to ring `i` (R206). -/
def State.fireAt (s : State) (p : Phase) (k i : Nat) : State :=
  if !(s.fb.rings.get i).trigsel.getLsbD k then s
  else if s.pil.cap.recs.any (fun x => x.here i p.clk) || s.pil.cap.pulses.any (fun x => x.here i p.clk) then
    s.modCap (fun c => { c with recs := c.recs.map (fun x => x.low i p.clk k), pulses := c.pulses.map (fun x => x.low i p.clk k) })
  else
    s.modCap (fun c =>
      let x : Pulse := { id := c.pulseNext, at_ := p.clk, ring := i, src := k, tick := p.tick, course := p.course, crank := p.crank }
      { c with pulses := c.pulses ++ [x], recs := c.recs ++ [x], pulseNext := c.pulseNext + 1 })

theorem State.fire_eq (s : State) (k : Nat) : s.fire k = (List.range 16).foldl (fun q i => q.fireAt s.pil.ph k i) s := rfl

theorem State.fireAt_fb (s : State) (p : Phase) (k i : Nat) : (s.fireAt p k i).fb = s.fb := by
  rw [State.fireAt]
  split_ifs <;> rfl

theorem Pulse.low_ring (x : Pulse) (i clk k : Nat) : (x.low i clk k).ring = x.ring := by rw [Pulse.low]; split <;> rfl
theorem Pulse.low_at (x : Pulse) (i clk k : Nat) : (x.low i clk k).at_ = x.at_ := by rw [Pulse.low]; split <;> rfl

theorem Pulse.low_src (x : Pulse) (i clk k : Nat) (h : x.here i clk = true ∨ x.src ≤ k) : (x.low i clk k).src ≤ k := by
  rw [Pulse.low]
  split
  · exact Nat.min_le_right _ _
  · next hn => exact h.resolve_left hn

/-- A pulse that stands is lowered with the others, and stands. -/
theorem fired_of_low (c : Capture) (j i clk k : Nat) (x : Pulse) (hx : x ∈ c.pulses ++ c.recs) (hr : x.ring = i) (ha : x.at_ = clk)
    (hs : x.here j clk = true ∨ x.src ≤ k) :
    Capture.fired { c with recs := c.recs.map (fun x => x.low j clk k), pulses := c.pulses.map (fun x => x.low j clk k) } i clk k := by
  refine ⟨x.low j clk k, ?_, (x.low_ring j clk k).trans hr, (x.low_at j clk k).trans ha, x.low_src j clk k hs⟩
  rw [← List.map_append]
  exact List.mem_map_of_mem hx

/-- A source fires for the ring that selects it. -/
theorem State.fireAt_fired (s : State) (p : Phase) (k i : Nat) (h : (s.fb.rings.get i).trigsel.getLsbD k = true) :
    (s.fireAt p k i).pil.cap.fired i p.clk k := by
  rw [State.fireAt, if_neg (by simp only [h]; decide)]
  split
  · next hc =>
    have hx : ∃ x, x ∈ s.pil.cap.pulses ++ s.pil.cap.recs ∧ x.here i p.clk = true := by
      rw [Bool.or_eq_true, List.any_eq_true, List.any_eq_true] at hc
      rcases hc with ⟨x, hx, hh⟩ | ⟨x, hx, hh⟩
      · exact ⟨x, List.mem_append_right _ hx, hh⟩
      · exact ⟨x, List.mem_append_left _ hx, hh⟩
    obtain ⟨x, hx, hh⟩ := hx
    have hring : x.ring = i ∧ x.at_ = p.clk := by simpa [Pulse.here] using hh
    exact fired_of_low s.pil.cap i i p.clk k x hx hring.1 hring.2 (Or.inl hh)
  · exact ⟨_, List.mem_append_left _ (List.mem_append_right _ List.mem_cons_self), rfl, rfl, Nat.le_refl k⟩

/-- A pulse that stands for one ring stands after the source has reached another. -/
theorem State.fireAt_keeps (s : State) (p : Phase) (k i j : Nat) (h : s.pil.cap.fired i p.clk k) :
    (s.fireAt p k j).pil.cap.fired i p.clk k := by
  obtain ⟨x, hx, hr, ha, hs⟩ := h
  rw [State.fireAt]
  split_ifs
  · exact ⟨x, hx, hr, ha, hs⟩
  · exact fired_of_low s.pil.cap j i p.clk k x hx hr ha (Or.inr hs)
  · refine ⟨x, ?_, hr, ha, hs⟩
    rcases List.mem_append.1 hx with hx | hx
    · exact List.mem_append_left _ (List.mem_append_left _ hx)
    · exact List.mem_append_right _ (List.mem_append_left _ hx)

theorem State.fire_fired (s : State) (k i : Nat) (hi : i < 16) (h : (s.fb.rings.get i).trigsel.getLsbD k = true) :
    (s.fire k).pil.cap.fired i s.pil.ph.clk k := by
  obtain ⟨l, r, hlr⟩ := List.append_of_mem (List.mem_range.2 hi)
  have hfb : (l.foldl (fun q i => q.fireAt s.pil.ph k i) s).fb = s.fb :=
    foldl_own State.fb _ l (fun q j _ => q.fireAt_fb _ _ _) s
  rw [State.fire_eq, hlr, List.foldl_append, List.foldl_cons]
  refine foldl_rel (fun a b : State => a.pil.cap.fired i s.pil.ph.clk k → b.pil.cap.fired i s.pil.ph.clk k) (fun _ h => h)
    (fun _ _ _ h1 h2 h => h2 (h1 h)) _ (fun q j h => q.fireAt_keeps s.pil.ph k i j h) r _ ?_
  exact State.fireAt_fired _ _ _ _ (by rw [hfb]; exact h)

theorem State.discWatch_rest (s : State) : s.discWatch.discRest = s.discRest := by
  refine foldl_own State.discRest _ _ (fun q k _ => ?_) s
  split
  · exact q.discSee_rest k
  · rfl

/-- What a look of the discrete channels leaves alone. -/
theorem State.discWatch_keeps (s : State) : s.discWatch.pil.cap.gpioIn = s.pil.cap.gpioIn ∧ s.discWatch.pil.cap.trigPin = s.pil.cap.trigPin ∧
    s.discWatch.pil.cap.trigAt = s.pil.cap.trigAt ∧ s.discWatch.pil.cap.trigLev = s.pil.cap.trigLev ∧
    s.discWatch.pil.cap.pulses = s.pil.cap.pulses ∧ s.discWatch.pil.cap.recs = s.pil.cap.recs ∧ s.discWatch.fb = s.fb := by
  have h := s.discWatch_rest
  have hcap (α : Type) (g : Capture → α) := congrArg (fun x : State => g x.pil.cap) h
  exact ⟨hcap _ (·.gpioIn), hcap _ (·.trigPin), hcap _ (·.trigAt), hcap _ (·.trigLev), hcap _ (·.pulses), hcap _ (·.recs),
    (congrArg State.fb h : s.discWatch.discRest.fb = s.discRest.fb)⟩

/-- The state once a TRIG pin has shown a level (R202). -/
def State.trigShown (s : State) (n : Nat) (level : Bool) : State := s.modCap (fun c => c.trigSample n level s.pil.ph.clk)

theorem exec_trigEdge (s : State) (p : BitVec 2) (level : Bool) (hp : s.plclk = true) (hv : s.pw.vddioA = true) :
    exec (.trigEdge p level) s = .next ((s.trigShown p.toNat level).trigFilter p.toNat).discWatch := by
  have hlife : s.pw.life ≠ .standby := fun h => by simp [State.plclk, h] at hp
  show execTrigEdge p level s = _
  rw [execTrigEdge, if_neg (by simp [hv, hlife])]
  exact congrArg Host.Outcome.next (if_pos hp)

theorem Capture.trigSample_spec (c : Capture) (n : Nat) (level : Bool) (clk : Nat) (h : n < 4) :
    (c.trigSample n level clk).trigPin.getLsbD n = level ∧
    (c.trigSample n level clk).trigAt.get n = (if c.trigPin.getLsbD n = level then c.trigAt.get n else clk) ∧
    (c.trigSample n level clk).trigLev = c.trigLev ∧ (c.trigSample n level clk).pulses = c.pulses ∧
    (c.trigSample n level clk).recs = c.recs ∧ (c.trigSample n level clk).objs = c.objs := by
  rw [Capture.trigSample]
  split
  · next he => exact ⟨he, rfl, rfl, rfl, rfl, rfl⟩
  · exact ⟨getLsbD_setBit_self _ _ _ h, Tab.get_set_self _ _ _ h, rfl, rfl, rfl, rfl⟩

/-- The filtered level of a TRIG input has changed, before its source fires (R202, R213). -/
def State.trigTurned (s : State) (n : Nat) (level : Bool) : State :=
  (s.modCap (fun c => { c with trigLev := setBit c.trigLev n level })).putEv (0x10C0 + n) level

theorem State.trigTurned_frame (s : State) (n : Nat) (level : Bool) (k : Nat) :
    ((s.trigTurned n level).fire k).pil.cap.trigPin = s.pil.cap.trigPin ∧
    ((s.trigTurned n level).fire k).pil.cap.trigAt = s.pil.cap.trigAt ∧
    ((s.trigTurned n level).fire k).pil.cap.trigLev = setBit s.pil.cap.trigLev n level ∧
    ((s.trigTurned n level).fire k).fb = (s.trigTurned n level).fb := by
  obtain ⟨p, r, m, h⟩ := (s.trigTurned n level).fire_frame k
  rw [h]
  exact ⟨rfl, rfl, rfl, rfl⟩

theorem State.evBit_trigTurned (s : State) (n : Nat) (level : Bool) (h : n < 4) : (s.trigTurned n level).evBit (0x10C0 + n) = level := by
  have ha : evAssigned (0x10C0 + n) = true := by simp [evAssigned]; omega
  rw [State.evBit]
  exact (getLsbD_setBit_self _ _ _ (by omega)).trans (by rw [ha, Bool.and_true])

theorem State.trigFilter_of_stable (s : State) (n : Nat)
    (h : s.pil.cap.trigLev.getLsbD n = s.pil.cap.trigPin.getLsbD n ∨
      s.pil.ph.clk < s.pil.cap.trigAt.get n + s.pil.cap.objField (.trig n) 0 3 7) : s.trigFilter n = s := by
  rw [State.trigFilter]
  exact if_pos (by simpa using h)

theorem State.trigFilter_of_passes (s : State) (n : Nat) (h : s.pil.cap.trigLev.getLsbD n ≠ s.pil.cap.trigPin.getLsbD n)
    (ht : s.pil.cap.trigAt.get n + s.pil.cap.objField (.trig n) 0 3 7 ≤ s.pil.ph.clk) :
    s.trigFilter n =
      if s.pil.cap.objField (.trig n) 0 0 1 = 1 && isTooth (s.pil.cap.objField (.trig n) 0 1 2) (s.pil.cap.trigPin.getLsbD n) then
        (s.trigTurned n (s.pil.cap.trigPin.getLsbD n)).fire n
      else s.trigTurned n (s.pil.cap.trigPin.getLsbD n) := by
  rw [State.trigFilter]
  exact if_neg (by simpa using And.intro h ht)

theorem exec_discreteChange (s : State) (gpio : BitVec 8) (hp : s.plclk = true) (hv : s.pw.vddioB = true) :
    exec (.discreteChange gpio) s = .next (s.modCap (fun c => { c with gpioIn := gpio })).discWatch := by
  show execDiscreteChange gpio s = _
  rw [execDiscreteChange, if_neg (by simp [hp]), if_pos hv]

/-- Settles O32: the samples are sent or lost as their channel's buffer has room, the discrete channels see the levels each for
itself, and a TRIG pin's filter passes the level that has stood. -/
theorem samples : Obligations.Samples := by
  unfold Obligations.Samples
  refine ⟨?sampling, ?pins⟩
  case' sampling =>
    intro s hp c clk room sends
    refine ⟨fun ch hen => ⟨fun h => ?adc, fun h8 h hv => ?spi, fun h34 h hper hl => ?disc⟩, fun code n t r hq hl => ?conversion,
      fun m k t r hrun hdue => ?start, fun m rx k hrun hk hen ht hl => ?done, fun i f hv => ⟨?canError, fun hen hst hl => ?canFrame⟩⟩
  case' pins =>
    intro s hp c clk
    refine ⟨?changes, ?trig⟩
  case adc => exact ⟨_, exec_channelSample_adc s ch hp hen h, queueIn_perm _ _⟩
  case spi =>
    intro m k
    obtain ⟨hdue, hlost⟩ := s.spiMissed_frame ch.toNat (by omega)
    refine ⟨_, exec_channelSample_spi s ch hp hen hv h8 h, ?_, hlost⟩
    simp only [State.modCap_pil, hdue]
    rw [Tab.get_modify_self _ _ _ (by omega)]
    exact queueIn_perm _ _
  case disc => exact ⟨_, exec_channelSample_disc s ch hp hen h34 h hper, s.stream_sends ch.toNat false _ hl⟩
  case conversion =>
    obtain ⟨hsend, hadcq, -⟩ := (s.modCap (fun c => { c with adcq := r })).sampled_sends n (code = 0 || code = 0xFFFF) code hl
    exact ⟨_, exec_adcConversionDone s code n t r hq hp, hadcq, hsend⟩
  case start =>
    refine ⟨_, exec_spiTransaction s m (k, t) r hrun hdue hp, ?_, ?_, ?_⟩
    · exact Tab.get_set_self _ _ _ m.isLt
    · exact Tab.get_set_self _ _ _ m.isLt
    · exact Tab.get_set_self _ _ _ m.isLt
  case done =>
    obtain ⟨hsend, -, hrun'⟩ := (s.modCap (fun c => { c with spiRun := c.spiRun.set m.toNat none })).sampled_sends
      (8 + (6 * m.toNat + k)) (c.spiQ (6 * m.toNat + k) rx)
      (BitVec.ofNat 16 (rx.toNat / 2 ^ (32 - c.objField (.spi (6 * m.toNat + k)) 0 18 6))) hl
    refine ⟨_, exec_spiTransactionDone s m rx k hrun hp hen ht, ?_, hsend⟩
    rw [hrun']
    exact Tab.get_set_self _ _ _ m.isLt
  case canError =>
    refine ⟨_, congrArg Host.Outcome.next ((if_neg (by simp [hp, hv])).trans (if_pos rfl)), ?_, rfl⟩
    exact Tab.get_modify_self _ _ _ i.isLt
  case canFrame =>
    obtain ⟨e, o, t, p, r, n, h⟩ := s.canFired_judgeRel i.toNat f
    have hsend := (s.canFired i.toNat f).stream_sends (32 + i.toNat) f.esi (canCells f) (by rw [h]; exact hl)
    refine ⟨_, exec_canFrame_stored s i f hp hv hen hst, ?_⟩
    rw [h] at hsend ⊢
    exact hsend
  case changes =>
    intro gpio hv now
    let s1 := s.modCap (fun c => { c with gpioIn := gpio })
    refine ⟨_, exec_discreteChange s gpio hp hv, s1.discWatch_keeps.1, ?_⟩
    intro ch h34 h48
    obtain ⟨k, rfl⟩ : ∃ k, ch = 34 + k := ⟨ch - 34, by omega⟩
    intro on moved free mine
    obtain ⟨hseen, hidle⟩ := s1.discWatch_seen k (by omega)
    have hon : s1.pil.cap.changes (34 + k) = true ↔ on := Bool.and_eq_true_iff
    have hmoved : s1.discDue k = true ↔ moved := by
      rw [State.discDue, State.discMoved_eq, Bool.or_eq_true, bne_iff_ne]
      simp only [moved, Nat.add_sub_cancel_left]
      exact Iff.rfl
    have hfree : s1.discFree (34 + k) = true ↔ free := by
      rw [State.discFree_eq, Option.all_eq_true]
      simp only [free, Nat.add_sub_cancel_left, decide_eq_true_eq]
      exact Iff.rfl
    have hnow : (s1.discDue k && s1.discFree (34 + k)) = true ↔ moved ∧ free := by rw [Bool.and_eq_true, hmoved, hfree]
    refine ⟨fun hno => ?_, fun hen => ?_, fun hen hmv hnf => ?_, fun hen hmv hfr => ?_⟩
    · by_cases hch : s1.pil.cap.changes (34 + k) = true
      · exact (hseen hch).quiet (Bool.eq_false_iff.2 fun h => hno ⟨hon.1 hch, hnow.1 h⟩)
      · exact (Prod.mk.inj (hidle (Bool.eq_false_iff.2 hch))).1
    · rw [Nat.add_sub_cancel_left]
      exact (hseen (hon.2 hen)).last
    · have hwait : (s1.discDue k && s1.discFree (34 + k)) = false := Bool.eq_false_iff.2 fun h => hnf (hnow.1 h).2
      rw [Nat.add_sub_cancel_left, (hseen (hon.2 hen)).pend, hwait, hmoved.2 hmv]
      rfl
    · obtain ⟨-, hpend, hat, -, hentry⟩ := hseen (hon.2 hen)
      have hw : (s1.discDue k && s1.discFree (34 + k)) = true := hnow.2 ⟨hmv, hfr⟩
      rw [Nat.add_sub_cancel_left]
      refine ⟨?_, hat hw, fun hl hfull => hentry hw hl ((Capture.streamFull_iff _ _).1 hfull)⟩
      rw [hpend, hw, hmoved.2 hmv]
      rfl
  case trig =>
    intro p level hv edge on since passes
    obtain ⟨hpin, hat, hlev, hpul, hrec, hobj⟩ := c.trigSample_spec p.toNat level clk p.isLt
    let s1 := s.trigShown p.toNat level
    have hfield : ∀ k lo n, s1.pil.cap.objField (.trig p.toNat) k lo n = c.objField (.trig p.toNat) k lo n := fun k lo n => by
      rw [Capture.objField, Capture.objField, Capture.objCell, Capture.objCell]
      exact congrArg (fun m : Mem 24 => fieldN (memRead m _) lo n) hobj
    obtain ⟨-, wpin, wat, wlev, wpul, wrec, wfb⟩ := (s1.trigFilter p.toNat).discWatch_keeps
    have hstable : ¬passes → s1.trigFilter p.toNat = s1 := by
      intro hno
      refine s1.trigFilter_of_stable p.toNat (or_iff_not_imp_left.2 fun hne => ?_)
      by_contra hlt
      refine hno ⟨fun he => hne ?_, ?_⟩
      · exact (congrArg (fun v : BitVec 4 => v.getLsbD p.toNat) hlev).trans (he.trans hpin.symm)
      · rw [not_lt, hfield, show s1.pil.cap.trigAt.get p.toNat = since from hat] at hlt
        exact hlt
    have hpass : passes → s1.trigFilter p.toNat = if on ∧ isTooth edge level = true then (s1.trigTurned p.toNat level).fire p.toNat
        else s1.trigTurned p.toNat level := by
      rintro ⟨hne, hlong⟩
      rw [s1.trigFilter_of_passes p.toNat]
      · simp only [hfield, Bool.and_eq_true, decide_eq_true_eq, show s1.pil.cap.trigPin.getLsbD p.toNat = level from hpin]
        rfl
      · rw [show s1.pil.cap.trigLev = c.trigLev from hlev, show s1.pil.cap.trigPin.getLsbD p.toNat = level from hpin]
        exact hne
      · rw [show s1.pil.cap.trigAt.get p.toNat = since from hat, hfield]
        exact hlong
    have hturn : passes → (s1.trigFilter p.toNat).pil.cap.trigPin = s1.pil.cap.trigPin ∧
        (s1.trigFilter p.toNat).pil.cap.trigAt = s1.pil.cap.trigAt ∧
        (s1.trigFilter p.toNat).pil.cap.trigLev = setBit c.trigLev p.toNat level ∧
        (s1.trigFilter p.toNat).fb = (s1.trigTurned p.toNat level).fb := by
      intro hyes
      rw [hpass hyes, ← hlev]
      split
      · exact s1.trigTurned_frame p.toNat level p.toNat
      · exact ⟨rfl, rfl, rfl, rfl⟩
    refine ⟨_, exec_trigEdge s p level hp hv, ?_, ?_, fun hno => ?_, fun hyes => ⟨?_, ?_, fun hon hedge i hi hsel => ?_, fun hoff => ?_⟩⟩
    · rw [wpin]
      by_cases hy : passes
      · rw [(hturn hy).1]; exact hpin
      · rw [hstable hy]; exact hpin
    · rw [wat]
      by_cases hy : passes
      · rw [(hturn hy).2.1]; exact hat
      · rw [hstable hy]; exact hat
    · rw [wlev, wpul, wrec, hstable hno]
      exact ⟨hlev, hpul, hrec⟩
    · rw [wlev, (hturn hyes).2.2.1]
    · rw [State.evBit, wfb, (hturn hyes).2.2.2]
      exact s1.evBit_trigTurned p.toNat level p.isLt
    · have htooth : isTooth edge level = true := by
        rw [isTooth_iff]
        rcases hedge with h | h | ⟨h, hl⟩
        · exact Or.inl h
        · exact Or.inr (Or.inl h)
        · exact Or.inr (Or.inr ⟨by omega, hl⟩)
      rw [wpul, wrec, hpass hyes, if_pos ⟨hon, htooth⟩]
      exact (s1.trigTurned p.toNat level).fire_fired p.toNat i hi hsel
    · rw [wpul, wrec, hpass hyes, if_neg (fun h => hoff h.1)]
      exact ⟨hpul, hrec⟩

end Sys2Proof.Machine
end

section
/-! Enabling and disabling the host rings (sections 11.8, 18.1). -/

namespace Sys2Proof.Machine

/-! ## The enable bit of a configuration dword -/

theorem getLsbD_or_one (v : BitVec 32) : (v ||| 1).getLsbD 0 = true := by simp

theorem fieldN_or_one (v : BitVec 32) {lo : Nat} (n : Nat) (h : 1 ≤ lo) : fieldN (v ||| 1) lo n = fieldN v lo n := by
  have hone : 1 / 2 ^ lo = 0 := Nat.div_eq_of_lt (Nat.one_lt_two_pow (by omega))
  simp only [fieldN, BitVec.toNat_or]
  rw [← Nat.shiftRight_eq_div_pow, Nat.shiftRight_or_distrib, Nat.shiftRight_eq_div_pow, Nat.shiftRight_eq_div_pow]
  simp [hone]

theorem fieldN_lt {w : Nat} (x : BitVec w) (lo n : Nat) : fieldN x lo n < 2 ^ n := Nat.mod_lt _ (Nat.two_pow_pos n)

theorem sizeOk_iff (z : Nat) : sizeOk z = true ↔ 4 ≤ z ∧ z ≤ 12 := by simp [sizeOk]

theorem sizeOk_false {z : Nat} (h : z < 4 ∨ 12 < z) : sizeOk z = false := by
  rw [Bool.eq_false_iff, Ne, sizeOk_iff]; omega

theorem toNat_ofNat_of_sizeOk {z : Nat} (h : sizeOk z = true) : (BitVec.ofNat 4 z).toNat = z := by
  rw [sizeOk_iff] at h
  rw [BitVec.toNat_ofNat, Nat.mod_eq_of_lt (by omega)]

/-! ## Enabling a ring that is off (R314, R468) -/

section Enable

variable {s : State}

/-- A disabled SQ as the write of its configuration leaves it, before it is enabled. -/
def SqRing.take (q : SqRing) (v : BitVec 32) (code : BitVec 4) : SqRing :=
  { q with size := if sizeOk (fieldN v 1 4) then BitVec.ofNat 4 (fieldN v 1 4) else q.size,
           cq := BitVec.ofNat 4 (fieldN v 5 4), cfgerr := code }

/-- What refuses the enabling of an SQ (R468). -/
def Flue.sqCode (f : Flue) (v : BitVec 32) : BitVec 4 :=
  if !sizeOk (fieldN v 1 4) then 2 else if !(f.cqs.get (fieldN v 5 4)).en then 3 else 0

theorem State.cfgSq_enable (n : Nat) (v : BitVec 32) (hn : n < 16) (hoff : (s.fl.sqs.get n).en = false) :
    let q := (s.cfgSq n (v ||| 1)).fl.sqs.get n
    let q0 := (s.fl.sqs.get n).take v (s.fl.sqCode v)
    (s.fl.sqCode v = 0 → q = { q0 with en := true, err := false, stopped := false, stopping := false, head := 0, tail := 0,
                                       rd := none, rdHeld := false, cfgerr := 0 }) ∧
    (s.fl.sqCode v ≠ 0 → q = q0) := by
  have hput : ∀ x, s.cfgSq n (v ||| 1) = x → x = (if s.fl.sqCode v = 0 then
      (s.modFl (fun f => { f with sqs := f.sqs.modify n (fun q => q.take v (s.fl.sqCode v)) })).modFl (fun f => f.sqOn n)
      else s.modFl (fun f => { f with sqs := f.sqs.modify n (fun q => q.take v (s.fl.sqCode v)) })) := by
    rintro x rfl
    simp only [State.cfgSq, hoff, Bool.false_eq_true, if_false, getLsbD_or_one, fieldN_or_one v _ (Nat.le_refl 1),
      fieldN_or_one v (lo := 5) _ (by omega), Bool.not_true, Bool.true_and, decide_eq_true_eq]
    rfl
  intro q q0
  have hq := congrArg (fun x : State => x.fl.sqs.get n) (hput _ rfl)
  refine ⟨fun h => ?_, fun h => ?_⟩
  · refine hq.trans ?_
    simp only [h, if_true, State.modFl_fl, Flue.sqOn, Tab.get_modify_self _ _ _ hn, q0]
  · refine hq.trans ?_
    simp only [h, if_false, State.modFl_fl, Tab.get_modify_self _ _ _ hn, q0]

/-- A disabled CQ as the write of its configuration leaves it, before it is enabled. -/
def CqRing.take (q : CqRing) (v : BitVec 32) (code : BitVec 4) : CqRing :=
  { q with size := if sizeOk (fieldN v 1 4) then BitVec.ofNat 4 (fieldN v 1 4) else q.size,
           vec := BitVec.ofNat 4 (fieldN v 5 4), coalCnt := BitVec.ofNat 8 (fieldN v 9 8),
           coalTime := BitVec.ofNat 10 (fieldN v 17 10), cfgerr := code }

/-- A disabled EQ as the write of its configuration leaves it, before it is enabled. -/
def EqRing.take (q : EqRing) (v : BitVec 32) (code : BitVec 4) : EqRing :=
  { q with size := if sizeOk (fieldN v 1 4) then BitVec.ofNat 4 (fieldN v 1 4) else q.size,
           vec := BitVec.ofNat 4 (fieldN v 5 4), coalCnt := BitVec.ofNat 8 (fieldN v 9 8),
           coalTime := BitVec.ofNat 10 (fieldN v 17 10), cfgerr := code }

theorem State.cfgCq_enable (n : Nat) (v : BitVec 32) (hn : n < 16) (hoff : (s.fl.cqs.get n).en = false) :
    let q := (s.cfgCq n (v ||| 1)).fl.cqs.get n
    (sizeOk (fieldN v 1 4) = true → q = { (s.fl.cqs.get n).take v 0 with
      en := true, err := false, head := 0, tail := 0, since := 0, cfgerr := 0 }) ∧
    (sizeOk (fieldN v 1 4) = false → q = (s.fl.cqs.get n).take v 2) := by
  have hput : ∀ code : BitVec 4, (if !sizeOk (fieldN v 1 4) then 2 else 0) = code →
      s.cfgCq n (v ||| 1) = if code = 0 then
        (s.modFl (fun f => { f with cqs := f.cqs.modify n (fun q => q.take v code) })).modFl (fun f => f.cqOn n)
        else s.modFl (fun f => { f with cqs := f.cqs.modify n (fun q => q.take v code) }) := by
    rintro code rfl
    simp only [State.cfgCq, hoff, Bool.false_eq_true, if_false, getLsbD_or_one, fieldN_or_one v _ (Nat.le_refl 1),
      fieldN_or_one v (lo := 5) _ (by omega), fieldN_or_one v (lo := 9) _ (by omega),
      fieldN_or_one v (lo := 17) _ (by omega), Bool.true_and, decide_eq_true_eq]
    rfl
  refine ⟨fun h => ?_, fun h => ?_⟩
  · have h0 := hput 0 (by simp [h])
    simp only [h0, if_true, State.modFl_fl, Flue.cqOn, Tab.get_modify_self _ _ _ hn]
  · have h2 := hput 2 (by simp [h])
    rw [if_neg (by decide)] at h2
    simp only [h2, State.modFl_fl, Tab.get_modify_self _ _ _ hn]

/-- What the rebuilding of its queues leaves of an EQ: its registers and its indices. -/
def EqRing.regs (e : EqRing) : EqRing :=
  { e with marks := {}, sealsDone := [], recs := [], run := none, protQ := [], rollQ := [] }

theorem State.rebuild_regs (s : State) (n : Nat) (hn : n < 4) : ((s.rebuild n).fl.eqs.get n).regs = (s.fl.eqs.get n).regs := by
  have hothers : ∀ (f : Nat → EqRing → EqRing) (l : List Nat) (s : State),
      (l.foldl (fun (q : State) k => if k = n then q else q.modEq k (f k)) s).fl.eqs.get n = s.fl.eqs.get n := by
    intro f l
    induction l with
    | nil => exact fun _ => rfl
    | cons k l ih =>
      intro s
      rw [List.foldl_cons, ih]
      split
      · rfl
      · next hk => exact Tab.get_modify_ne _ _ _ _ hk
  simp only [State.rebuild]
  generalize hr : (List.range 4).foldl _ s = r
  have hget : r.fl.eqs.get n = s.fl.eqs.get n := by rw [← hr]; exact hothers _ _ s
  simp only [State.modEq, State.modFl_fl, Tab.get_modify_self _ _ _ hn, EqRing.regs, hget]

theorem State.cfgEq_enable (n : Nat) (v : BitVec 32) (hn : n < 4) (hoff : (s.fl.eqs.get n).en = false) :
    let q := (s.cfgEq n (v ||| 1)).fl.eqs.get n
    (sizeOk (fieldN v 1 4) = true → q.regs = ({ (s.fl.eqs.get n).take v 0 with
      en := true, err := false, bqErr := false, stopped := false, stopping := false, head := 0, tail := 0, bqHead := 0,
      bqTail := 0, since := 0, cfgerr := 0 } : EqRing).regs) ∧
    (sizeOk (fieldN v 1 4) = false → q = (s.fl.eqs.get n).take v 2) := by
  have hput : ∀ code : BitVec 4, (if !sizeOk (fieldN v 1 4) then 2 else 0) = code →
      s.cfgEq n (v ||| 1) = if code = 0 then (s.modEq n (fun q => q.take v code)).eqOn n
        else s.modEq n (fun q => q.take v code) := by
    rintro code rfl
    simp only [State.cfgEq, hoff, Bool.false_eq_true, if_false, getLsbD_or_one, fieldN_or_one v _ (Nat.le_refl 1),
      fieldN_or_one v (lo := 5) _ (by omega), fieldN_or_one v (lo := 9) _ (by omega),
      fieldN_or_one v (lo := 17) _ (by omega), Bool.true_and, decide_eq_true_eq]
    rfl
  refine ⟨fun h => ?_, fun h => ?_⟩
  · have h0 := hput 0 (by simp [h])
    rw [if_pos rfl] at h0
    simp only [h0, State.eqOn, State.rebuild_regs _ n hn]
    simp only [State.modEq, State.modFl_fl, Tab.get_modify_self _ _ _ hn]
  · have h2 := hput 2 (by simp [h])
    rw [if_neg (by decide)] at h2
    simp only [h2, State.modEq, State.modFl_fl, Tab.get_modify_self _ _ _ hn]

end Enable

/-! ## Completions (R302, R304) -/

/-- What a message to the host leaves of the Flue. -/
theorem Flue.emit_frame (f : Flue) (o : HostOut) : ∃ out l1 held, f.emit o = { f with out := out, l1 := l1, held := held } := by
  unfold Flue.emit
  split <;> exact ⟨_, _, _, rfl⟩

/-- A completion changes the CQ of its SQ and the count of completions, besides what is sent and the polling. -/
theorem Flue.postCq_frame (f : Flue) (r : Run) (tick : Dbl) : ∃ c n p out l1 held sd w,
    f.postCq r tick = { f with cqs := c, stats := n, poll := p, out := out, l1 := l1, held := held, shadowDirty := sd, msixWait := w } := by
  unfold Flue.postCq
  dsimp only
  split
  · exact ⟨_, _, _, _, _, _, _, _, rfl⟩
  · next h =>
    obtain ⟨out, l1, held, he⟩ := Flue.emit_frame { (goActive f tick) with stats := f.stats.modify 3 (· + 1) }
      (.write (entryAddr (f.cqs.get (f.sqs.get r.sq).cq.toNat).base (f.cqs.get (f.sqs.get r.sq).cq.toNat).tail
        (f.cqs.get (f.sqs.get r.sq).cq.toNat).size 16)
        (completionBytes r (f.sqs.get r.sq).head (phaseBit (f.cqs.get (f.sqs.get r.sq).cq.toNat).tail
          (f.cqs.get (f.sqs.get r.sq).cq.toNat).size)))
    rw [he]
    exact ⟨_, _, _, _, _, _, _, _, rfl⟩

theorem Flue.postCq_sqs (f : Flue) (r : Run) (tick : Dbl) : (f.postCq r tick).sqs = f.sqs := by
  obtain ⟨c, n, p, out, l1, held, sd, w, h⟩ := f.postCq_frame r tick
  rw [h]

/-- The CQ of the SQ of a run takes completions. -/
def Flue.takes (f : Flue) (n : Nat) : Prop :=
  (f.cqs.get (f.sqs.get n).cq.toNat).en = true ∧ (f.cqs.get (f.sqs.get n).cq.toNat).err = false

/-- A completion that its CQ takes is counted, and the CQ takes the next one. -/
theorem Flue.postCq_counts (f : Flue) (r : Run) (tick : Dbl) (hr : r.sq < 16) (h : f.takes r.sq) :
    (f.postCq r tick).takes r.sq ∧ (f.postCq r tick).stats.get 3 = f.stats.get 3 + 1 := by
  obtain ⟨hen, herr⟩ := h
  have hcq : (f.sqs.get r.sq).cq.toNat < 16 := (f.sqs.get r.sq).cq.isLt
  have hsq := f.postCq_sqs r tick
  have hif : ¬ ((decide (16 ≤ r.sq) || !(f.cqs.get (f.sqs.get r.sq).cq.toNat).en ||
      (f.cqs.get (f.sqs.get r.sq).cq.toNat).err) = true) := by
    simp [hen, herr, hr]
  refine ⟨?_, ?_⟩
  · rw [Flue.takes, hsq]
    unfold Flue.postCq
    dsimp only
    rw [if_neg hif]
    simp only [Tab.get_set_self _ _ _ hcq]
    exact ⟨hen, herr⟩
  · unfold Flue.postCq
    dsimp only
    rw [if_neg hif]
    obtain ⟨out, l1, held, he⟩ := Flue.emit_frame { (goActive f tick) with stats := f.stats.modify 3 (· + 1) }
      (.write (entryAddr (f.cqs.get (f.sqs.get r.sq).cq.toNat).base (f.cqs.get (f.sqs.get r.sq).cq.toNat).tail
        (f.cqs.get (f.sqs.get r.sq).cq.toNat).size 16)
        (completionBytes r (f.sqs.get r.sq).head (phaseBit (f.cqs.get (f.sqs.get r.sq).cq.toNat).tail
          (f.cqs.get (f.sqs.get r.sq).cq.toNat).size)))
    simp only [he, Tab.get_modify_self _ _ _ (show 3 < 5 by decide)]

/-! ## Disabling (R315 to R317) -/

/-- The Flue once the fetched commands `l` of SQ `n` are completed with RING_STOPPED. -/
def Flue.stopAll (f : Flue) (n : Nat) (tick : Dbl) (l : List Desc) : Flue := l.foldl (fun (g : Flue) d => g.ringStopped n tick d) f

theorem Flue.stopAll_spec (n : Nat) (tick : Dbl) (hn : n < 16) (l : List Desc) : ∀ f : Flue,
    (f.stopAll n tick l).sqs = f.sqs ∧
    (f.takes n → (f.stopAll n tick l).stats.get 3 = f.stats.get 3 + BitVec.ofNat 48 l.length) := by
  induction l with
  | nil => exact fun f => ⟨rfl, fun _ => (by simp [Flue.stopAll])⟩
  | cons d l ih =>
    intro f
    obtain ⟨hsqs, hcount⟩ := ih (f.ringStopped n tick d)
    refine ⟨hsqs.trans (Flue.postCq_sqs f _ tick), fun h => ?_⟩
    obtain ⟨htakes, hone⟩ := Flue.postCq_counts f { tag := 0, sq := n, cid := BitVec.ofNat 16 (leAt d.bytes 2 2),
                                                    ord := d.ord, op := BitVec.ofNat 8 (d.byte 0), status := 0x05 } tick hn h
    refine (hcount htakes).trans ?_
    rw [Flue.ringStopped, hone, List.length_cons, BitVec.add_assoc, Nat.add_comm l.length 1, BitVec.ofNat_add] <;> rfl

/-- A disabled SQ that waits to be STOPPED. -/
def SqRing.off (q : SqRing) : SqRing :=
  { q with en := false, rd := none, rdHeld := false, fetched := [], stopping := true, stopped := false }

theorem State.sqOff_eq (s : State) (n : Nat) : s.sqOff n = s.modFl (fun f =>
    { (f.stopAll n s.fb.mir.tick (f.sqs.get n).fetched) with
      shadowDirty := true,
      sqs := (f.stopAll n s.fb.mir.tick (f.sqs.get n).fetched).sqs.modify n (fun q => if f.shAddr = 0 then q.off.shadowed else q.off) }) :=
  rfl

theorem State.sqOff_get (s : State) (n : Nat) (hn : n < 16) : (s.sqOff n).fl.sqs.get n =
    if s.fl.shAddr = 0 then (s.fl.sqs.get n).off.shadowed else (s.fl.sqs.get n).off := by
  rw [State.sqOff_eq, State.modFl_fl]
  simp only [(Flue.stopAll_spec n s.fb.mir.tick hn _ s.fl).1, Tab.get_modify_self _ _ _ hn]

theorem State.sqOff_stats (s : State) (n : Nat) (hn : n < 16) (h : s.fl.takes n) : (s.sqOff n).fl.stats.get 3 =
    s.fl.stats.get 3 + BitVec.ofNat 48 (s.fl.sqs.get n).fetched.length := by
  rw [State.sqOff_eq, State.modFl_fl]
  exact (Flue.stopAll_spec n s.fb.mir.tick hn _ s.fl).2 h

/-- An SQ that is off with no command begun is STOPPED when it is shadowed. -/
theorem SqRing.off_shadowed (q : SqRing) : q.off.shadowed.en = false ∧ q.off.shadowed.fetched = [] ∧
    q.off.shadowed.stopped = q.begun.isEmpty ∧ q.off.shadowed.stopping = !q.begun.isEmpty := by
  unfold SqRing.shadowed SqRing.off
  cases q.begun.isEmpty <;> exact ⟨rfl, rfl, rfl, rfl⟩

/-! ## Register writes -/

theorem mergeBytes_all (old v : BitVec 32) : mergeBytes 0xF old v = v := by
  apply BitVec.eq_of_getLsbD_eq
  intro i hi
  have hbe : (0xF : BitVec 4).getLsbD (i / 8) = true := by
    have h4 : i / 8 = 0 ∨ i / 8 = 1 ∨ i / 8 = 2 ∨ i / 8 = 3 := by omega
    rcases h4 with h | h | h | h <;> rw [h] <;> rfl
  rw [mergeBytes, BitVec.getLsbD_ofFnLE, dif_pos hi]
  exact if_pos hbe

theorem mergeBytes_low (old v : BitVec 32) : (mergeBytes 0x1 old v).setWidth 8 = v.setWidth 8 := by
  apply BitVec.eq_of_getLsbD_eq
  intro i hi
  have hbe : (0x1 : BitVec 4).getLsbD (i / 8) = true := by
    rw [Nat.div_eq_of_lt hi]; rfl
  have hi' : i < 32 := by omega
  rw [BitVec.getLsbD_setWidth, BitVec.getLsbD_setWidth, mergeBytes, BitVec.getLsbD_ofFnLE, dif_pos hi']
  congr 1
  exact if_pos hbe

theorem ofNat_fieldN_zero (v : BitVec 32) (n : Nat) : BitVec.ofNat n (fieldN v 0 n) = v.setWidth n := by
  apply BitVec.eq_of_toNat_eq
  simp [fieldN]

end Sys2Proof.Machine

namespace Sys2Proof

open Machine

/-- Settles O47: a configuration write enables a ring that it finds off when the size, and for an SQ its CQ, allow it; a
disabled SQ first completes what it has fetched. -/
theorem hostRings : Obligations.HostRings := by
  unfold Obligations.HostRings
  intro s hbar f
  refine ⟨?sqOn, ?cqOn, ?eqOn, ?sqOff, ?eqOff, ?page, ?evt, ?wake⟩
  case sqOn =>
    intro n v hoff z
    refine ⟨s.cfgSq n.toNat (v ||| 1), congrArg Host.Outcome.next (by rw [if_neg (by simp [hbar])]), ?_⟩
    obtain ⟨hset, hkeep⟩ := State.cfgSq_enable n.toNat v n.isLt hoff
    have hcq : (BitVec.ofNat 4 (fieldN v 5 4)).toNat = fieldN v 5 4 := by
      rw [BitVec.toNat_ofNat, Nat.mod_eq_of_lt (fieldN_lt v 5 4)]
    refine ⟨fun h4 h12 hen => ?_, fun h4 h12 hen => ?_, fun hz => ?_⟩
    · have hz : sizeOk (fieldN v 1 4) = true := (sizeOk_iff _).2 ⟨h4, h12⟩
      rw [hset (by simp [Flue.sqCode, hz, show (s.fl.cqs.get (fieldN v 5 4)).en = true from hen])]
      refine ⟨rfl, ?_, hcq, rfl, rfl, rfl, rfl, rfl⟩
      simp only [SqRing.take, hz, if_true]
      exact toNat_ofNat_of_sizeOk hz
    · have hz : sizeOk (fieldN v 1 4) = true := (sizeOk_iff _).2 ⟨h4, h12⟩
      have hcode : s.fl.sqCode v = 3 := by simp only [Flue.sqCode, hz]; simp [show (s.fl.cqs.get (fieldN v 5 4)).en = false from hen]
      rw [hkeep (by rw [hcode]; decide)]
      exact ⟨hoff, hcode⟩
    · have hbad : sizeOk (fieldN v 1 4) = false := sizeOk_false hz
      have hcode : s.fl.sqCode v = 2 := by simp [Flue.sqCode, hbad]
      rw [hkeep (by rw [hcode]; decide)]
      exact ⟨hoff, hcode⟩
  case cqOn =>
    intro n v hoff z
    refine ⟨s.cfgCq n.toNat (v ||| 1), congrArg Host.Outcome.next (by rw [if_neg (by simp [hbar])]), ?_⟩
    obtain ⟨hset, hkeep⟩ := State.cfgCq_enable n.toNat v n.isLt hoff
    refine ⟨fun h4 h12 => ?_, fun hz => ?_⟩
    · have hz : sizeOk (fieldN v 1 4) = true := (sizeOk_iff _).2 ⟨h4, h12⟩
      rw [hset hz]
      refine ⟨rfl, ?_, ?_, rfl, rfl, rfl⟩
      · simp only [CqRing.take, hz, if_true]
        exact toNat_ofNat_of_sizeOk hz
      · exact Nat.mod_eq_of_lt (fieldN_lt v 5 4)
    · rw [hkeep (sizeOk_false hz)]
      exact ⟨hoff, rfl⟩
  case eqOn =>
    intro n v hoff z
    refine ⟨s.cfgEq n.toNat (v ||| 1), congrArg Host.Outcome.next (by rw [if_neg (by simp [hbar])]), ?_⟩
    obtain ⟨hset, hkeep⟩ := State.cfgEq_enable n.toNat v n.isLt hoff
    refine ⟨fun h4 h12 => ?_, fun hz => ?_⟩
    · have hz : sizeOk (fieldN v 1 4) = true := (sizeOk_iff _).2 ⟨h4, h12⟩
      have hregs := hset hz
      have hproj : ∀ {α : Type} (g : EqRing → α), g ((s.cfgEq n.toNat (v ||| 1)).fl.eqs.get n.toNat).regs = g _ :=
        fun g => congrArg g hregs
      refine ⟨hproj EqRing.en, (hproj (fun e => e.size.toNat)).trans ?_, hproj EqRing.head, hproj EqRing.tail,
        hproj EqRing.bqHead, hproj EqRing.bqTail, hproj EqRing.cfgerr⟩
      simp only [EqRing.take, EqRing.regs, hz, if_true]
      exact toNat_ofNat_of_sizeOk hz
    · rw [hkeep (sizeOk_false hz)]
      exact ⟨hoff, rfl⟩
  case sqOff =>
    intro n hen q
    refine ⟨s.sqOff n.toNat, congrArg Host.Outcome.next (if_pos (by rw [hbar, hen] <;> rfl)), ?_⟩
    have hget := s.sqOff_get n.toNat n.isLt
    obtain ⟨hsen, hsf, hss, hsp⟩ := q.off_shadowed
    refine ⟨?_, ?_, fun hsh => ?_, fun hsh => ?_, fun hcen hcerr => s.sqOff_stats n.toNat n.isLt ⟨hcen, hcerr⟩⟩
    · rw [hget]; split
      · exact hsen
      · rfl
    · rw [hget]; split
      · exact hsf
      · rfl
    · rw [hget, if_neg hsh]
      exact ⟨rfl, rfl, rfl⟩
    · rw [hget, if_pos hsh]
      exact ⟨hss, hsp⟩
  case eqOff =>
    intro n hen
    refine ⟨s.eqOff n.toNat, congrArg Host.Outcome.next (if_pos (by rw [hbar, hen] <;> rfl)), ?_⟩
    have hget : (s.eqOff n.toNat).fl.eqs.get n.toNat = _ := Tab.get_modify_self _ _ _ n.isLt
    rw [hget]
    exact ⟨rfl, rfl, rfl, rfl, fun hrun => by simp only [show (s.fl.eqs.get n.toNat).run = none from hrun, Bool.not_false]⟩
  case page =>
    intro a hpoll hany
    refine congrArg Host.Outcome.next ((if_pos hbar).trans ?_)
    have hopen : (!s.fl.poll.en && !s.fl.anyRing) = true := by
      rw [show s.fl.poll.en = false from hpoll, show s.fl.anyRing = false from hany]; rfl
    have hput : s.barWrite64 0x040 a =
        (s.modFl (fun f => { f with lowStage := f.lowStage.filter (fun x => x.1 ≠ 0x040) })).put64 0x040 a := rfl
    rw [hput]
    exact if_pos hopen
  case evt =>
    intro v
    refine congrArg Host.Outcome.next ((if_pos hbar).trans ?_)
    have hput : s.barWrite 0x058 0xF v = s.modFl (fun f =>
        { f with evtVec := BitVec.ofNat 4 (fieldN (mergeBytes 0xF (s.barKeep 0x058) v) 0 4) }) := rfl
    rw [hput, mergeBytes_all, ofNat_fieldN_zero] <;> rfl
  case wake =>
    intro v
    refine congrArg Host.Outcome.next ((if_pos hbar).trans ?_)
    have hput : s.barWrite 0x020 0x1 v = s.modWk (fun w =>
        { w with stbyWake := (mergeBytes 0x1 (s.barKeep 0x020) v).setWidth 8 }) := rfl
    rw [hput, mergeBytes_low]

end Sys2Proof
end

section
/-! The checks of a descriptor, and what completes a command (sections 11.4, 12.1, 12.2). -/

namespace Sys2Proof.Machine

section Checks

variable {s : State} {sq : BitVec 4} {d : Desc} {c : CmdRule}

/-- The descriptor is the next of its SQ, its command may begin, and it names the command of the row `c`. -/
structure CmdRule.Next (c : CmdRule) (s : State) (sq : BitVec 4) (d : Desc) : Prop where
  next : s.nextDesc sq.toNat = some d
  may : s.mayBegin = true
  code : d.byte 0 = c.op

theorem CmdRule.Next.starts (h : c.Next s sq d) (hreads : c.reads = false) :
    ¬ ((!s.mayBegin || decide (d.byte 0 ≠ c.op) || (c.reads && decide (d.dlen ≠ 0) && !s.fl.canTalk)) = true) := by
  obtain ⟨-, hmay, hcode⟩ := h
  simp [hmay, hcode, hreads]

theorem command_of_badField (act : Desc → Nat → State → State) (h : c.Next s sq d) (hreads : c.reads = false)
    (hbad : d.reserved0 c.named = false) : command sq c act s = (s.begin_ sq.toNat d).finish s.fl.nextTag 0x02 := by
  simp only [command, h.next]
  rw [if_neg (h.starts hreads), if_pos (by simp [hbad])]

theorem command_of_badBuffer (act : Desc → Nat → State → State) (h : c.Next s sq d) (hreads : c.reads = false)
    (hzero : d.reserved0 c.named = true) (hrange : c.range d = true) (hbad : d.bufOk = false) :
    command sq c act s = (s.begin_ sq.toNat d).finish s.fl.nextTag 0x03 := by
  simp only [command, h.next]
  rw [if_neg (h.starts hreads), if_neg (by simp [hzero, hrange]), if_pos (by simp [hbad])]

theorem command_of_stateDenied (act : Desc → Nat → State → State) (h : c.Next s sq d) (hreads : c.reads = false)
    (hzero : d.reserved0 c.named = true) (hrange : c.range d = true) (hbuf : d.bufOk = true) (hsize : c.size d = true)
    (hlife : s.fLife ∉ c.states) : command sq c act s = (s.begin_ sq.toNat d).finish s.fl.nextTag 0x04 := by
  simp only [command, h.next]
  rw [if_neg (h.starts hreads), if_neg (by simp [hzero, hrange]), if_neg (by simp [hbuf, hsize]), if_pos (by simp [hlife])]

/-- An ORDERED command waits for the commands that its SQ has begun (R327). -/
theorem State.nextDesc_of_ordered (hhead : (s.fl.sqs.get sq.toNat).fetched.head? = some d) (hord : d.byte 1 % 2 = 1)
    (hbegun : (s.fl.sqs.get sq.toNat).begun ≠ []) : s.nextDesc sq.toNat = none := by
  have hempty : (s.fl.sqs.get sq.toNat).begun.isEmpty = false := by simpa using hbegun
  unfold State.nextDesc
  dsimp only
  cases hf : (s.fl.sqs.get sq.toNat).fetched with
  | nil => rfl
  | cons x l =>
    rw [hf, List.head?_cons, Option.some.injEq] at hhead
    subst hhead
    exact if_pos (by simp [Desc.ordered, hord, hempty])

theorem command_of_ordered (act : Desc → Nat → State → State) (hhead : (s.fl.sqs.get sq.toNat).fetched.head? = some d)
    (hord : d.byte 1 % 2 = 1) (hbegun : (s.fl.sqs.get sq.toNat).begun ≠ []) : command sq c act s = s := by
  simp only [command, State.nextDesc_of_ordered hhead hord hbegun]

end Checks

/-! ## Completions (R302) -/

/-- A completion that goes to the host at once (R302, R304). -/
theorem Flue.postCq_emits (f : Flue) (r : Run) (tick : Dbl) (hr : r.sq < 16) (h : f.takes r.sq) (htalk : f.canTalk = true)
    (hheld : f.held = []) :
    let q := f.sqs.get r.sq
    let c := f.cqs.get q.cq.toNat
    (f.postCq r tick).out = f.out ++ [.write (entryAddr c.base c.tail c.size 16) (completionBytes r q.head (phaseBit c.tail c.size))] ∧
    ((f.postCq r tick).cqs.get q.cq.toNat).tail = c.tail + 1 ∧ (f.postCq r tick).shadowDirty = true := by
  intro q c
  obtain ⟨hen, herr⟩ := h
  have hcq : q.cq.toNat < 16 := q.cq.isLt
  have hif : ¬ ((decide (16 ≤ r.sq) || !c.en || c.err) = true) := by
    simp [c, q, hen, herr, hr]
  have hsend : ∀ o, Flue.emit { (goActive f tick) with stats := f.stats.modify 3 (· + 1) } o =
      { (goActive f tick) with stats := f.stats.modify 3 (· + 1), out := f.out ++ [o], l1 := false } := by
    intro o
    exact if_pos (Bool.and_eq_true_iff.2 ⟨htalk, List.isEmpty_iff.2 hheld⟩)
  unfold Flue.postCq
  dsimp only
  rw [if_neg hif, hsend]
  exact ⟨rfl, congrArg CqRing.tail (Tab.get_set_self _ _ _ hcq), rfl⟩

/-- The Flue once the run `r` has completed. -/
def Flue.completed (f : Flue) (r : Run) (t : Nat) (tick : Dbl) : Flue :=
  { (f.postCq r tick) with
    sqs := (f.postCq r tick).sqs.modify r.sq (fun q => q.finish r.ord),
    runs := (f.postCq r tick).runs.filter (fun x => x.tag ≠ t),
    shadowDirty := (f.postCq r tick).shadowDirty || ((f.postCq r tick).sqs.get r.sq).stopping }

theorem State.finish_of_run {s : State} {t : Nat} {r : Run} (h : s.run? t = some r) (st : Byte) (res : List Byte) :
    s.finish t st res = s.modFl (fun f => f.completed { r with status := st, result := res } t s.fb.mir.tick) := by
  unfold State.finish
  rw [h]
  rfl

end Sys2Proof.Machine

namespace Sys2Proof

open Machine

/-- Settles O49: each check of a row has its own equation of `command`; a completion is one write of sixteen bytes to the
tail entry of the CQ. -/
theorem commandChecks : Obligations.CommandChecks := by
  unfold Obligations.CommandChecks
  intro s sq d
  refine ⟨fun hnext hmay => ⟨?badOpcode, ?badField, ?badBuffer, ?denied⟩, ?ordered, ?completion⟩
  case badOpcode =>
    intro hop
    have hcodes : cmdOpcodes.contains (d.byte 0) = false := by simpa [cmdOpcodes] using hop
    refine congrArg Host.Outcome.next ?_
    simp only [hnext]
    exact if_neg (by simp only [hmay, hcodes]; decide)
  case badField =>
    intro hop hbad
    have hres : d.reserved0 [] = false := by
      rw [Bool.eq_false_iff, Desc.reserved0]
      simp only [Ne, Bool.and_eq_true, decide_eq_true_eq, List.all_eq_true, List.mem_range, List.contains_nil, Bool.false_or]
      rintro ⟨hlow, hall⟩
      rcases hbad with h2 | ⟨i, hi, hp⟩
      · omega
      · exact hp (hall i hi)
    exact congrArg Host.Outcome.next (command_of_badField _ ⟨hnext, hmay, hop⟩ rfl hres)
  case badBuffer =>
    intro hop hres hbuf
    exact congrArg Host.Outcome.next (command_of_badBuffer _ ⟨hnext, hmay, hop⟩ rfl hres rfl hbuf)
  case denied =>
    intro hop hres hbuf hlife
    exact congrArg Host.Outcome.next (command_of_stateDenied _ ⟨hnext, hmay, hop⟩ rfl hres rfl hbuf rfl hlife)
  case ordered =>
    intro hhead hord hbegun
    exact congrArg Host.Outcome.next (command_of_ordered _ hhead hord hbegun)
  case completion =>
    intro t r st res q c s' phase bytes entry hrun hsq
    have hs' : s'.fl = s.fl.completed { r with status := st, result := res } t s.fb.mir.tick :=
      congrArg State.fl (State.finish_of_run hrun st res)
    rw [hs']
    refine ⟨?_, ?_, fun hen herr => ?_, fun hen herr htalk hheld => ?_⟩
    · intro x hx
      exact of_decide_eq_true (List.mem_filter.1 hx).2
    · have hget := Tab.get_modify_self (s.fl.postCq { r with status := st, result := res } s.fb.mir.tick).sqs r.sq
        (fun q => q.finish r.ord) hsq
      rw [Flue.postCq_sqs] at hget
      exact congrArg SqRing.begun ((congrArg (fun v : Tab SqRing 16 => (v.modify r.sq (fun q => q.finish r.ord)).get r.sq)
        (Flue.postCq_sqs _ _ _)).trans hget)
    · exact (Flue.postCq_counts s.fl { r with status := st, result := res } s.fb.mir.tick hsq ⟨hen, herr⟩).2
    · obtain ⟨hout, htail, hdirty⟩ := Flue.postCq_emits s.fl { r with status := st, result := res } s.fb.mir.tick hsq
        ⟨hen, herr⟩ htalk hheld
      exact ⟨hout, htail, by rw [Flue.completed, hdirty, Bool.true_or]⟩

end Sys2Proof
end

section
/-! Shadow writes, MSI-X messages and what holds the traffic of the Flue back (sections 11.2 to 11.4, 11.9). -/

namespace Sys2Proof.Machine

/-! ## Messages to the host (R286, R304) -/

/-- Traffic that nothing holds back goes out at once. -/
theorem Flue.emit_of_talks (f : Flue) (o : HostOut) (htalk : f.canTalk = true) (hheld : f.held = []) :
    f.emit o = { f with out := f.out ++ [o], l1 := false } :=
  if_pos (Bool.and_eq_true_iff.2 ⟨htalk, List.isEmpty_iff.2 hheld⟩)

/-- The messages of unmasked vectors go out in their order. -/
theorem Flue.foldl_sendVec (l : List Nat) : ∀ f : Flue, f.canTalk = true → f.held = [] →
    (∀ v, v ∈ l → (f.msix.get v).ctl.getLsbD 0 = false) →
    ∃ x, l.foldl Flue.sendVec f = { f with out := f.out ++ l.map HostOut.msix, l1 := x } := by
  induction l with
  | nil => exact fun f _ _ _ => ⟨f.l1, by rw [List.map_nil, List.append_nil]; rfl⟩
  | cons v l ih =>
    intro f htalk hheld hopen
    have hv : f.sendVec v = { f with out := f.out ++ [.msix v], l1 := false } := by
      rw [Flue.sendVec, hopen v List.mem_cons_self]
      exact f.emit_of_talks _ htalk hheld
    obtain ⟨x, hx⟩ := ih { f with out := f.out ++ [.msix v], l1 := false } htalk hheld
      (fun w hw => hopen w (List.mem_cons_of_mem _ hw))
    refine ⟨x, ?_⟩
    rw [List.foldl_cons, hv, hx, List.map_cons, List.append_assoc] <;> rfl

/-- A message changes what is sent, held or pending. -/
theorem Flue.sendVec_frame (f : Flue) (v : Nat) : ∃ out l1 held p, f.sendVec v = { f with out := out, l1 := l1, held := held, pend := p } := by
  unfold Flue.sendVec
  split
  · exact ⟨_, _, _, _, rfl⟩
  · obtain ⟨out, l1, held, h⟩ := f.emit_frame (.msix v)
    exact ⟨out, l1, held, f.pend, h⟩

theorem Flue.vecDue_rings (f : Flue) (v : Nat) : (f.vecDue v).cqs = f.cqs ∧ (f.vecDue v).eqs = f.eqs := by
  unfold Flue.vecDue
  split
  · exact ⟨rfl, rfl⟩
  · obtain ⟨out, l1, held, p, h⟩ := f.sendVec_frame v
    rw [h]; exact ⟨rfl, rfl⟩

theorem Flue.vecDue_of_dirty (f : Flue) (v : Nat) (h : f.shadowDirty = true) : (f.vecDue v).msixWait = f.msixWait ++ [v] := by
  rw [Flue.vecDue, if_pos h]

/-! ## The shadow page (R288, R302) -/

/-- The Flue as its shadow page goes out, before the messages that wait for it. -/
def Flue.shadowed (f : Flue) : Flue := { f with sgen := f.sgen + 1, shadowDirty := false, msixWait := [], sqs := f.sqs.map SqRing.shadowed }

theorem exec_shadowWrite {s : State} (htalks : s.flueTalks = true) (hpage : s.fl.shAddr ≠ 0) (hdirty : s.fl.shadowDirty = true) :
    exec .shadowWrite s = .next (s.modFl (fun f => f.msixWait.foldl Flue.sendVec
      (f.shadowed.emit (.write f.shAddr (s.shadowPage (s.fl.sgen + 1)))))) :=
  congrArg Host.Outcome.next (if_neg (by rw [htalks, hdirty, decide_eq_false hpage] <;> decide))

theorem SqRing.shadowed_of_done (q : SqRing) (hstop : q.stopping = true) (hbegun : q.begun = []) :
    q.shadowed.stopped = true ∧ q.shadowed.stopping = false := by
  simp [SqRing.shadowed, hstop, hbegun]

theorem State.canTalk_of_flueTalks {s : State} (h : s.flueTalks = true) : s.fl.canTalk = true := (Bool.and_eq_true_iff.1 h).2

theorem shadowWrite_sends (s : State) (htalks : s.flueTalks = true) (hpage : s.fl.shAddr ≠ 0) (hdirty : s.fl.shadowDirty = true)
    (hheld : s.fl.held = []) (hopen : ∀ v, v ∈ s.fl.msixWait → (s.fl.msix.get v).ctl.getLsbD 0 = false) :
    ∃ s', exec .shadowWrite s = .next s' ∧ s'.fl.sgen = s.fl.sgen + 1 ∧ s'.fl.shadowDirty = false ∧ s'.fl.msixWait = [] ∧
      s'.fl.out = s.fl.out ++ .write s.fl.shAddr (s.shadowPage (s.fl.sgen + 1)) :: s.fl.msixWait.map HostOut.msix ∧
      ∀ i, i < 16 → (s.fl.sqs.get i).stopping = true → (s.fl.sqs.get i).begun = [] →
        (s'.fl.sqs.get i).stopped = true ∧ (s'.fl.sqs.get i).stopping = false := by
  have htalk : s.fl.shadowed.canTalk = true := State.canTalk_of_flueTalks htalks
  have hpg := s.fl.shadowed.emit_of_talks (.write s.fl.shAddr (s.shadowPage (s.fl.sgen + 1))) htalk hheld
  have hfold := congrArg (fun f : Flue => s.fl.msixWait.foldl Flue.sendVec f) hpg
  obtain ⟨x, hx⟩ := Flue.foldl_sendVec s.fl.msixWait
    { s.fl.shadowed with out := s.fl.out ++ [.write s.fl.shAddr (s.shadowPage (s.fl.sgen + 1))], l1 := false } htalk hheld hopen
  refine ⟨_, exec_shadowWrite htalks hpage hdirty, ?_⟩
  rw [State.modFl_fl, hfold.trans hx]
  refine ⟨rfl, rfl, rfl, ?_, fun i hi hstop hbegun => ?_⟩
  · rw [List.append_assoc] <;> rfl
  · have hget : Tab.get (s.fl.sqs.map SqRing.shadowed) i = (s.fl.sqs.get i).shadowed := Tab.get_map _ _ i hi
    have hdone := SqRing.shadowed_of_done _ hstop hbegun
    rw [← hget] at hdone
    exact hdone

/-! ## The flush (R286) -/

theorem Flue.flush_of_talks (f : Flue) (h : f.canTalk = true) : f.flush.out = f.out ++ f.held ∧ f.flush.held = [] := by
  rw [Flue.flush, if_pos h]; exact ⟨rfl, rfl⟩

theorem Flue.flush_of_silent (f : Flue) (h : f.canTalk = false) : f.flush = f := by
  rw [Flue.flush, h]; rfl

theorem Flue.flush_frame (f : Flue) : ∃ out held l1, f.flush = { f with out := out, held := held, l1 := l1 } := by
  unfold Flue.flush
  split <;> exact ⟨_, _, _, rfl⟩

/-! ## The MSI-X table (R304) -/

/-- An entry of the table with one of its dwords written. -/
def MsixEntry.put (m : MsixEntry) (dw : Nat) (v : BitVec 32) : MsixEntry :=
  if dw = 0 then { m with lo := v &&& 0xFFFFFFFC } else if dw = 1 then { m with hi := v }
  else if dw = 2 then { m with data := v } else { m with ctl := v &&& 1 }

theorem State.putMsix_of_idle (s : State) (e dw : Nat) (v : BitVec 32) (h : s.fl.pend.getLsbD e = false) :
    s.putMsix e dw v = s.modFl (fun f => { f with msix := f.msix.set e ((f.msix.get e).put dw v) }) := by
  unfold State.putMsix
  simp only [State.modFl]
  rw [if_neg (by rw [h]; exact Bool.false_ne_true)] <;> rfl

theorem and_one_of_even (v : BitVec 32) (h : v.getLsbD 0 = false) : v &&& 1 = 0 := by
  apply BitVec.eq_of_getLsbD_eq
  intro i hi
  rw [BitVec.getLsbD_and]
  by_cases h0 : i = 0
  · rw [h0, h]; rfl
  · have hone : (1 : BitVec 32).getLsbD i = false := by simp [BitVec.getLsbD_one, h0]
    rw [hone, Bool.and_false]; simp

theorem State.putMsix_unmask (s : State) (e : Nat) (v : BitVec 32) (he : e < 16) (hv : v.getLsbD 0 = false)
    (hpend : s.fl.pend.getLsbD e = true) (htalk : s.fl.canTalk = true) (hheld : s.fl.held = []) :
    ((s.putMsix e 3 v).fl.msix.get e).ctl = 0 ∧ (s.putMsix e 3 v).fl.pend.getLsbD e = false ∧
    (s.putMsix e 3 v).fl.out = s.fl.out ++ [.msix e] := by
  have hput : s.putMsix e 3 v = s.modFl (fun f =>
      Flue.emit { f with msix := f.msix.set e { f.msix.get e with ctl := v &&& 1 }, pend := setBit f.pend e false } (.msix e)) := by
    unfold State.putMsix
    simp only [State.modFl]
    rw [if_pos (by simpa [hpend] using hv)] <;> rfl
  have hsend := Flue.emit_of_talks
    { s.fl with msix := s.fl.msix.set e { s.fl.msix.get e with ctl := v &&& 1 }, pend := setBit s.fl.pend e false } (.msix e) htalk hheld
  rw [hput, State.modFl_fl, hsend]
  refine ⟨?_, ?_, rfl⟩
  · rw [Tab.get_set_self _ _ _ he]
    exact and_one_of_even v hv
  · exact (getLsbD_setBit_of_lt s.fl.pend e e false he).trans (if_pos rfl)

end Sys2Proof.Machine

namespace Sys2Proof

open Machine

/-- Settles O46: what is sent while nothing is held goes out in order, and each change of Bus Master Enable or of the power
state ends in one flush. -/
theorem hostTraffic : Obligations.HostTraffic := by
  unfold Obligations.HostTraffic
  refine ⟨?traffic, ?bus⟩
  case traffic =>
    intro s f
    refine ⟨fun htalks hpage hdirty hheld hopen => shadowWrite_sends s htalks hpage hdirty hheld hopen, ?cq, ?eq, ?unmask, ?table⟩
    case cq =>
      intro n hsince htime hdue
      refine ⟨_, congrArg Host.Outcome.next (if_neg ?_), ?_, fun hdirty => ?_⟩
      · rintro (h | h | h)
        · exact hsince h
        · exact htime h
        · exact Nat.not_lt.2 hdue h
      · rw [State.modFl_fl, (Flue.vecDue_rings _ _).1, Tab.get_set_self _ _ _ n.isLt]
      · exact Flue.vecDue_of_dirty _ _ hdirty
    case eq =>
      intro n hsince htime hdue
      refine ⟨_, congrArg Host.Outcome.next (if_neg ?_), ?_, fun hdirty => ?_⟩
      · rintro (h | h | h)
        · exact hsince h
        · exact htime h
        · exact Nat.not_lt.2 hdue h
      · rw [State.modFl_fl, (Flue.vecDue_rings _ _).2, Tab.get_set_self _ _ _ n.isLt]
      · exact Flue.vecDue_of_dirty _ _ hdirty
    case unmask =>
      intro e v hbar hv hpend htalk hheld
      exact ⟨_, congrArg Host.Outcome.next (if_pos hbar), s.putMsix_unmask e.toNat v e.isLt hv hpend htalk hheld⟩
    case table =>
      intro e v hbar hpend m put
      have hput : ∀ dw : BitVec 2, exec (.msixTableWrite e dw v) s = .next (s.putMsix e.toNat dw.toNat v) :=
        fun dw => congrArg Host.Outcome.next (if_pos hbar)
      refine ⟨(hput 0).trans ?_, (hput 1).trans ?_, (hput 2).trans ?_, (hput 3).trans ?_⟩
      · rw [s.putMsix_of_idle _ _ v hpend] <;> rfl
      · rw [s.putMsix_of_idle _ _ v hpend] <;> rfl
      · rw [s.putMsix_of_idle _ _ v hpend] <;> rfl
      · rw [s.putMsix_of_idle _ _ v hpend] <;> rfl
  case bus =>
    intro s hon f
    refine ⟨fun hread => ?_, fun on => ?_, fun d3 pme => ?_, ?_⟩
    · exact congrArg Host.Outcome.next (if_pos (by rw [hon, show s.fl.reading = false from hread] <;> rfl))
    · refine ⟨_, congrArg Host.Outcome.next (if_pos hon), ?_, ?_, ?_⟩
      · obtain ⟨out, held, l1, h⟩ := Flue.flush_frame { s.fl with bme := on }
        rw [State.modFl_fl, h]
      · intro htrue hd3
        exact Flue.flush_of_talks { s.fl with bme := on } (by rw [Flue.canTalk, htrue, show s.fl.d3hot = false from hd3] <;> rfl)
      · intro hfalse
        rw [State.modFl_fl, Flue.flush_of_silent { s.fl with bme := on } (by rw [Flue.canTalk, hfalse] <;> rfl)]
        exact ⟨rfl, rfl⟩
    · refine ⟨_, congrArg Host.Outcome.next (if_pos hon), ?_, ?_, ?_, ?_⟩
      · obtain ⟨out, held, l1, h⟩ := Flue.flush_frame { s.fl with d3hot := d3, pmeEn := pme }
        rw [State.modFl_fl, h]
      · obtain ⟨out, held, l1, h⟩ := Flue.flush_frame { s.fl with d3hot := d3, pmeEn := pme }
        rw [State.modFl_fl, h]
      · intro hd3 hbme
        exact Flue.flush_of_talks { s.fl with d3hot := d3, pmeEn := pme }
          (by rw [Flue.canTalk, hd3, show s.fl.bme = true from hbme] <;> rfl)
      · intro hd3
        have hflush := Flue.flush_of_silent { s.fl with d3hot := d3, pmeEn := pme } (by rw [Flue.canTalk, hd3, Bool.not_true, Bool.and_false])
        refine ⟨?_, ?_, ?_⟩
        · rw [State.modFl_fl, hflush]
        · rw [State.modFl_fl, hflush]
        · rw [State.barOn, State.modFl_fl, hflush, hd3, Bool.not_true, Bool.and_false]
    · refine ⟨_, congrArg Host.Outcome.next (if_pos hon), rfl, rfl, rfl, rfl, fun i hi => ⟨?_, ?_⟩, fun i hi => ?_, rfl, rfl, rfl⟩
      · exact congrArg SqRing.en (Tab.get_map s.fl.sqs _ i hi)
      · exact congrArg CqRing.en (Tab.get_map s.fl.cqs _ i hi)
      · exact congrArg EqRing.en (Tab.get_map s.fl.eqs _ i hi)

end Sys2Proof
end

section
/-! What the fetch of a line leaves of the cores (sections 3.3, 3.4). -/

namespace Sys2Proof.Machine

theorem Core.askFill_frame (k : Core) (l : BitVec 16) : ∃ fi sq, k.askFill l = { k with fills := fi, slotq := sq } := by
  unfold Core.askFill Core.askSlot
  split
  · exact ⟨_, _, rfl⟩
  · split <;> exact ⟨_, _, rfl⟩

/-- A core once it has looked up the line of thread `t`: its fetch and the thread's line buffer may differ, and a READY
thread may be BLOCKED. -/
structure Core.Fetches (k k' : Core) (t : ThId) : Prop where
  rest : k' = { k with th := k'.th, icache := k'.icache, fills := k'.fills, slotq := k'.slotq }
  others : ∀ v : ThId, v ≠ t → k'.th.get v.toNat = k.th.get v.toNat
  own : ∃ b w st, k'.th.get t.toNat = { k.th.get t.toNat with buf := b, want := w, st := st } ∧
    (st = (k.th.get t.toNat).st ∨ (k.th.get t.toNat).st = .ready ∧ st = .blocked)
  empty : k.icache = [] → k'.icache = []

theorem Core.Fetches.refl (k : Core) (t : ThId) : k.Fetches k t where
  rest := rfl
  others _ _ := rfl
  own := ⟨_, _, _, rfl, Or.inl rfl⟩
  empty h := h

theorem State.fetchLine_frame (s : State) (c : CoreId) (t : ThId) :
    ∃ f, s.fetchLine c t = s.modCore c f ∧ (s.core c).Fetches (f (s.core c)) t := by
  have hne : ∀ v : ThId, v ≠ t → t.toNat ≠ v.toNat := fun v h e => h (BitVec.eq_of_toNat_eq e.symm)
  unfold State.fetchLine
  dsimp only
  split_ifs
  · exact ⟨id, (s.modCore_id c id rfl).symm, Core.Fetches.refl _ t⟩
  · exact ⟨id, (s.modCore_id c id rfl).symm, Core.Fetches.refl _ t⟩
  · split
    · next l hl =>
      refine ⟨_, rfl, rfl, fun v hv => Tab.get_modify_ne _ _ _ _ (hne v hv), ⟨_, _, _, Tab.get_modify_self _ _ _ t.isLt, Or.inl rfl⟩, ?_⟩
      intro he
      have hnone : (s.core c).icache.find? (fun l => l.line = lineOf (s.th c t).pc) = none := by rw [he] <;> rfl
      cases hl.symm.trans hnone
    · refine ⟨_, rfl, ?_⟩
      generalize hk : (s.core c).modTh t _ = k
      obtain ⟨fi, sq, hask⟩ := k.askFill_frame (lineOf (s.th c t).pc)
      rw [hask]
      subst hk
      refine ⟨rfl, fun v hv => Tab.get_modify_ne _ _ _ _ (hne v hv), ⟨_, _, _, Tab.get_modify_self _ _ _ t.isLt, ?_⟩, fun he => he⟩
      by_cases hr : ((s.core c).th.get t.toNat).st = .ready
      · exact Or.inr ⟨hr, if_pos hr⟩
      · exact Or.inl (if_neg hr)

/-! ## Its threads -/

theorem State.fetchLine_th_ne (s : State) (c : CoreId) (t v : ThId) (h : v ≠ t) : (s.fetchLine c t).th c v = s.th c v := by
  obtain ⟨f, hf, hk⟩ := s.fetchLine_frame c t
  rw [hf, State.th, State.core_modCore_self]
  exact hk.others v h

theorem State.fetchLine_th_self (s : State) (c : CoreId) (t : ThId) : ∃ b w st,
    (s.fetchLine c t).th c t = { s.th c t with buf := b, want := w, st := st } ∧
    (st = (s.th c t).st ∨ (s.th c t).st = .ready ∧ st = .blocked) := by
  obtain ⟨f, hf, hk⟩ := s.fetchLine_frame c t
  rw [hf, State.th, State.core_modCore_self]
  exact hk.own

theorem State.fetchLine_icache (s : State) (c : CoreId) (t : ThId) (h : (s.core c).icache = []) :
    ((s.fetchLine c t).core c).icache = [] := by
  obtain ⟨f, hf, hk⟩ := s.fetchLine_frame c t
  rw [hf, State.core_modCore_self]
  exact hk.empty h

theorem State.fetchLine_icLock (s : State) (c : CoreId) (t : ThId) :
    ((s.fetchLine c t).core c).icLock = (s.core c).icLock := by
  obtain ⟨f, hf, hk⟩ := s.fetchLine_frame c t
  rw [hf, State.core_modCore_self, hk.rest]

/-- A thread that is READY or BLOCKED, and no more than that of its fetch, after its line has been looked up. -/
theorem State.fetchLine_runs (s : State) (c : CoreId) (t : ThId) (h : (s.th c t).st = .ready ∨ (s.th c t).st = .blocked) :
    ((s.fetchLine c t).th c t).st = .ready ∨ ((s.fetchLine c t).th c t).st = .blocked := by
  obtain ⟨b, w, st, he, hst⟩ := s.fetchLine_th_self c t
  rw [he]
  rcases hst with rfl | ⟨-, rfl⟩
  · exact h
  · exact Or.inr rfl

/-- Every thread of a core whose I-cache is empty finds no line there. -/
theorem State.refetch_icache (s : State) (c : CoreId) (h : (s.core c).icache = []) :
    ((s.refetch c).core c).icache = [] ∧ ((s.refetch c).core c).icLock = (s.core c).icLock := by
  refine List.foldlRecOn (motive := fun q : State => (q.core c).icache = [] ∧ (q.core c).icLock = (s.core c).icLock)
    (List.range 8) _ ⟨h, rfl⟩ ?_
  intro q ⟨hic, hlock⟩ i _
  dsimp only
  split
  · exact ⟨q.fetchLine_icache c _ hic, (q.fetchLine_icLock c _).trans hlock⟩
  · exact ⟨hic, hlock⟩

/-- An operation on the threads that a mask names, each of which touches its own thread alone, seen from one thread. -/
theorem State.modMask_th (c : CoreId) (m : BitVec 8) (f : State → ThId → State)
    (hf : ∀ q t v, v ≠ t → (f q t).th c v = q.th c v) (s : State) (v : ThId) :
    ∃ q : State, q.th c v = s.th c v ∧ (s.modMask m f).th c v = if m.getLsbD v.toNat then (f q v).th c v else s.th c v := by
  have hne : ∀ j, j < 8 → j ≠ v.toNat → v ≠ BitVec.ofNat 3 j := by
    rintro j hj h rfl
    exact h (by rw [BitVec.toNat_ofNat, Nat.mod_eq_of_lt hj])
  have hv : (BitVec.ofNat 3 v.toNat : ThId) = v := BitVec.eq_of_toNat_eq (by simp)
  obtain ⟨q, hq, hlast⟩ := foldl_range_own (fun q : State => q.th c v)
    (fun (q : State) i => if m.getLsbD i then f q (BitVec.ofNat 3 i) else q) 8 v.toNat v.isLt
    (fun q j hj h => by
      split
      · exact hf q _ v (hne j hj h)
      · rfl) s
  refine ⟨q, hq, hlast.trans ?_⟩
  rw [hv]
  split
  · rfl
  · exact hq

end Sys2Proof.Machine
end

section
/-! The debug port (section 15.4): the instructions of the TAP and the debug requests. -/

namespace Sys2Proof.Machine

section Port

variable {s : State}

/-- The state once the request `r` of operation `op` has ended with status `st`. -/
def State.dbgDone (s : State) (op : DbgOp) (r : DbgReq) (st : BitVec 4) (data : Option Cell) : State :=
  s.modTap (fun x => { x with dbgOp := op, dbgReq := r, dbgStat := st, dbgData := data })

/-- The TAP holds DBG_ACCESS and no request is PENDING. -/
def State.dbgIdle (s : State) : Prop := s.tapOn = true ∧ s.pil.tap.ir = .dbgAccess ∧ s.pil.tap.dbgStat ≠ 1

/-- The TAP has taken the request `r` of operation `op`. -/
def State.dbgAsked (s : State) (op : DbgOp) (r : DbgReq) : State := s.modTap (fun t => { t with dbgOp := op, dbgReq := r })

theorem State.dbgSubmit_of_idle (h : s.dbgIdle) (op : DbgOp) (r : DbgReq) : s.dbgSubmit op r = (s.dbgAsked op r).dbgServe := by
  obtain ⟨hon, hir, hstat⟩ := h
  exact if_neg (by rw [hon, hir, decide_eq_false hstat] <;> decide)

theorem State.dbgSubmit_of_busy (h : s.pil.tap.dbgStat = 1) (op : DbgOp) (r : DbgReq) : s.dbgSubmit op r = s :=
  if_pos (by simp [h])

/-- A request whose right stands, while the Firebox runs and its link carries traffic, acts. -/
structure State.DbgOpen (s : State) (bit : Nat) : Prop where
  idle : s.dbgIdle
  right : s.rights.getLsbD bit = true
  live : s.dbgLive = true
  trained : s.fb.plink.training = false

theorem State.dbgServe_right {op : DbgOp} {r : DbgReq} {bit : Nat} (hop : dbgRight op r = some bit) :
    (s.dbgAsked op r).dbgServe = if !s.rights.getLsbD bit then (s.dbgAsked op r).dbgEnd 2
      else if !s.dbgLive then (s.dbgAsked op r).dbgEnd 6
      else if s.fb.plink.training then (s.dbgAsked op r).dbgEnd 1
      else (s.dbgAsked op r).dbgAct op r := by
  have hserve : (s.dbgAsked op r).dbgServe = (match dbgRight op r with
    | none => (s.dbgAsked op r).dbgEnd 0
    | some bit =>
      if !s.rights.getLsbD bit then (s.dbgAsked op r).dbgEnd 2
      else if !s.dbgLive then (s.dbgAsked op r).dbgEnd 6
      else if s.fb.plink.training then (s.dbgAsked op r).dbgEnd 1
      else (s.dbgAsked op r).dbgAct op r) := rfl
  rw [hserve, hop]

theorem State.dbgSubmit_of_open {bit : Nat} (h : s.DbgOpen bit) {op : DbgOp} {r : DbgReq} (hop : dbgRight op r = some bit) :
    s.dbgSubmit op r = (s.dbgAsked op r).dbgAct op r := by
  obtain ⟨hidle, hright, hlive, htrained⟩ := h
  rw [State.dbgSubmit_of_idle hidle, State.dbgServe_right hop, hright, hlive, htrained] <;> rfl

/-- A request for a halt as the rights and the life of the Firebox let it through (R409, R410). -/
theorem State.dbgSubmit_halt_of_idle (h : s.dbgIdle) (r : DbgReq) :
    (s.rights.getLsbD 0 = false → s.dbgSubmit .halt r = s.dbgDone .halt r 2 none) ∧
    (s.rights.getLsbD 0 = true → s.dbgLive = false → s.dbgSubmit .halt r = s.dbgDone .halt r 6 none) ∧
    (s.rights.getLsbD 0 = true → s.dbgLive = true → s.fb.plink.training = true →
      s.dbgSubmit .halt r = s.dbgDone .halt r 1 none) := by
  have hserve := (State.dbgSubmit_of_idle h .halt r).trans (State.dbgServe_right (op := .halt) (r := r) rfl)
  refine ⟨fun hr => ?_, fun hr hl => ?_, fun hr hl ht => ?_⟩
  · rw [hserve, hr] <;> rfl
  · rw [hserve, hr, hl] <;> rfl
  · rw [hserve, hr, hl, ht] <;> rfl

/-! ## Reads and writes of memory (R412) -/

theorem region_of_local {a : Nat} (h : a < 0x4000) : region a = .local_ := if_pos h

theorem isDev_of_local {a : Nat} (h : a < 0x4000) : isDev a = false := by
  have : ¬ 0x0F0000 ≤ a := by omega
  simp [isDev, this]

theorem accFault_of_local (s : State) {a : Nat} (h : a < 0x4000) (store : Bool) : accFault s true a .cell store = none := by
  simp [accFault, isDev_of_local h, region_of_local h]

theorem State.dbgRead_of_local (s : State) (r : DbgReq) (hsp : r.space = 0) (h : r.addr.toNat < 0x4000)
    (hsb : (s.core r.core).sb = []) : s.dbgRead r = .data (memRead (s.core r.core).lmem r.addr.toNat) := by
  have hcell : s.dbgCell r.core r.addr.toNat = .data (memRead (s.core r.core).lmem r.addr.toNat) := by
    have hmiss : sbLook (s.core r.core).sb r.addr.toNat .cell = .miss := by rw [hsb] <;> rfl
    have hfree : s.lineHeldByOther r.core r.addr.toNat = false := by
      simp [State.lineHeldByOther, region_of_local h]
    simp [State.dbgCell, hmiss, isDev_of_local h, hfree, State.cellMem, region_of_local h]
  simp [State.dbgRead, hsp, accFault_of_local s h, hcell]

theorem State.dbgRead_of_program (s : State) (r : DbgReq) (hsp : r.space = 1) (h : progMapped r.addr.toNat = true) :
    s.dbgRead r = .data ((s.sylAt r.addr.toNat).setWidth 24) := by
  simp [State.dbgRead, hsp, h]

theorem State.dbgRead_of_held (s : State) (r : DbgReq) (hsp : r.space = 0) (hlo : 0x100000 ≤ r.addr.toNat)
    (hhi : r.addr.toNat < 0x200000) (hsb : (s.core r.core).sb = []) (hheld : s.lineHeldByOther r.core r.addr.toNat = true) :
    s.dbgRead r = .waits := by
  have hreg : region r.addr.toNat = .shared := by
    unfold region
    rw [if_neg (by omega), if_neg (by omega), if_neg (by omega), if_neg (by omega), if_neg (by omega), if_neg (by omega),
      if_pos hhi]
  have hdev : isDev r.addr.toNat = false := isDev_of_region (Or.inr hreg)
  have hcell : s.dbgCell r.core r.addr.toNat = .waits := by
    have hmiss : sbLook (s.core r.core).sb r.addr.toNat .cell = .miss := by rw [hsb] <;> rfl
    simp [State.dbgCell, hmiss, hdev, hheld]
  simp [State.dbgRead, hsp, accFault, hdev, hreg, hcell]

/-- A read outside the thread cells changes nothing before it. -/
theorem State.beforeRead_of_space (s : State) (r : DbgReq) (h : r.space ≠ 3) : s.beforeRead r = s := by
  rw [State.beforeRead, decide_eq_false h] <;> rfl

/-- The youngest store of a cell serves its load. -/
theorem sbLook_pushStore (k : Core) (t : ThId) (a : Cell) (v : Dbl) (dbg : Bool) :
    sbLook (k.pushStore t a .cell v dbg).sb a.toNat .cell = .hit v := by
  have hmeet : spansMeet (spanOf a.toNat .cell) (spanOf a.toNat .cell) = true := by
    simp [spansMeet, spanOf]
  simp [sbLook, Core.pushStore, List.filter_append, hmeet]

/-! ## Halt, resume and step (R413, R414) -/

/-- A thread that is asked to halt (R413). -/
def Thread.askHalt (u : Thread) : Thread :=
  if u.st = .ready ∨ u.st = .waiting ∨ u.st = .blocked then { u with haltReq := true } else u

theorem Thread.askHalt_haltReq (u : Thread) : u.askHalt.haltReq =
    (u.haltReq || decide (u.st = .ready ∨ u.st = .waiting ∨ u.st = .blocked)) := by
  unfold Thread.askHalt
  split
  · next h => simp [h]
  · next h => simp [h]

theorem getLsbD_dbgMask (r : DbgReq) (v : ThId) : (dbgMask r).getLsbD v.toNat = r.data.getLsbD v.toNat := by
  rw [dbgMask, BitVec.getLsbD_setWidth, decide_eq_true v.isLt, Bool.true_and]

theorem State.dbgDoHalt_haltReq (s : State) (r : DbgReq) (v : ThId) : ((s.dbgDoHalt r).th r.core v).haltReq =
    ((s.th r.core v).haltReq || (r.data.getLsbD v.toNat &&
      decide ((s.th r.core v).st = .ready ∨ (s.th r.core v).st = .waiting ∨ (s.th r.core v).st = .blocked))) := by
  obtain ⟨q, hq, hv⟩ := State.modMask_th r.core (dbgMask r) (fun q t => q.modTh r.core t Thread.askHalt)
    (fun q t v h => State.th_modTh_ne q r.core t v _ (Ne.symm h)) s v
  have hth : (s.dbgDoHalt r).th r.core v = _ := hv
  rw [hth, getLsbD_dbgMask]
  cases r.data.getLsbD v.toNat with
  | false => simp
  | true => rw [if_pos rfl, State.th_modTh_self, hq, Thread.askHalt_haltReq, Bool.true_and]

/-- A HALTED thread that resumes, while the line at its PC is looked up (R413). -/
def State.resumed (s : State) (c : CoreId) (t : ThId) : State :=
  if (s.th c t).st = .halted then
    let q1 := s.modTh c t (fun u => { u.resume with brkHit := false })
    if (q1.th c t).st = .stopped then q1 else q1.fetchLine c t
  else s

theorem State.resumed_th_ne (s : State) (c : CoreId) (t v : ThId) (h : v ≠ t) : (s.resumed c t).th c v = s.th c v := by
  have hmod := State.th_modTh_ne s c t v (fun u => { u.resume with brkHit := false }) (Ne.symm h)
  unfold State.resumed
  dsimp only
  split_ifs
  · exact hmod
  · exact (State.fetchLine_th_ne _ c t v h).trans hmod
  · rfl

theorem Thread.resume_pc (u : Thread) : u.resume.pc = u.pc := by
  unfold Thread.resume; split <;> rfl

theorem Thread.resume_st (u : Thread) : (u.stopReq = true → u.resume.st = .stopped) ∧
    (u.stopReq = false → u.resume.st = .ready ∨ u.resume.st = .blocked) := by
  refine ⟨fun h => ?_, fun h => ?_⟩
  · rw [Thread.resume, if_pos h]
  · rw [Thread.resume, h]
    cases u.want.isNone
    · exact Or.inr rfl
    · exact Or.inl rfl

theorem State.resumed_th_self (s : State) (c : CoreId) (t : ThId) (h : (s.th c t).st = .halted) :
    ((s.resumed c t).th c t).pc = (s.th c t).pc ∧
    ((s.th c t).stopReq = true → ((s.resumed c t).th c t).st = .stopped) ∧
    ((s.th c t).stopReq = false → ((s.resumed c t).th c t).st = .ready ∨ ((s.resumed c t).th c t).st = .blocked) := by
  obtain ⟨hstop, hrun⟩ := (s.th c t).resume_st
  have hself := State.th_modTh_self s c t (fun u => { u.resume with brkHit := false })
  have hpc : ((s.modTh c t (fun u => { u.resume with brkHit := false })).th c t).pc = (s.th c t).pc := by
    rw [hself]; exact Thread.resume_pc _
  unfold State.resumed
  dsimp only
  rw [if_pos h]
  split
  · next hs =>
    refine ⟨hpc, fun _ => hs, fun hno => ?_⟩
    rw [hself] at hs ⊢
    exact hrun hno
  · next hs =>
    refine ⟨?_, fun hyes => absurd (by rw [hself]; exact hstop hyes) hs, fun hno => ?_⟩
    · obtain ⟨b, w, st, he, -⟩ := State.fetchLine_th_self (s.modTh c t (fun u => { u.resume with brkHit := false })) c t
      rw [he]; exact hpc
    · exact State.fetchLine_runs _ c t (by rw [hself]; exact hrun hno)

theorem State.stopRuns_frame (s : State) : ∃ f, s.stopRuns = s.modFl f := by
  refine State.foldl_modFl _ (fun q r => ?_) _ _
  split
  · dsimp only
    split
    · exact q.finish_frame _ _ _
    · exact ⟨id, rfl⟩
  · exact ⟨id, rfl⟩

theorem State.dbgDoResume_th (s : State) (r : DbgReq) (v : ThId) (hbit : r.data.getLsbD v.toNat = true) :
    ∃ q : State, q.th r.core v = s.th r.core v ∧ (s.dbgDoResume r).th r.core v = (q.resumed r.core v).th r.core v := by
  obtain ⟨q, hq, hv⟩ := State.modMask_th r.core (dbgMask r) (fun q t => q.resumed r.core t)
    (fun q t v h => q.resumed_th_ne r.core t v h) s v
  rw [getLsbD_dbgMask, hbit, if_pos rfl] at hv
  obtain ⟨f, hf⟩ := (s.modMask (dbgMask r) (fun q t => q.resumed r.core t)).stopRuns_frame
  have hth : (s.dbgDoResume r).th r.core v = ((s.modMask (dbgMask r) (fun q t => q.resumed r.core t)).stopRuns).th r.core v := rfl
  refine ⟨q, hq, ?_⟩
  rw [hth, hf]
  exact hv

theorem State.dbgDoStep_of_halted (s : State) (r : DbgReq) (h : (s.th r.core r.thread).st = .halted)
    (hstop : (s.th r.core r.thread).stopReq = false) :
    (s.dbgDoStep r).pil.tap.dbgStat = 0 ∧ ((s.dbgDoStep r).th r.core r.thread).step = some (r.data.getLsbD 0) ∧
    ((s.dbgDoStep r).th r.core r.thread).pc = (s.th r.core r.thread).pc := by
  have hdo : s.dbgDoStep r = (((s.modTh r.core r.thread (fun u =>
      { u.resume with step := if u.stopReq then none else some (r.data.getLsbD 0), brkHit := false })).fetchLine r.core r.thread).dbgEnd 0) :=
    if_neg (by rw [h]; exact not_not_intro rfl)
  rw [hdo]
  obtain ⟨b, w, st, he, -⟩ := State.fetchLine_th_self (s.modTh r.core r.thread (fun u =>
      { u.resume with step := if u.stopReq then none else some (r.data.getLsbD 0), brkHit := false })) r.core r.thread
  rw [State.th_modTh_self] at he
  refine ⟨rfl, (congrArg Thread.step he).trans ?_, (congrArg Thread.pc he).trans (Thread.resume_pc _)⟩
  dsimp only
  rw [hstop] <;> rfl

end Port

end Sys2Proof.Machine

namespace Sys2Proof

open Machine

/-- Settles O60: a request that its right, the Firebox and the link let through acts at once, and each operation's effect on
the threads is that of its own thread. -/
theorem debugPort : Obligations.DebugPort := by
  unfold Obligations.DebugPort
  intro s tap ends idle open_
  have hasked : ∀ (op : DbgOp) (r : DbgReq) (st : BitVec 4) (data : Option Cell),
      (s.dbgAsked op r).dbgEnd st data = ends s op r st data := fun _ _ _ _ => rfl
  have hopen : ∀ bit, open_ bit → s.DbgOpen bit := fun bit ⟨hidle, hright, hlive, htrained⟩ => ⟨hidle, hright, hlive, htrained⟩
  refine ⟨?instruction, ?capture, ?boundary, ?busy, ?idle, ?memory, ?threads⟩
  case instruction =>
    intro ir hon
    refine ⟨fun hok => ?_, fun hno => ?_⟩
    · refine congrArg Host.Outcome.next ((if_neg (by rw [hon]; decide)).trans (if_pos hok))
    · refine congrArg Host.Outcome.next ((if_neg (by rw [hon]; decide)).trans (if_neg (by rw [hno]; decide)))
  case capture =>
    change (BitVec.ofNat 8 (1 + 4 * b2n tap.denied + 8 * b2n s.hs.lanes.p.unlocked)).getLsbD 0 = true ∧
      (BitVec.ofNat 8 (1 + 4 * b2n tap.denied + 8 * b2n s.hs.lanes.p.unlocked)).getLsbD 1 = false ∧
      (BitVec.ofNat 8 (1 + 4 * b2n tap.denied + 8 * b2n s.hs.lanes.p.unlocked)).getLsbD 2 = tap.denied
    generalize tap.denied = d
    generalize s.hs.lanes.p.unlocked = u
    revert d u
    decide
  case boundary =>
    intro bits hon hir
    exact congrArg Host.Outcome.next (if_pos (by simpa [hon] using hir))
  case busy =>
    intro _ _ hstat r
    exact ⟨congrArg Host.Outcome.next (State.dbgSubmit_of_busy hstat .nop r),
      congrArg Host.Outcome.next (State.dbgSubmit_of_busy hstat .halt r)⟩
  case idle =>
    intro hidle r
    obtain ⟨hdenied, hoff, hlink⟩ := State.dbgSubmit_halt_of_idle hidle r
    exact ⟨congrArg Host.Outcome.next (State.dbgSubmit_of_idle hidle .nop r),
      fun hr => congrArg Host.Outcome.next (hdenied hr), fun hr hl => congrArg Host.Outcome.next (hoff hr hl),
      fun hr hl ht => congrArg Host.Outcome.next (hlink hr hl ht)⟩
  case memory =>
    intro hop r a c
    have hact : ∀ {op : DbgOp}, dbgRight op r = some 1 → s.dbgSubmit op r = (s.dbgAsked op r).dbgAct op r :=
      fun h => State.dbgSubmit_of_open (hopen 1 hop) h
    have hread : ∀ {op : DbgOp}, r.space ≠ 3 → (s.dbgAsked op r).beforeRead r = s.dbgAsked op r :=
      fun h => State.beforeRead_of_space _ r h
    refine ⟨fun hsp hmap => ?_, fun hsp ha hsb => ?_, fun hsp hlo hhi hsb hheld => ?_, fun hsp ha => ?_,
      fun hsp ha hroom => ?_, fun hsp hhalt hstop => ?_⟩
    · have hright : ∀ op, op = DbgOp.rd ∨ op = DbgOp.rdx → dbgRight op r = some 1 := by
        rintro op (rfl | rfl) <;> simp [dbgRight, readRight, hsp]
      have hdata : ∀ op, (s.dbgAsked op r).dbgRead r = .data ((s.sylAt a).setWidth 24) :=
        fun op => (s.dbgAsked op r).dbgRead_of_program r hsp hmap
      have hdo : ∀ op effect, (s.dbgAsked op r).dbgDoRead r effect = ends s op r 0 (some ((s.sylAt a).setWidth 24)) := by
        intro op effect
        rw [State.dbgDoRead, hread (by rw [hsp]; decide)]
        simp only [hdata]
        rw [if_neg (by rw [hsp]; simp)]
        exact hasked op r 0 _
      exact ⟨congrArg Host.Outcome.next ((hact (hright .rd (Or.inl rfl))).trans (hdo .rd false)),
        congrArg Host.Outcome.next ((hact (hright .rdx (Or.inr rfl))).trans (hdo .rdx true))⟩
    · refine congrArg Host.Outcome.next ((hact (by simp [dbgRight, readRight, hsp])).trans ?_)
      have hdata := (s.dbgAsked .rd r).dbgRead_of_local r hsp ha hsb
      rw [State.dbgAct, State.dbgDoRead, hread (by rw [hsp]; decide)]
      simp only [hdata]
      exact hasked .rd r 0 _
    · refine congrArg Host.Outcome.next ((hact (by simp [dbgRight, readRight, hsp])).trans ?_)
      have hdata := (s.dbgAsked .rd r).dbgRead_of_held r hsp hlo hhi hsb hheld
      rw [State.dbgAct, State.dbgDoRead, hread (by rw [hsp]; decide)]
      simp only [hdata]
      exact hasked .rd r 1 _
    · refine congrArg Host.Outcome.next ((hact (by simp [dbgRight, writeRight, hsp])).trans ?_)
      have hno : ¬ 0xC0000 ≤ r.addr.toNat := by omega
      rw [State.dbgAct, State.dbgDoWrite]
      simp only [hsp]
      exact if_neg hno
    · refine ⟨_, congrArg Host.Outcome.next (hact (by simp [dbgRight, writeRight, hsp])), ?_⟩
      have hdo : (s.dbgAsked .wr r).dbgAct .wr r = ((s.dbgAsked .wr r).modCore c (fun k =>
          k.pushStore r.thread r.addr .cell (r.data.setWidth 48) (s.rights.getLsbD 2))).dbgEnd 0 := by
        have hnone := accFault_of_local (s.dbgAsked .wr r) ha true
        rw [State.dbgAct, State.dbgDoWrite]
        simp only [hsp]
        exact (if_neg (by rw [hnone]; decide)).trans (if_neg (Nat.not_le.2 hroom))
      rw [hdo]
      refine ⟨rfl, ?_⟩
      have hcore : ∀ q : State, (q.dbgEnd 0).core c = q.core c := fun _ => rfl
      rw [hcore, State.core_modCore_self]
      exact sbLook_pushStore _ _ _ _ _
    · refine congrArg Host.Outcome.next ((hact (by simp [dbgRight, writeRight, hsp])).trans ?_)
      have hno : (s.th c r.thread).st.writable = false := by simp [TState.writable, hhalt, hstop]
      rw [State.dbgAct, State.dbgDoWrite]
      simp only [hsp]
      exact if_pos (by rw [show ((s.dbgAsked .wr r).th r.core r.thread).st.writable = false from hno] <;> rfl)
  case threads =>
    intro hop r c t
    have hact : ∀ {op : DbgOp}, dbgRight op r = some 0 → s.dbgSubmit op r = (s.dbgAsked op r).dbgAct op r :=
      fun h => State.dbgSubmit_of_open (hopen 0 hop) h
    refine ⟨⟨_, congrArg Host.Outcome.next (hact (op := .halt) rfl), rfl, fun v => ?_⟩,
      ⟨_, congrArg Host.Outcome.next (hact (op := .resume) rfl), rfl, fun v hbit hhalt => ?_⟩, fun hhalt hstop => ?_,
      fun hno => ?_, ?_, ?_⟩
    · exact (s.dbgAsked .halt r).dbgDoHalt_haltReq r v
    · obtain ⟨q, hq, hv⟩ := (s.dbgAsked .resume r).dbgDoResume_th r v hbit
      have hself := q.resumed_th_self c v (by rw [hq]; exact hhalt)
      rw [← hv, hq] at hself
      exact hself
    · exact ⟨_, congrArg Host.Outcome.next (hact (op := .step) rfl), (s.dbgAsked .step r).dbgDoStep_of_halted r hhalt hstop⟩
    · refine congrArg Host.Outcome.next ((hact (op := .step) rfl).trans ?_)
      exact if_pos hno
    · exact congrArg Host.Outcome.next (hact (op := .attach) rfl)
    · refine ⟨_, congrArg Host.Outcome.next (hact (op := .inval) rfl), rfl, ?_⟩
      have hinval : (((s.dbgAsked .inval r).modCore c Core.inval).core c).icache = [] := by
        rw [State.core_modCore_self] <;> rfl
      exact (State.refetch_icache _ c hinval).1

end Sys2Proof
end

section
/-! Commands with an input buffer (R286, R325), and the loads of images and bundles (section 12.4). -/

namespace Sys2Proof.Machine

section Begun

variable {s : State} {sq : BitVec 4} {d : Desc} {c : CmdRule}

/-- A command whose descriptor passes every check runs its own part, once the Flue may read its input (R286, R325). -/
theorem command_of_begins_reading (act : Desc → Nat → State → State) (h : Begins s sq d c.op c.named c.states)
    (hread : d.dlen = 0 ∨ s.fl.canTalk = true) (hrange : c.range d = true) (hsize : c.size d = true) :
    command sq c act s = act d s.fl.nextTag (s.begin_ sq.toNat d) := by
  obtain ⟨hnext, hmay, hcode, hzero, hbuf, hlife⟩ := h
  have hgo : ¬ ((!s.mayBegin || decide (d.byte 0 ≠ c.op) || (c.reads && decide (d.dlen ≠ 0) && !s.fl.canTalk)) = true) := by
    rcases hread with hlen | htalk
    · simp [hmay, hcode, hlen]
    · simp [hmay, hcode, htalk]
  simp only [command, hnext]
  rw [if_neg hgo, if_neg (by simp [hzero, hrange]), if_neg (by simp [hbuf, hsize]), if_neg (by simp [hlife])]

/-- The run of a command as it begins. -/
def State.newRun (s : State) (sq : Nat) (d : Desc) : Run :=
  { tag := s.fl.nextTag, sq := sq, cid := BitVec.ofNat 16 (leAt d.bytes 2 2), ord := d.ord, op := BitVec.ofNat 8 (d.byte 0) }

theorem State.begin_runs (s : State) (sq : Nat) (d : Desc) : (s.begin_ sq d).fl.runs = s.fl.runs ++ [s.newRun sq d] := rfl

/-- The command runs on as `f` leaves its run. -/
theorem running_modRun (s : State) (sq : BitVec 4) (d : Desc) (f : Run → Run) (k : RunKind) (todo : List CKind)
    (hf : ∀ r, (f r).tag = r.tag ∧ (f r).sq = r.sq) (hk : (f (s.newRun sq.toNat d)).kind = k)
    (ht : (f (s.newRun sq.toNat d)).todo = todo) {s' : State}
    (hs' : s'.fl.runs = ((s.begin_ sq.toNat d).modRun s.fl.nextTag f).fl.runs) : Running s s' sq k todo := by
  obtain ⟨htag, hsq⟩ := hf (s.newRun sq.toNat d)
  refine ⟨f (s.newRun sq.toNat d), ?_, htag, hsq, hk, ht⟩
  rw [hs']
  refine List.mem_map.2 ⟨s.newRun sq.toNat d, ?_, if_pos rfl⟩
  rw [State.begin_runs]
  exact List.mem_append_right _ (List.mem_singleton.2 rfl)

/-- A command that begins is no other exclusive command (R327). -/
theorem State.begin_exclusiveRuns (s : State) (sq : Nat) (d : Desc) :
    (s.begin_ sq d).exclusiveRuns s.fl.nextTag = s.exclusiveRuns s.fl.nextTag := by
  rw [State.exclusiveRuns, State.begin_runs, List.any_append]
  simp [State.newRun, State.exclusiveRuns]

/-- A commit that is requested goes to the end of those that wait (R265). -/
theorem State.submit_queues (s : State) (k : CKind) (tag : Option Nat) (h4 : s.life ≠ 4) (h7 : s.life ≠ 7) :
    Queues s (s.submit k tag) k := by
  rw [State.submit, if_neg (by simp [h4, h7])]
  exact ⟨_, rfl, rfl, rfl, rfl⟩

theorem State.submit_fl (s : State) (k : CKind) (tag : Option Nat) : (s.submit k tag).fl = s.fl := by
  obtain ⟨v, h⟩ := s.submit_vault k tag
  rw [h]; rfl

/-- What is requested depends on the Hearthstone alone. -/
theorem State.submit_queues_of_hs {s q : State} (k : CKind) (tag : Option Nat) (hq : q.hs = s.hs) (h4 : s.life ≠ 4)
    (h7 : s.life ≠ 7) : Queues s (q.submit k tag) k := by
  have hlife : q.life = s.life := congrArg (fun h : Hearth => lifeOf h.otp.thermo) hq
  have hself := q.submit_queues k tag (hlife ▸ h4) (hlife ▸ h7)
  rw [Queues, hq] at hself
  exact hself

end Begun

/-! ## Images (R334 to R336) -/

theorem State.putSeg_frame (s : State) (g : ImgSeg) : (s.putSeg g).fl = s.fl ∧ (s.putSeg g).img = s.img ∧ (s.putSeg g).hs = s.hs := by
  unfold State.putSeg
  split
  · exact ⟨rfl, rfl, rfl⟩
  · exact ⟨rfl, rfl, rfl⟩
  · refine List.foldlRecOn (motive := fun q : State => q.fl = s.fl ∧ q.img = s.img ∧ q.hs = s.hs) (List.range 16) _ ⟨rfl, rfl, rfl⟩ ?_
    intro q hq i _
    split
    · exact hq
    · exact hq

/-- The Firebox's memories after a segment follow from those before it. -/
theorem State.putSeg_fb (a b : State) (g : ImgSeg) (h : a.fb = b.fb) : (a.putSeg g).fb = (b.putSeg g).fb := by
  have hcores : ∀ (q : State) (l : List Nat) (f : Nat → Core → Core), (l.foldl (fun (q : State) i =>
      if g.cores.getLsbD i then q.modCore (BitVec.ofNat 4 i) (f i) else q) q).fb = q.fb := by
    intro q l f
    refine List.foldlRecOn (motive := fun r : State => r.fb = q.fb) l _ rfl ?_
    intro r hr i _
    split <;> exact hr
  unfold State.putSeg
  split
  · rw [State.modFb_fb, State.modFb_fb, h]
  · rw [State.modFb_fb, State.modFb_fb, h]
  · rw [hcores a, hcores b, h]

theorem State.foldl_putSeg (l : List ImgSeg) : ∀ a b : State, a.fb = b.fb →
    (l.foldl State.putSeg a).fb = (l.foldl State.putSeg b).fb ∧ (l.foldl State.putSeg a).fl = a.fl ∧
    (l.foldl State.putSeg a).img = a.img := by
  induction l with
  | nil => exact fun a b h => ⟨h, rfl, rfl⟩
  | cons g l ih =>
    intro a b h
    obtain ⟨hfl, himg, -⟩ := a.putSeg_frame g
    obtain ⟨hfb, hfl', himg'⟩ := ih (a.putSeg g) (b.putSeg g) (State.putSeg_fb a b g h)
    exact ⟨hfb, hfl'.trans hfl, himg'.trans himg⟩

theorem State.putImage_frame (s : State) (b : List Byte) : (s.putImage b).fl = s.fl ∧ (s.putImage b).img = s.img := by
  unfold State.putImage
  split
  · next p _ => exact (State.foldl_putSeg p.2 s.invalAll s.invalAll rfl).2
  · exact ⟨rfl, rfl⟩

theorem State.putImage_fb (s q : State) (b : List Byte) (p : List (List Byte) × List ImgSeg) (hp : imageParts b = some p)
    (h : q.fb = s.fb) : (q.putImage b).fb = (p.2.foldl State.putSeg s.invalAll).fb := by
  rw [State.putImage, hp]
  exact (State.foldl_putSeg p.2 q.invalAll s.invalAll h).1

/-- Two changes of the kind of one run are the last. -/
theorem State.modRun_kind_twice (s : State) (t : Nat) (k k' : RunKind) :
    ((s.modRun t (fun y => { y with kind := k })).modRun t (fun y => { y with kind := k' })) =
      s.modRun t (fun y => { y with kind := k' }) := by
  have hruns : ∀ l : List Run, (l.map (fun r => if r.tag = t then { r with kind := k } else r)).map
      (fun r => if r.tag = t then { r with kind := k' } else r) = l.map (fun r => if r.tag = t then { r with kind := k' } else r) := by
    intro l
    rw [List.map_map]
    refine List.map_congr_left (fun r _ => ?_)
    by_cases h : r.tag = t
    · simp [h]
    · simp [h]
  have hfl : ((s.modRun t (fun y => { y with kind := k })).modRun t (fun y => { y with kind := k' })).fl =
      (s.modRun t (fun y => { y with kind := k' })).fl :=
    congrArg (fun l => ({ s.fl with runs := l } : Flue)) (hruns s.fl.runs)
  exact congrArg (fun f => ({ s with fl := f } : State)) hfl

theorem State.tryImage_of_free (s : State) (t : Nat) (b : List Byte) (h : s.fb.holds = []) :
    s.tryImage t b = (s.modRun t (fun y => { y with kind := .image 0 b })).putImage b :=
  if_neg (by rw [h]; decide)

theorem State.tryImage_of_held (s : State) (t : Nat) (b : List Byte) (h : s.fb.holds ≠ []) : s.tryImage t b = s := by
  have hempty : s.fb.holds.isEmpty = false := by simpa using h
  exact if_pos (by rw [hempty]; decide)

/-- An IMAGE_LOAD whose checks of the device have passed: what the header of the image makes of it (R335). -/
def State.loadImage (r : State) (run : Prop) [Decidable run] (t target : Nat) (b : List Byte) (st : Byte) : State :=
  if st ≠ 0 then (if run then r.wipeImage else r).finish t st
  else if run then
    ({ (r.modRun t (fun y => { y with kind := .imageWait b })) with img := { r.img with runLoad := true } } : State).tryImage t b
  else r.modRun t (fun y => { y with kind := .image target b })

theorem exec_imageLoad_of_begins {s : State} {sq : BitVec 4} {d : Desc} (x : List Byte) (h : Begins s sq d 0x10 [0] [1, 2, 3])
    (hp : d.p 0 ≤ 2) (hlo : 64 ≤ d.dlen) (hhi : d.dlen ≤ 196608) (hdown : s.fb.hearth.down = false)
    (hfault : s.hs.vault.fault = false) (hexcl : s.exclusiveRuns s.fl.nextTag = false) (htalk : s.fl.canTalk = true)
    (hstop : d.p 0 = 0 → s.allStopped = true) :
    exec (.imageLoad sq (some x)) s = .next ((s.begin_ sq.toNat d).loadImage (d.p 0 = 0) s.fl.nextTag (d.p 0) (bytesAt x 0 d.dlen)
      (s.imageHead (bytesAt x 0 d.dlen) d.dlen)) := by
  have hrun : ¬ (d.p 0 = 0 ∧ (!(s.begin_ sq.toNat d).allStopped) = true) := by
    rintro ⟨h0, hno⟩
    have hst : (s.begin_ sq.toNat d).allStopped = true := hstop h0
    rw [hst] at hno
    cases hno
  have hgone : (s.begin_ sq.toNat d).vaultGone = false := by
    change (s.fb.hearth.down || s.hs.vault.fault) = false
    rw [hdown, hfault] <;> rfl
  refine congrArg Host.Outcome.next ((command_of_begins_reading _ h (Or.inr htalk) (decide_eq_true hp)
    (by simp [hlo, hhi])).trans ?_)
  dsimp only
  rw [if_neg (by rw [State.begin_exclusiveRuns, hexcl]; decide), if_neg (by rw [hgone]; decide), if_neg hrun]
  rfl

theorem exec_bundleLoad_of_begins {s : State} {sq : BitVec 4} {d : Desc} (x : List Byte) (h : Begins s sq d 0x11 [] [1, 2, 3])
    (hlo : 64 ≤ d.dlen) (hhi : d.dlen ≤ 16384) (hdown : s.fb.hearth.down = false) (hfault : s.hs.vault.fault = false)
    (hexcl : s.exclusiveRuns s.fl.nextTag = false) (htalk : s.fl.canTalk = true) :
    exec (.bundleLoad sq (some x)) s = .next (if s.bundleHead (bytesAt x 0 d.dlen) ≠ 0 then
        (s.begin_ sq.toNat d).finish s.fl.nextTag (s.bundleHead (bytesAt x 0 d.dlen))
      else (s.begin_ sq.toNat d).modRun s.fl.nextTag (fun y => { y with kind := .bundle (bytesAt x 0 d.dlen) })) := by
  have hgone : (s.begin_ sq.toNat d).vaultGone = false := by
    change (s.fb.hearth.down || s.hs.vault.fault) = false
    rw [hdown, hfault] <;> rfl
  refine congrArg Host.Outcome.next ((command_of_begins_reading _ h (Or.inr htalk) rfl (by simp [hlo, hhi])).trans ?_)
  dsimp only
  rw [if_neg (by rw [State.begin_exclusiveRuns, hexcl]; decide), if_neg (by rw [hgone]; decide)]
  rfl

theorem exec_verificationEnd {s : State} {r : Run} (h : s.fl.runs.find? Run.verifying = some r) :
    exec .verificationEnd s = .next (s.verified r) := by
  refine congrArg Host.Outcome.next ?_
  rw [h]

/-- The end of the verification of an image (R336). -/
theorem State.verified_image (s : State) (r : Run) (k : Nat) (b : List Byte) (h : r.kind = .image k b) : s.verified r =
    if k = 0 then
      if !imageSigned b then s.wipeImage.finish r.tag 0x13
      else if imageSvn b ≤ s.hs.vault.svnImg then (s.takeImage b 2).finish r.tag 0 (leBytes 4 (imageId b))
      else (s.modRun r.tag (fun x => { x with kind := .imageRun (BitVec.ofNat 32 (imageId b)) (imageThreads b),
                                              result := leBytes 4 (imageId b) })).submit (.svnFloor 0 (imageSvn b)) (some r.tag)
    else if !imageSigned b then (s.finish r.tag 0x13).setEv 0x1181
    else (s.modRun r.tag (fun x => { x with kind := .plain, result := leBytes 4 (imageId b),
                                            todo := [.slotRec (k = 2) (imageId b) (imageSvn b) b.length] })).submit
        (.image (k = 2) b) (some r.tag) := by
  unfold State.verified
  rw [h]

theorem State.verified_bundle (s : State) (r : Run) (b : List Byte) (h : r.kind = .bundle b) : s.verified r =
    if (s.bundleCheck b).1 ≠ 0 then s.finish r.tag (s.bundleCheck b).1
    else (s.modRun r.tag (fun x => { x with kind := .plain, result := [BitVec.ofNat 8 (fld b 6 1), 0] ++ leBytes 2 (fld b 12 2) })).submit
      (.bundle (bundleOpen b) b) (some r.tag) := by
  unfold State.verified
  rw [h]

theorem State.finish_img (s : State) (t : Nat) (st : Byte) (res : List Byte) : (s.finish t st res).img = s.img ∧
    (s.finish t st res).fb = s.fb := by
  obtain ⟨f, h⟩ := s.finish_frame t st res
  rw [h]; exact ⟨rfl, rfl⟩

end Sys2Proof.Machine

namespace Sys2Proof

open Machine

/-- Settles O54: a load writes its segments only when no lock line is held, and each verdict of the verification has its own
branch. -/
theorem loadCommands : Obligations.LoadCommands := by
  unfold Obligations.LoadCommands
  intro s sq d x t b here
  refine ⟨?image, ?bundle, ?verified, ?bundled⟩
  case image =>
    intro hbegins hp hlo hhi ⟨hdown, hfault, hexcl, htalk⟩ st
    refine ⟨fun h0 hstop => ?_, fun h12 => ?_⟩
    · have hexec := exec_imageLoad_of_begins x hbegins hp hlo hhi hdown hfault hexcl htalk (fun _ => hstop)
      refine ⟨fun hst hfree => ?_, fun hst hheld => ?_, fun hst => ?_⟩
      · have hload : (s.begin_ sq.toNat d).loadImage (d.p 0 = 0) t (d.p 0) b st =
            State.putImage { ((s.begin_ sq.toNat d).modRun t (fun y => { y with kind := .image 0 b })) with
              img := { s.img with runLoad := true } } b := by
          rw [State.loadImage, if_neg (not_not_intro hst), if_pos h0]
          refine (State.tryImage_of_free _ t b (by exact hfree)).trans ?_
          exact congrArg (fun q : State => State.putImage { q with img := { s.img with runLoad := true } } b)
            (State.modRun_kind_twice (s.begin_ sq.toNat d) t (.imageWait b) (.image 0 b))
        obtain ⟨hfl, himg⟩ := State.putImage_frame { ((s.begin_ sq.toNat d).modRun t (fun y => { y with kind := .image 0 b })) with
              img := { s.img with runLoad := true } } b
        refine ⟨_, hexec.trans (congrArg Host.Outcome.next hload), ?_, congrArg Image.runLoad himg, fun p hpart => ?_⟩
        · exact running_modRun s sq d (fun y => { y with kind := .image 0 b }) _ _ (fun _ => ⟨rfl, rfl⟩) rfl rfl (congrArg Flue.runs hfl)
        · exact State.putImage_fb s _ b p hpart rfl
      · have hload : (s.begin_ sq.toNat d).loadImage (d.p 0 = 0) t (d.p 0) b st =
            { ((s.begin_ sq.toNat d).modRun t (fun y => { y with kind := .imageWait b })) with img := { s.img with runLoad := true } } := by
          rw [State.loadImage, if_neg (not_not_intro hst), if_pos h0]
          exact State.tryImage_of_held _ t b hheld
        refine ⟨_, hexec.trans (congrArg Host.Outcome.next hload), ?_, rfl, rfl⟩
        exact running_modRun s sq d (fun y => { y with kind := .imageWait b }) _ _ (fun _ => ⟨rfl, rfl⟩) rfl rfl rfl
      · refine hexec.trans (congrArg Host.Outcome.next ?_)
        rw [State.loadImage, if_pos hst, if_pos h0]
    · have h0 : d.p 0 ≠ 0 := by omega
      have hexec := exec_imageLoad_of_begins x hbegins hp hlo hhi hdown hfault hexcl htalk (fun h => absurd h h0)
      split
      · next hst =>
        have hload : (s.begin_ sq.toNat d).loadImage (d.p 0 = 0) t (d.p 0) b st =
            (s.begin_ sq.toNat d).modRun t (fun y => { y with kind := .image (d.p 0) b }) := by
          rw [State.loadImage, if_neg (not_not_intro hst), if_neg h0]
        refine ⟨_, hexec.trans (congrArg Host.Outcome.next hload), ?_, rfl, rfl⟩
        exact running_modRun s sq d (fun y => { y with kind := .image (d.p 0) b }) _ _ (fun _ => ⟨rfl, rfl⟩) rfl rfl rfl
      · next hst =>
        refine hexec.trans (congrArg Host.Outcome.next ?_)
        rw [State.loadImage, if_pos hst, if_neg h0] <;> rfl
  case bundle =>
    intro hbegins hlo hhi ⟨hdown, hfault, hexcl, htalk⟩
    have hexec := exec_bundleLoad_of_begins x hbegins hlo hhi hdown hfault hexcl htalk
    split
    · next hst =>
      rw [if_neg (not_not_intro hst)] at hexec
      refine ⟨_, hexec, ?_, rfl, rfl⟩
      exact running_modRun s sq d (fun y => { y with kind := .bundle b }) _ _ (fun _ => ⟨rfl, rfl⟩) rfl rfl rfl
    · next hst =>
      rw [if_pos hst] at hexec
      exact hexec
  case verified =>
    intro r k img hfind hkind
    have hend := (exec_verificationEnd hfind).trans (congrArg Host.Outcome.next (s.verified_image r k img hkind))
    split
    · next hsig =>
      refine ⟨fun hk hsvn => ?_, fun hk hsvn h4 h7 => ?_, fun hk h4 h7 => ?_⟩
      · rw [hend, if_pos hk, if_neg (by rw [hsig]; decide), if_pos hsvn]
      · rw [hend, if_pos hk, if_neg (by rw [hsig]; decide), if_neg (Nat.not_le.2 hsvn)]
        refine ⟨_, rfl, State.submit_queues_of_hs _ _ rfl h4 h7, ?_⟩
        obtain ⟨v, hv⟩ := State.submit_vault (s.modRun r.tag (fun x =>
          { x with kind := .imageRun (BitVec.ofNat 32 (imageId img)) (imageThreads img), result := leBytes 4 (imageId img) }))
          (.svnFloor 0 (imageSvn img)) (some r.tag)
        rw [hv]
        rfl
      · rw [hend, if_neg (by omega), if_neg (by rw [hsig]; decide)]
        exact ⟨_, rfl, State.submit_queues_of_hs _ _ rfl h4 h7⟩
    · next hsig =>
      refine ⟨fun hk => ?_, fun hk => ?_⟩
      · rw [hend, if_neg (by omega), if_pos (by simpa using hsig)]
      · rw [hend, if_pos hk, if_pos (by simpa using hsig)]
        obtain ⟨himg, hfb⟩ := s.wipeImage.finish_img r.tag 0x13 []
        exact ⟨_, rfl, congrArg Image.valid himg, congrArg Fire.prog hfb, congrArg Fire.shared hfb⟩
  case bundled =>
    intro r bun hfind hkind h4 h7
    have hend := (exec_verificationEnd hfind).trans (congrArg Host.Outcome.next (s.verified_bundle r bun hkind))
    split
    · next hst =>
      rw [hend, if_neg (not_not_intro hst)]
      exact ⟨_, rfl, State.submit_queues_of_hs _ _ rfl h4 h7⟩
    · next hst => rw [hend, if_pos hst]

end Sys2Proof
end

section
/-! Capture objects (section 18.12) and the other device cells that a store reaches. -/

namespace Sys2Proof.Machine

/-! ## Units written upward -/

theorem memRead_memWriteList {w : Nat} (vs : List (BitVec w)) : ∀ (m : Mem w) (a b : Nat), Memory.wf m = true →
    memRead (memWriteList m a vs) b = if a ≤ b ∧ b < a + vs.length then vs.getD (b - a) 0 else memRead m b := by
  induction vs with
  | nil => intro m a b _; rw [if_neg (by simp)]; rfl
  | cons v r ih =>
    intro m a b h
    rw [memWriteList, ih _ _ _ (Memory.wf_memWrite m a v h), memRead_memWrite_wf m a b v h, List.length_cons]
    by_cases he : b = a
    · subst he
      rw [if_neg (by omega), if_pos rfl, if_pos (by omega), Nat.sub_self]
      rfl
    · rw [if_neg he]
      by_cases hin : a + 1 ≤ b ∧ b < a + 1 + r.length
      · obtain ⟨n, hn⟩ : ∃ n, b - a = n + 1 := ⟨b - a - 1, by omega⟩
        rw [if_pos hin, if_pos (by omega), hn, show b - (a + 1) = n by omega]
        rfl
      · rw [if_neg hin, if_neg (by omega)]

/-! ## Objects (R477) -/

/-- The cell that holds the EN bit of a slot's channel, or of a channel's slot, is no cell of the object itself. -/
theorem Capture.putObj_objCell (c : Capture) (o : Obj) (v : Nat → Cell) (k : Nat) (hk : k < o.size) (hwf : Memory.wf c.objs = true) :
    (c.putObj o v).objCell o k = v k &&& o.mask k := by
  have hlist : memRead (memWriteList c.objs o.base ((List.range o.size).map (fun k => v k &&& o.mask k))) (o.base + k) =
      v k &&& o.mask k := by
    rw [memRead_memWriteList _ _ _ _ hwf, if_pos (by simp [hk]), Nat.add_sub_cancel_left]
    simp [List.getD_eq_getElem?_getD, hk]
  have hwf' : Memory.wf (memWriteList c.objs o.base ((List.range o.size).map (fun k => v k &&& o.mask k))) = true :=
    Memory.wf_memWriteList _ _ _ hwf
  cases o with
  | channel n =>
    have hk2 : k < 2 := hk
    simp only [Capture.objCell, Capture.putObj]
    split
    · rw [memRead_memWrite_wf _ _ _ _ hwf', if_neg]
      · exact hlist
      · simp only [Obj.base]; omega
    · exact hlist
  | spi j =>
    simp only [Capture.objCell, Capture.putObj]
    rw [memRead_memWrite_wf _ _ _ _ hwf', if_neg]
    · exact hlist
    · simp only [Obj.base]; omega
  | can i => exact hlist
  | trig p => exact hlist
  | th j => exact hlist
  | cf f => exact hlist

theorem State.endPost_pil (s : State) (i : Nat) (trunc : Bool) : (s.endPost i trunc).pil = s.pil ∧ (s.endPost i trunc).fl = s.fl := by
  have hev : ∀ (q : State) (r kd src : Nat) (tick : Dbl), (q.emEvent r kd src tick).pil = q.pil ∧ (q.emEvent r kd src tick).fl = q.fl := by
    intro q r kd src tick
    obtain ⟨k, n, l, h⟩ := q.emEvent_frame r kd src tick
    rw [h]; exact ⟨rfl, rfl⟩
  simp only [State.endPost]
  split
  · obtain ⟨h1, h2⟩ := hev ((s.modRing i (fun r => r.endPost trunc)).emEvent i 2 0 s.fb.mir.tick) i 4 0 s.fb.mir.tick
    obtain ⟨h3, h4⟩ := hev (s.modRing i (fun r => r.endPost trunc)) i 2 0 s.fb.mir.tick
    exact ⟨h1.trans h3, h2.trans h4⟩
  · exact hev (s.modRing i (fun r => r.endPost trunc)) i 2 0 s.fb.mir.tick

theorem State.stopChannel_pil (s : State) (n : Nat) : (s.stopChannel n).pil = s.pil ∧ (s.stopChannel n).fl = s.fl := by
  refine List.foldlRecOn (motive := fun q : State => q.pil = s.pil ∧ q.fl = s.fl) (List.range 16) _ ⟨rfl, rfl⟩ ?_
  intro q ⟨hp, hf⟩ i _
  dsimp only
  split
  · split
    · obtain ⟨h1, h2⟩ := q.endPost_pil i true
      exact ⟨h1.trans hp, h2.trans hf⟩
    · exact ⟨hp, hf⟩
  · exact ⟨hp, hf⟩

/-- A change of an object puts its cells, whatever it stops. -/
theorem State.applyObj_objs (s : State) (o : Obj) (v : Nat → Cell) :
    (s.applyObj o v).pil.cap.objs = (s.pil.cap.putObj o v).objs ∧ (s.applyObj o v).fl = s.fl := by
  unfold State.applyObj
  dsimp only
  split
  · split
    · exact ⟨congrArg (fun p : Pilot => p.cap.objs) (State.stopChannel_pil _ _).1, (State.stopChannel_pil _ _).2⟩
    · split <;> exact ⟨rfl, rfl⟩
  · exact ⟨rfl, rfl⟩
  · exact ⟨rfl, rfl⟩

theorem State.applyObj_objCell (s : State) (o : Obj) (v : Nat → Cell) (k : Nat) (hk : k < o.size)
    (hwf : Memory.wf s.pil.cap.objs = true) : (s.applyObj o v).pil.cap.objCell o k = v k &&& o.mask k := by
  have hobjs := (s.applyObj_objs o v).1
  have hcell : (s.applyObj o v).pil.cap.objCell o k = (s.pil.cap.putObj o v).objCell o k :=
    congrArg (fun m : Mem 24 => memRead m (o.base + k)) hobjs
  rw [hcell, Capture.putObj_objCell _ _ _ _ hk hwf]

/-! ## Cells of the Firebox -/

/-- A store to the arm cells writes the arm (R145). -/
theorem State.devStore_arm (s : State) (c : CoreId) (t : ThId) (i : BitVec 3) (v : Cell) :
    s.devStore c (0x0F0080 + 8 * t.toNat + i.toNat) v false = s.writeArm c t i.toNat v := by
  have ht : t.toNat < 8 := t.isLt
  have hi : i.toNat < 8 := i.isLt
  have hquot : (0x0F0080 + 8 * t.toNat + i.toNat - 0x0F0080) / 8 = t.toNat := by omega
  have hrem : (0x0F0080 + 8 * t.toNat + i.toNat) % 8 = i.toNat := by omega
  have hthread : (BitVec.ofNat 3 t.toNat : ThId) = t := BitVec.eq_of_toNat_eq (by simp)
  rw [State.devStore, if_pos (by omega), hquot, hrem, hthread]

theorem devKind_arm (a : Nat) (hlo : 0x0F0080 ≤ a) (hhi : a < 0x0F00C0) : devKind a = .one := by
  rw [devKind, if_pos (by omega), coreKind, if_neg (by omega), if_pos (by omega)]

theorem accFault_arm (s : State) (a : Nat) (hlo : 0x0F0080 ≤ a) (hhi : a < 0x0F00C0) : accFault s true a .cell true = none := by
  have hreg : region a = .devF := by
    rw [region, if_neg (by omega), if_neg (by omega), if_pos (by omega)]
  simp [accFault, hreg, devBad, devKind_arm a hlo hhi]

theorem isDev_arm (a : Nat) (hlo : 0x0F0080 ≤ a) (hhi : a < 0x0F00C0) : isDev a = true := by
  simp only [isDev, Bool.and_eq_true, decide_eq_true_eq]; omega

/-- The arm that a cell spells (R145, R473). -/
theorem armOf_eq (v : Cell) : armOf v =
    { bit := v.extractLsb' 0 16, level := v.extractLsb' 16 3,
      en := v.getLsbD 19 && decide (0x80 ≤ (v.extractLsb' 0 16).toNat ∧ (v.extractLsb' 0 16).toNat < 0x1400 ∧
        v.extractLsb' 16 3 ≠ 0) } := by
  have hlevel : (v.extractLsb' 16 3 ≠ 0) ↔ fieldN v 16 3 ≠ 0 := by
    rw [← extractLsb'_toNat_fieldN, Ne, Ne, ← BitVec.toNat_inj]
    rfl
  simp only [armOf, BitVec.ofNat_fieldN, extractLsb'_toNat_fieldN, hlevel, Bool.decide_and, Bool.and_assoc]

theorem getLsbD_low_mask (v : Cell) (n i : Nat) (hi : i < n) (hn : n ≤ 24) :
    (v &&& BitVec.ofNat 24 (2 ^ n - 1)).getLsbD i = v.getLsbD i := by
  rw [BitVec.getLsbD_and, BitVec.getLsbD_ofNat, Nat.testBit_two_pow_sub_one, decide_eq_true hi, decide_eq_true (by omega : i < 24),
    Bool.true_and, Bool.and_true]

theorem wpCtl_of_plain (old v : Cell) (h : v.getLsbD 5 = false) : wpCtl old v false = v &&& 0x00FF3F := by
  rw [wpCtl, h] <;> rfl

/-- A store of a thread keeps the bits of a watchpoint that the debug port alone gives (R418). -/
theorem wpCtl_keeps (old v : Cell) (h : v.getLsbD 5 = true) : (wpCtl old v false).extractLsb' 4 2 = old.extractLsb' 4 2 := by
  rw [wpCtl, h]
  simp only [Bool.not_false, Bool.true_and, if_true]
  apply BitVec.eq_of_getLsbD_eq
  intro i hi
  rw [BitVec.getLsbD_extractLsb', BitVec.getLsbD_extractLsb', decide_eq_true hi, Bool.true_and, Bool.true_and,
    getLsbD_setField _ _ _ _ _ (by omega), if_pos (by omega), ← extractLsb'_toNat_fieldN, Nat.add_sub_cancel_left,
    BitVec.testBit_toNat, BitVec.getLsbD_extractLsb', decide_eq_true hi, Bool.true_and]

theorem State.writeWp_wp (s : State) (c : CoreId) (i : BitVec 3) (k : Nat) (v : Cell) (dbg : Bool) :
    ((s.writeWp c i.toNat k v dbg).core c).wp.get i.toNat = (match k with
      | 0 => { ((s.core c).wp.get i.toNat) with ctl := wpCtl ((s.core c).wp.get i.toNat).ctl v dbg }
      | 1 => { ((s.core c).wp.get i.toNat) with addr := v }
      | 2 => { ((s.core c).wp.get i.toNat) with amask := v }
      | _ => { ((s.core c).wp.get i.toNat) with count := v }) := by
  rw [State.writeWp, State.core_modCore_self]
  exact Tab.get_modify_self _ _ _ i.isLt

theorem State.writeTraceCtl_ctl (s : State) (v : Cell) :
    (s.writeTraceCtl v).fb.trace.ctl = setBit (v &&& 0x07FFFF) 0 (v.getLsbD 0 && s.rights.getLsbD 2) := by
  have hput : ∀ (t : Trace) (r : BitVec 64), (t.put r).ctl = t.ctl := by
    intro t r
    unfold Trace.put
    split <;> rfl
  simp only [State.writeTraceCtl, State.modFb_fb]
  split
  · exact hput _ _
  · rfl

/-! ## Cells of the Pilot -/

theorem State.devStore_pilot (s : State) (a : Nat) (v : Cell) (hlo : 0x0F3000 ≤ a) (hhi : a < 0x0F4000) :
    s.devStore 0 a v false = if 0x0F31E0 ≤ a ∧ a < 0x0F31E3 then s.writeGpio (a - 0x0F31E0) v
      else match objAt a with | some (o, k) => s.writeObjCell o k v | none => s := by
  rw [State.devStore, if_neg (by omega), if_neg (by omega), if_neg (by omega), if_neg (by omega), if_neg (by omega),
    if_neg (by omega)]
  split
  · rfl
  · exact if_pos ⟨hlo, hhi⟩

theorem objAt_trig (p : BitVec 2) : objAt (0x0F3150 + p.toNat) = some (.trig p.toNat, 0) := by
  have hp : p.toNat < 4 := p.isLt
  have ho : 0x0F3150 + p.toNat - 0x0F3000 = 0x150 + p.toNat := by omega
  simp only [objAt, ho]
  rw [if_neg (by omega), if_neg (by omega), if_neg (by omega), if_neg (by omega), if_pos (by omega), Nat.add_sub_cancel_left]

theorem objAt_cf (f k : BitVec 3) (hk : k.toNat < 5) : objAt (0x0F31A0 + 8 * f.toNat + k.toNat) = some (.cf f.toNat, k.toNat) := by
  have hf : f.toNat < 8 := f.isLt
  have ho : 0x0F31A0 + 8 * f.toNat + k.toNat - 0x0F3000 = 0x1A0 + 8 * f.toNat + k.toNat := by omega
  have hrem : (0x1A0 + 8 * f.toNat + k.toNat) % 8 = k.toNat := by omega
  have hquot : (0x1A0 + 8 * f.toNat + k.toNat - 0x1A0) / 8 = f.toNat := by omega
  simp only [objAt, ho]
  rw [if_neg (by omega), if_neg (by omega), if_neg (by omega), if_neg (by omega), if_neg (by omega), if_neg (by omega),
    if_pos (by omega), hrem, hquot, if_pos hk]

/-- A TRIG pin takes what its cell allows, when its edge selection is assigned (R206, R477). -/
theorem State.writeObjCell_trig (s : State) (p : BitVec 2) (v : Cell) (hv : v.extractLsb' 1 2 ≠ 3)
    (hwf : Memory.wf s.pil.cap.objs = true) : (s.writeObjCell (.trig p.toNat) 0 v).pil.cap.objCell (.trig p.toNat) 0 = v &&& 0x3FF := by
  have hfield : fieldN (v &&& 0x3FF) 1 2 ≠ 3 := by
    rw [← extractLsb'_toNat_fieldN]
    have hsame : (v &&& 0x3FF).extractLsb' 1 2 = v.extractLsb' 1 2 := by
      apply BitVec.eq_of_getLsbD_eq
      intro i hi
      rw [BitVec.getLsbD_extractLsb', BitVec.getLsbD_extractLsb']
      exact congrArg _ (getLsbD_low_mask v 10 (1 + i) (by omega) (by omega))
    rw [hsame]
    exact fun h => hv (BitVec.eq_of_toNat_eq h)
  simp only [State.writeObjCell, if_true]
  rw [if_pos (by simp only [Capture.objCheck, Obj.mask]; exact if_neg hfield)]
  refine (State.applyObj_objCell _ (.trig p.toNat) _ 0 Nat.one_pos (by exact hwf)).trans ?_
  simp only [Obj.mask, if_true]
  rw [BitVec.and_assoc, BitVec.and_self]

theorem State.writeObjCell_staged (s : State) (o : Obj) (k : Nat) (v : Cell) (hk : k ≠ 0) (hwf : Memory.wf s.pil.cap.stg = true) :
    (s.writeObjCell o k v).pil.cap.objs = s.pil.cap.objs ∧ (s.writeObjCell o k v).pil.cap.staged o k = v &&& o.mask k := by
  have hput : s.writeObjCell o k v = s.modCap (fun c =>
      { c with stg := memWrite c.stg (o.base + k) ((v &&& o.mask k).setWidth 25 ||| 0x1000000) }) := if_neg hk
  have hflag : ((v &&& o.mask k).setWidth 25 ||| (0x1000000 : BitVec 25)).getLsbD 24 = true := by
    rw [BitVec.getLsbD_or]
    exact Bool.or_eq_true_iff.2 (Or.inr rfl)
  have hcell : ((v &&& o.mask k).setWidth 25 ||| (0x1000000 : BitVec 25)).setWidth 24 = v &&& o.mask k := by
    apply BitVec.eq_of_getLsbD_eq
    intro i hi
    have hlow : (0x1000000 : BitVec 25).getLsbD i = false := by
      rw [show (0x1000000 : BitVec 25) = BitVec.ofNat 25 (2 ^ 24) from rfl, BitVec.getLsbD_ofNat, Nat.testBit_two_pow]
      simp only [Bool.and_eq_false_iff, decide_eq_false_iff_not]
      omega
    rw [BitVec.getLsbD_setWidth, BitVec.getLsbD_or, hlow, BitVec.getLsbD_setWidth, decide_eq_true hi,
      decide_eq_true (by omega : i < 25), Bool.true_and, Bool.true_and, Bool.or_false]
  rw [hput]
  refine ⟨rfl, ?_⟩
  simp only [Capture.staged, State.modCap_pil, memRead_memWrite_wf _ _ _ _ hwf, if_true]
  rw [if_pos hflag, hcell]

end Sys2Proof.Machine

namespace Sys2Proof

open Machine

/-- Settles O59: each cell's write has its own law; a store of the arm cells decodes to the arm by its address. -/
theorem cellWrites : Obligations.CellWrites := by
  unfold Obligations.CellWrites
  intro s
  refine ⟨?arm, ?icache, ?mseq, ?watchpoint, ?traceCtl, ?traceFull, ?trig, ?cf, ?gpio⟩
  case arm =>
    intro c t i v b l arm
    have ha : (BitVec.ofNat 24 (0x0F0080 + 8 * t.toNat + i.toNat)).toNat = 0x0F0080 + 8 * t.toNat + i.toNat := by
      have ht : t.toNat < 8 := t.isLt
      have hi : i.toNat < 8 := i.isLt
      rw [BitVec.toNat_ofNat, Nat.mod_eq_of_lt (by omega)]
    have hlo : 0x0F0080 ≤ 0x0F0080 + 8 * t.toNat + i.toNat := by omega
    have hhi : 0x0F0080 + 8 * t.toNat + i.toNat < 0x0F00C0 := by
      have ht : t.toNat < 8 := t.isLt
      have hi : i.toNat < 8 := i.isLt
      omega
    refine ⟨congrArg Host.Outcome.next ?_, congrArg Host.Outcome.next ?_⟩
    · rw [State.writeArm, armOf_eq]
    · dsimp only
      rw [ha, isDev_arm _ hlo hhi, accFault_arm s _ hlo hhi, State.devStore_arm] <;> rfl
  case icache =>
    intro c v
    refine ⟨_, rfl, ?_⟩
    unfold State.writeIcache
    dsimp only
    cases h8 : v.getLsbD 8 with
    | false =>
      refine ⟨?_, fun h => (Bool.false_ne_true h).elim, fun _ => ?_⟩
      · rw [if_neg Bool.false_ne_true, State.core_modCore_self]
      · rw [if_neg Bool.false_ne_true, State.core_modCore_self]
    | true =>
      have hinval : (((s.modCore c (fun k => { k with icLock := v.setWidth 2 })).modCore c Core.inval).core c).icache = [] := by
        rw [State.core_modCore_self] <;> rfl
      obtain ⟨hic, hlock⟩ := State.refetch_icache _ c hinval
      refine ⟨?_, fun _ => hic, fun h => (Bool.false_ne_true h.symm).elim⟩
      rw [if_pos rfl, hlock, State.core_modCore_self, State.core_modCore_self] <;> rfl
  case mseq =>
    intro c v
    refine ⟨_, rfl, fun h => ?_, fun h => ?_⟩
    · rw [State.clearMseq, if_pos h, State.core_modCore_self]
      exact (getLsbD_setBit_of_lt _ _ _ _ (by decide)).trans (if_pos rfl)
    · rw [State.clearMseq, h] <;> rfl
  case watchpoint =>
    intro c i v wp
    refine ⟨⟨_, rfl, fun h => ?_, fun h => ?_⟩, ⟨_, rfl, ?_⟩, ⟨_, rfl, ?_⟩, ⟨_, rfl, ?_⟩⟩
    · exact (congrArg Watchpt.ctl (s.writeWp_wp c i 0 v false)).trans (wpCtl_of_plain _ v h)
    · exact (congrArg (fun w : Watchpt => w.ctl.extractLsb' 4 2) (s.writeWp_wp c i 0 v false)).trans (wpCtl_keeps _ v h)
    · exact s.writeWp_wp c i 1 v false
    · exact s.writeWp_wp c i 2 v false
    · exact s.writeWp_wp c i 3 v false
  case traceCtl =>
    intro v
    refine ⟨_, rfl, ?_, fun i h0 hi => ?_⟩
    · rw [State.writeTraceCtl_ctl, getLsbD_setBit_of_lt _ _ _ _ (by decide), if_pos rfl]
    · rw [State.writeTraceCtl_ctl, getLsbD_setBit_of_lt _ _ _ _ (by omega), if_neg (by omega)]
      exact getLsbD_low_mask v 19 i hi (by decide)
  case traceFull =>
    intro v
    refine ⟨_, rfl, fun h => ?_, fun h => ?_⟩
    · rw [State.clearTraceFull, if_pos h]
      exact ⟨rfl, fun hctl => if_pos hctl⟩
    · rw [State.clearTraceFull, h] <;> rfl
  case trig =>
    intro p v hv hwf
    have hp : p.toNat < 4 := p.isLt
    have hput : exec (.captureObjectWrite (.trig p) v) s = .next (s.writeObjCell (.trig p.toNat) 0 v) := by
      refine congrArg Host.Outcome.next ((if_pos rfl).trans ?_)
      rw [capAddr, State.devStore_pilot _ _ _ (by omega) (by omega), if_neg (by omega), objAt_trig]
    exact ⟨_, hput, s.writeObjCell_trig p v hv hwf⟩
  case cf =>
    intro f k v h1 h5 hwf
    have hf : f.toNat < 8 := f.isLt
    have hput : exec (.captureObjectWrite (.cf f k) v) s = .next (s.writeObjCell (.cf f.toNat) k.toNat v) := by
      refine congrArg Host.Outcome.next ((if_pos (decide_eq_true h5)).trans ?_)
      rw [capAddr, State.devStore_pilot _ _ _ (by omega) (by omega), if_neg (by omega), objAt_cf f k h5]
    exact ⟨_, hput, s.writeObjCell_staged _ _ v (by omega) hwf⟩
  case gpio =>
    intro v hwf
    have hput : exec (.captureObjectWrite (.gpio 1) v) s = .next (s.writeGpio 1 v) := by
      refine congrArg Host.Outcome.next ((if_pos rfl).trans ?_)
      rw [show capAddr (.gpio 1) = 0x0F31E1 from rfl, State.devStore_pilot _ _ _ (by decide) (by decide), if_pos (by decide)]
    refine ⟨_, hput, ?_⟩
    rw [State.writeGpio, if_pos (by decide)]
    exact (memRead_memWrite_wf _ _ _ _ hwf).trans (if_pos rfl)

end Sys2Proof
end

section
/-! The fuse array (chapter 13): the scramble of its secrets (R356), fuse pulses (R358 to R360) and FUSE_CMD (R355, R466). -/

namespace Sys2Proof.Machine

/-! ## The scramble (R356) -/

theorem scrBack_scrRound (a k : Nat) (x : BitVec 16 × BitVec 16) : scrBack a k (scrRound a k x) = x := by
  simp only [scrBack, scrRound, BitVec.xor_assoc, BitVec.xor_self, BitVec.xor_zero]

theorem halves_append (x : BitVec 16 × BitVec 16) : ((x.1 ++ x.2).extractLsb' 16 16, (x.1 ++ x.2).setWidth 16) = x := by
  refine Prod.ext ?_ ?_
  · apply BitVec.eq_of_getLsbD_eq
    intro i hi
    rw [BitVec.getLsbD_extractLsb', BitVec.getLsbD_append, if_neg (by omega), decide_eq_true hi, Bool.true_and,
      Nat.add_sub_cancel_left]
  · apply BitVec.eq_of_getLsbD_eq
    intro i hi
    rw [BitVec.getLsbD_setWidth, BitVec.getLsbD_append, if_pos hi, decide_eq_true hi, Bool.true_and]

theorem append_halves (d : W32) : d.extractLsb' 16 16 ++ d.setWidth 16 = d := by
  apply BitVec.eq_of_getLsbD_eq
  intro i hi
  rw [BitVec.getLsbD_append]
  split
  · next h => rw [BitVec.getLsbD_setWidth, decide_eq_true h, Bool.true_and]
  · next h =>
    rw [BitVec.getLsbD_extractLsb', decide_eq_true (by omega : i - 16 < 16), Bool.true_and]
    congr 1; omega

/-- The four rounds of the scramble are undone in the opposite order. -/
theorem unscrambled_scrambled (a : Nat) (d : W32) : unscrambled a (scrambled a d) = d := by
  simp only [unscrambled, scrambled, halves_append, List.foldl_cons, List.foldl_nil, scrBack_scrRound]
  exact append_halves d

/-! ## Pulses that all succeed -/

section Pulses

/-- The array at both margins is in canonical form, and what is set at strict margin is set at normal margin (R358). -/
structure Otp.Sound (t : Otp) : Prop where
  norm : Memory.wf t.norm = true
  strict : Memory.wf t.strict = true
  margin : ∀ a, memRead t.strict a &&& ~~~(memRead t.norm a) = 0

theorem State.Inv.otp_sound {s : State} (h : s.Inv) : s.hs.otp.Sound := by
  have hm := h.mems
  simp only [State.memsWf, Bool.and_eq_true] at hm
  obtain ⟨⟨⟨⟨⟨-, hn⟩, hs⟩, -⟩, -⟩, -⟩ := hm
  exact ⟨hn, hs, h.fuses⟩

theorem and_not_zero {w : Nat} (x : BitVec w) : x &&& ~~~(0 : BitVec w) = x := by
  rw [show (0 : BitVec w) = 0#w from rfl, BitVec.not_zero, BitVec.and_allOnes]

variable {o : FuseShot} (hu : o.unset = 0) (hw : o.weak = 0)

include hu hw

theorem Otp.pulse_read (t : Otp) (a b : Nat) (bits : BitVec 39) (h : t.Sound) :
    memRead (t.pulse a bits o).norm b = (if b = a then memRead t.norm a ||| bits else memRead t.norm b) ∧
    memRead (t.pulse a bits o).strict b = (if b = a then memRead t.strict a ||| bits else memRead t.strict b) := by
  have hbits : bits &&& ~~~o.unset = bits := by rw [hu]; exact and_not_zero bits
  have hfull : bits &&& ~~~o.weak = bits := by rw [hw]; exact and_not_zero bits
  simp only [Otp.pulse, hbits, hfull]
  exact ⟨memRead_memWrite_wf _ _ _ _ h.norm, memRead_memWrite_wf _ _ _ _ h.strict⟩

omit hu hw in
theorem Otp.Sound.pulse {t : Otp} (h : t.Sound) (a : Nat) (bits : BitVec 39) (o : FuseShot) : (t.pulse a bits o).Sound :=
  ⟨(t.pulse_wf a bits o h.norm h.strict).1, (t.pulse_wf a bits o h.norm h.strict).2, t.pulse_margin a bits o h.norm h.strict h.margin⟩

/-- The words `ws` programmed one after the other. -/
def Otp.programAll (t : Otp) (ws : List (Nat × BitVec 39)) (o : FuseShot) : Otp := ws.foldl (fun (t : Otp) x => t.program x.1 x.2 o) t

/-- Each word takes the bits that it lacks, and no other word changes. -/
theorem Otp.programAll_read (ws : List (Nat × BitVec 39)) : ∀ (t : Otp), t.Sound → (ws.map (·.1)).Nodup →
    (∀ x, x ∈ ws → memRead (t.programAll ws o).norm x.1 = memRead t.norm x.1 ||| (x.2 &&& ~~~(memRead t.strict x.1)) ∧
      memRead (t.programAll ws o).strict x.1 = memRead t.strict x.1 ||| (x.2 &&& ~~~(memRead t.strict x.1))) ∧
    (∀ b, b ∉ ws.map (·.1) → memRead (t.programAll ws o).norm b = memRead t.norm b ∧
      memRead (t.programAll ws o).strict b = memRead t.strict b) := by
  induction ws with
  | nil => exact fun t _ _ => ⟨fun x hx => absurd hx List.not_mem_nil, fun b _ => ⟨rfl, rfl⟩⟩
  | cons y ws ih =>
    intro t ht hnd
    obtain ⟨hy, hnd'⟩ := List.nodup_cons.1 hnd
    have hread := fun b => Otp.pulse_read hu hw t y.1 b (y.2 &&& ~~~(memRead t.strict y.1)) ht
    obtain ⟨hin, hout⟩ := ih (t.program y.1 y.2 o) (ht.pulse _ _ o) hnd'
    refine ⟨fun x hx => ?_, fun b hb => ?_⟩
    · rcases List.mem_cons.1 hx with rfl | hx
      · obtain ⟨hn, hs⟩ := hout x.1 hy
        obtain ⟨hn', hs'⟩ := hread x.1
        exact ⟨hn.trans (hn'.trans (if_pos rfl)), hs.trans (hs'.trans (if_pos rfl))⟩
      · have hne : x.1 ≠ y.1 := fun e => hy (List.mem_map.2 ⟨x, hx, e⟩)
        obtain ⟨hn, hs⟩ := hin x hx
        obtain ⟨hn', hs'⟩ := hread x.1
        rw [if_neg hne] at hn' hs'
        change memRead (t.program y.1 y.2 o).norm x.1 = _ at hn'
        change memRead (t.program y.1 y.2 o).strict x.1 = _ at hs'
        rw [hn', hs'] at hn
        rw [hs'] at hs
        exact ⟨hn, hs⟩
    · obtain ⟨hby, hbw⟩ := not_or.1 (fun h => hb (List.mem_cons.2 h))
      obtain ⟨hn, hs⟩ := hout b hbw
      obtain ⟨hn', hs'⟩ := hread b
      exact ⟨hn.trans (hn'.trans (if_neg hby)), hs.trans (hs'.trans (if_neg hby))⟩

omit hu hw in
/-- A bit that is set at neither margin is pulsed, so no bit of the new word is missing afterwards. -/
theorem missing_after (norm strict new : BitVec 39) (h : strict &&& ~~~norm = 0) :
    new &&& ~~~(norm ||| (new &&& ~~~strict)) = 0 ∧ new &&& ~~~(strict ||| (new &&& ~~~strict)) = 0 := by
  refine ⟨?_, ?_⟩
  · apply BitVec.eq_of_getLsbD_eq
    intro i hi
    have hb := congrArg (fun x : BitVec 39 => x.getLsbD i) h
    have hz : BitVec.getLsbD (0 : BitVec 39) i = false := BitVec.getLsbD_zero
    simp only [BitVec.getLsbD_and, BitVec.getLsbD_not, BitVec.getLsbD_or, hi, decide_true, Bool.true_and, hz] at hb ⊢
    revert hb
    cases strict.getLsbD i <;> cases norm.getLsbD i <;> cases new.getLsbD i <;> decide
  · apply BitVec.eq_of_getLsbD_eq
    intro i hi
    have hz : BitVec.getLsbD (0 : BitVec 39) i = false := BitVec.getLsbD_zero
    simp only [BitVec.getLsbD_and, BitVec.getLsbD_not, BitVec.getLsbD_or, hi, decide_true, Bool.true_and, hz]
    cases strict.getLsbD i <;> cases new.getLsbD i <;> decide

/-- Every word that is programmed holds its new value at both margins. -/
theorem Otp.programAll_outcome (t : Otp) (ws : List (Nat × BitVec 39)) (ht : t.Sound) (hnd : (ws.map (·.1)).Nodup)
    (x : Nat × BitVec 39) (hx : x ∈ ws) : (t.programAll ws o).outcome x.1 x.2 = 0 := by
  obtain ⟨hn, hs⟩ := (Otp.programAll_read hu hw ws t ht hnd).1 x hx
  obtain ⟨hnorm, hstrict⟩ := missing_after (memRead t.norm x.1) (memRead t.strict x.1) x.2 (ht.margin x.1)
  rw [Otp.outcome, hn, hs, if_neg (not_not_intro hnorm), if_neg (not_not_intro hstrict)]

omit hu hw in
theorem foldl_max_zero {α : Type} (f : α → Nat) (l : List α) (h : ∀ x, x ∈ l → f x = 0) : l.foldl (fun m x => max m (f x)) 0 = 0 := by
  induction l with
  | nil => rfl
  | cons x l ih =>
    rw [List.foldl_cons, h x List.mem_cons_self]
    exact ih (fun y hy => h y (List.mem_cons_of_mem _ hy))

/-- A programming whose every pulse succeeds ends with OK (R358). -/
theorem State.fuseProgram_clean (s : State) (ws : List (Nat × BitVec 39)) (data : Nat) (ht : s.hs.otp.Sound)
    (hnd : (ws.map (·.1)).Nodup) :
    s.fuseProgram ws o data = (s.modHs (fun h => { h with otp := s.hs.otp.programAll ws o }), 0, 0, data) := by
  have hk := foldl_max_zero (fun x : Nat × BitVec 39 => (s.hs.otp.programAll ws o).outcome x.1 x.2) ws
    (fun x hx => Otp.programAll_outcome hu hw s.hs.otp ws ht hnd x hx)
  unfold State.fuseProgram
  dsimp only
  change (s.modHs _, ws.foldl (fun m x => max m ((s.hs.otp.programAll ws o).outcome x.1 x.2)) 0, _, data) = _
  rw [hk]
  change (s.modHs _, 0, (if ws.foldl (fun m x => max m ((s.hs.otp.programAll ws o).outcome x.1 x.2)) 0 = 2 then 3 else 0), data) = _
  rw [hk]
  rfl

end Pulses

/-! ## FUSE_CMD (R355) -/

section FuseCmd

variable {s : State}

/-- FUSE_CMD has taken the region and the word of a command. -/
def State.fuseAsked (s : State) (g w : Nat) : State :=
  s.modHs (fun h => { h with otp := { h.otp with cmdRegion := BitVec.ofNat 4 g, cmdWord := BitVec.ofNat 5 w } })

/-- FUSE_CMD is BUSY with a command whose effect and answer are `x`. -/
def State.fuseBusy (x : State × Nat × Nat × Nat) : State :=
  (x.1.modHs (fun h => { h with otp := { h.otp with busy := some (x.2.1, x.2.2.1, x.2.2.2) } })).laneSync

theorem State.fuseAsked_sound (h : s.hs.otp.Sound) (g w : Nat) : (s.fuseAsked g w).hs.otp.Sound := ⟨h.norm, h.strict, h.margin⟩

theorem State.fuseBusy_otp (x : State × Nat × Nat × Nat) :
    (State.fuseBusy x).hs.otp = { x.1.hs.otp with busy := some (x.2.1, x.2.2.1, x.2.2.2) } := rfl

theorem Otp.putCmd_of_free (t : Otp) (g w : Nat) (h : t.busy = none) :
    t.putCmd g w = { t with cmdRegion := BitVec.ofNat 4 g, cmdWord := BitVec.ofNat 5 w } :=
  if_neg (by rw [h]; decide)

theorem State.fuseCmd_of_free (hbar : s.barOn = true) (hbusy : s.hs.otp.busy = none) (hlife : s.hs.life = none) (g w : Nat)
    (run : State → State × Nat × Nat × Nat) : s.fuseCmd g w run = State.fuseBusy (run (s.fuseAsked g w)) := by
  have hput : s.modHs (fun h => { h with otp := h.otp.putCmd g w }) = s.fuseAsked g w :=
    congrArg (fun t => ({ s with hs := { s.hs with otp := t } } : State)) (s.hs.otp.putCmd_of_free g w hbusy)
  unfold State.fuseCmd
  rw [if_neg (by rw [hbar, hbusy]; decide), hput]
  dsimp only
  rw [if_neg (by rw [hlife]; decide)]
  rfl

theorem State.fuseCmd_of_busy (h : s.hs.otp.busy ≠ none) (g w : Nat) (run : State → State × Nat × Nat × Nat) :
    s.fuseCmd g w run = s :=
  if_pos (by rw [Option.isSome_iff_ne_none.2 h, Bool.or_true])

/-- The array of a state holds what `z` holds. -/
def State.FusesKept (s : State) (z : Otp) : Prop := s.hs.otp.norm = z.norm ∧ s.hs.otp.strict = z.strict

/-! ## The gate of a programming command (R357) -/

theorem fuseStates_le (g k : Nat) (h : k ∈ fuseStates g) : g ≠ 0 ∧ (k = 0 ∨ k = 1 ∨ k = 2) := by
  unfold fuseStates at h
  split_ifs at h with h0 h3 h8
  · cases h
  · simp at h; omega
  · simp at h; omega
  · simp at h; omega

theorem State.fuseGate_open {g : Nat} (hstate : s.life ∈ fuseStates g) (hlock : s.hs.otp.locks.getLsbD g = false) :
    s.fuseGate g false = 0 := by
  obtain ⟨hg, hlife⟩ := fuseStates_le g s.life hstate
  rw [State.fuseGate, if_neg (by simp; omega), if_neg (by simp [hg]), if_neg (by simp [hstate]), if_neg (by simp [hlock])]

theorem State.fuseGate_state {g : Nat} (never : Bool) (h : s.life ∉ fuseStates g) : s.fuseGate g never ≠ 0 := by
  unfold State.fuseGate
  split_ifs with h1 h2 h3
  · decide
  · decide
  · decide
  · exact absurd (by simpa using h3) h
  · exact absurd (by simpa using h3) h

theorem State.fuseGate_locked {g : Nat} (never : Bool) (h : s.hs.otp.locks.getLsbD g = true) : s.fuseGate g never ≠ 0 := by
  unfold State.fuseGate
  split_ifs
  · decide
  · decide
  · decide
  · decide

theorem fuseNo_kept (s : State) (res cause : Nat) : (State.fuseBusy (fuseNo s res cause)).FusesKept s.hs.otp := ⟨rfl, rfl⟩

/-! ## The commands (R355 to R360) -/

/-- A read changes nothing; it answers the corrected word, unless the region is secret or its read lock is set. -/
theorem State.fuseRead_spec (s : State) (g w : Nat) :
    (State.fuseBusy (s.fuseRead g w)).FusesKept s.hs.otp ∧
    (g = 8 ∨ s.hs.otp.locks.getLsbD (16 + g) = true →
      (State.fuseBusy (s.fuseRead g w)).hs.otp.busy = some (3, 0, s.hs.otp.data.toNat)) ∧
    (∀ x, g ≠ 8 → s.hs.otp.locks.getLsbD (16 + g) = false → s.hs.otp.word g w = some x →
      (State.fuseBusy (s.fuseRead g w)).hs.otp.busy =
        some (if memRead s.hs.otp.norm (32 * g + w) = memRead s.hs.otp.strict (32 * g + w) then 0 else 1, 0, x.toNat)) := by
  have hkept : ∀ x : State × Nat × Nat × Nat, x.1 = s → (State.fuseBusy x).FusesKept s.hs.otp := by
    rintro ⟨q, x⟩ rfl; exact ⟨rfl, rfl⟩
  refine ⟨hkept _ ?_, fun h => ?_, fun x h8 hlock hword => ?_⟩
  · unfold State.fuseRead
    dsimp only
    split
    · rfl
    · split <;> rfl
  · rw [State.fuseBusy_otp, State.fuseRead, if_pos h]
    rfl
  · have hno : ¬ (g = 8 ∨ s.hs.otp.locks.getLsbD (16 + g) = true) := by
      rintro (h | h)
      · exact h8 h
      · rw [hlock] at h; cases h
    rw [State.fuseBusy_otp]
    unfold State.fuseRead
    dsimp only
    rw [if_neg hno, hword]
    dsimp only
    by_cases he : memRead s.hs.otp.norm (32 * g + w) = memRead s.hs.otp.strict (32 * g + w)
    · have hd : s.hs.otp.differs (32 * g + w) = false := decide_eq_false (not_not_intro he)
      rw [if_pos he, hd] <;> rfl
    · have hd : s.hs.otp.differs (32 * g + w) = true := decide_eq_true he
      rw [if_neg he, hd] <;> rfl

/-- What a write programs. -/
def State.fuseNew (s : State) (g w : Nat) : BitVec 39 :=
  otpEncode (if secretWord g w then scrambled (32 * g + w) s.hs.otp.data else s.hs.otp.data)

theorem State.fuseWrite_kept (s : State) (g w : Nat) (o : FuseShot) (h : s.fuseGate g (g = 8) ≠ 0 ∨ o.vfuse = false) :
    (State.fuseBusy (s.fuseWrite g w o)).FusesKept s.hs.otp := by
  unfold State.fuseWrite
  dsimp only
  rcases h with hk | hv
  · rw [if_pos hk]; exact fuseNo_kept s _ _
  · rw [hv]
    split
    · exact fuseNo_kept s _ _
    · exact fuseNo_kept s _ _

theorem State.fuseWrite_clean (s : State) (g w : Nat) (o : FuseShot) (ht : s.hs.otp.Sound) (hgate : s.fuseGate g (g = 8) = 0)
    (hv : o.vfuse = true) (hfree : (memRead s.hs.otp.norm (32 * g + w) ||| memRead s.hs.otp.strict (32 * g + w)) &&&
      ~~~(s.fuseNew g w) = 0) (hu : o.unset = 0) (hw : o.weak = 0) :
    let q := State.fuseBusy (s.fuseWrite g w o)
    q.hs.otp.busy = some (0, 0, s.hs.otp.data.toNat) ∧
    memRead q.hs.otp.norm (32 * g + w) = memRead s.hs.otp.norm (32 * g + w) |||
      (s.fuseNew g w &&& ~~~(memRead s.hs.otp.strict (32 * g + w))) ∧
    ∀ b, b ≠ 32 * g + w → memRead q.hs.otp.norm b = memRead s.hs.otp.norm b := by
  have hnd : ([(32 * g + w, s.fuseNew g w)].map (·.1)).Nodup := List.nodup_singleton _
  have hrun : s.fuseWrite g w o = s.fuseProgram [(32 * g + w, s.fuseNew g w)] o s.hs.otp.data.toNat := by
    have hused : s.hs.otp.used (32 * g + w) (s.fuseNew g w) = false := decide_eq_false (not_not_intro hfree)
    unfold State.fuseWrite
    dsimp only
    rw [if_neg (not_not_intro hgate), if_neg (by rw [hv]; decide)]
    exact if_neg (by rw [show s.hs.otp.used (32 * g + w) (otpEncode _) = false from hused]; decide)
  obtain ⟨hin, hout⟩ := Otp.programAll_read hu hw [(32 * g + w, s.fuseNew g w)] s.hs.otp ht hnd
  intro q
  have hq : q = _ := congrArg State.fuseBusy (hrun.trans (State.fuseProgram_clean hu hw s _ _ ht hnd))
  rw [hq, State.fuseBusy_otp]
  exact ⟨rfl, (hin _ (List.mem_singleton.2 rfl)).1, fun b hb => (hout b (by simpa using hb)).1⟩

/-- The lock bits that a lock command sets, in each of the three copies of the lock word (R357). -/
def lockWords (k : Nat) : List (Nat × BitVec 39) :=
  [(6, BitVec.ofNat 39 (2 ^ k)), (7, BitVec.ofNat 39 (2 ^ k)), (8, BitVec.ofNat 39 (2 ^ k))]

theorem Otp.copy_programmed {t : Otp} {o : FuseShot} (hu : o.unset = 0) (hw : o.weak = 0) (ht : t.Sound) (k a : Nat) (hk : k < 32)
    (ha : (a, BitVec.ofNat 39 (2 ^ k)) ∈ lockWords k) : ((t.programAll (lockWords k) o).copy a).getLsbD k = true := by
  obtain ⟨hn, -⟩ := (Otp.programAll_read hu hw (lockWords k) t ht (by simp [lockWords])).1 _ ha
  obtain ⟨-, hs⟩ := (Otp.programAll_read hu hw (lockWords k) t ht (by simp [lockWords])).1 _ ha
  have hbit : (BitVec.ofNat 39 (2 ^ k)).getLsbD k = true := by
    rw [BitVec.getLsbD_ofNat, Nat.testBit_two_pow_self, decide_eq_true (by omega : k < 39)] <;> rfl
  have hk39 : k < 39 := by omega
  rw [Otp.copy, BitVec.getLsbD_setWidth, decide_eq_true hk, Bool.true_and, BitVec.getLsbD_or, hn, hs]
  simp only [BitVec.getLsbD_or, BitVec.getLsbD_and, BitVec.getLsbD_not, hbit, hk39, decide_true, Bool.true_and]
  cases (memRead t.strict a).getLsbD k <;> simp

theorem State.fuseLock_kept (s : State) (g : Nat) (rd : Bool) (o : FuseShot) (hv : o.vfuse = false) :
    (State.fuseBusy (s.fuseLock g rd o)).FusesKept s.hs.otp := by
  unfold State.fuseLock
  dsimp only
  rw [hv]
  split
  · exact fuseNo_kept s _ _
  · exact fuseNo_kept s _ _

theorem State.fuseLock_clean (s : State) (g : Nat) (rd : Bool) (o : FuseShot) (ht : s.hs.otp.Sound) (hg : g < 16)
    (hgate : s.fuseGate g false = 0) (hv : o.vfuse = true) (hu : o.unset = 0) (hw : o.weak = 0) :
    let q := State.fuseBusy (s.fuseLock g rd o)
    q.hs.otp.busy = some (0, 0, s.hs.otp.data.toNat) ∧ q.hs.otp.locks.getLsbD (g + if rd then 16 else 0) = true := by
  have hk : (g + if rd then 16 else 0) < 32 := by split <;> omega
  have hnd : ((lockWords (g + if rd then 16 else 0)).map (·.1)).Nodup := by simp [lockWords]
  have hrun : s.fuseLock g rd o = s.fuseProgram (lockWords (g + if rd then 16 else 0)) o s.hs.otp.data.toNat := by
    unfold State.fuseLock
    dsimp only
    rw [if_neg (not_not_intro hgate), if_neg (by rw [hv]; decide)] <;> rfl
  intro q
  have hq : q = _ := congrArg State.fuseBusy (hrun.trans (State.fuseProgram_clean hu hw s _ _ ht hnd))
  rw [hq, State.fuseBusy_otp]
  refine ⟨rfl, ?_⟩
  have hcopy := fun a ha => Otp.copy_programmed hu hw ht (g + if rd then 16 else 0) a hk ha
  change (maj3 ((s.hs.otp.programAll _ o).copy 6) ((s.hs.otp.programAll _ o).copy 7)
    ((s.hs.otp.programAll _ o).copy 8)).getLsbD _ = true
  simp only [maj3, BitVec.getLsbD_or, BitVec.getLsbD_and, hcopy 6 (by simp [lockWords]), hcopy 7 (by simp [lockWords])]
  rfl

/-- The device root secret is eight words of their own addresses (R356). -/
theorem State.genWords_nodup (s : State) : (s.genWords.map (·.1)).Nodup := by
  have haddr : s.genWords.map (·.1) = [256, 257, 258, 259, 260, 261, 262, 263] := rfl
  rw [haddr]; decide

theorem State.mem_genWords (s : State) (i : Nat) (hi : i < 8) :
    (256 + i, otpEncode (scrambled (256 + i) (BitVec.ofNat 32 (leAt (s.trngBytes 32) (4 * i) 4)))) ∈ s.genWords :=
  List.mem_map.2 ⟨i, List.mem_range.2 hi, rfl⟩

theorem State.fuseGen_clean (s : State) (o : FuseShot) (ht : s.hs.otp.Sound) (hu : o.unset = 0) (hw : o.weak = 0)
    (hblank : ∀ i, i < 8 → memRead s.hs.otp.norm (256 + i) = 0 ∧ memRead s.hs.otp.strict (256 + i) = 0) :
    let q := State.fuseBusy (State.fuseGen o s)
    q.hs.otp.busy = some (0, 0, s.hs.otp.data.toNat) ∧ ∀ i, i < 8 → memRead q.hs.otp.norm (256 + i) =
      otpEncode (scrambled (256 + i) (BitVec.ofNat 32 (leAt (s.trngBytes 32) (4 * i) 4))) := by
  have hunused : s.genWords.any (fun x => s.hs.otp.used x.1 x.2) = false := by
    rw [List.any_eq_false]
    intro x hx
    obtain ⟨i, hi, rfl⟩ := List.mem_map.1 hx
    obtain ⟨hn, hs⟩ := hblank i (List.mem_range.1 hi)
    simp only [Otp.used, hn, hs]
    simp
  have hrun : State.fuseGen o s = (s.trngTaken 32).fuseProgram s.genWords o s.hs.otp.data.toNat := by
    unfold State.fuseGen
    dsimp only
    rw [if_neg (by rw [hunused]; decide)]
  intro q
  have hq : q = _ := congrArg State.fuseBusy (hrun.trans
    (State.fuseProgram_clean hu hw (s.trngTaken 32) s.genWords _ ht s.genWords_nodup))
  rw [hq, State.fuseBusy_otp]
  refine ⟨rfl, fun i hi => ?_⟩
  obtain ⟨hn, hs⟩ := hblank i hi
  have hread := ((Otp.programAll_read hu hw s.genWords s.hs.otp ht s.genWords_nodup).1 _ (s.mem_genWords i hi)).1
  rw [hn, hs] at hread
  refine hread.trans ?_
  rw [and_not_zero]
  exact BitVec.zero_or

end FuseCmd

end Sys2Proof.Machine

namespace Sys2Proof

open Machine

/-- Settles O58: every command is one equation of `fuseCmd`, and pulses that all succeed leave no bit of the new word
missing at either margin. -/
theorem fuseCommands : Obligations.FuseCommands := by
  unfold Obligations.FuseCommands
  intro s g w o z a gate kept ends hinv
  have hsound : z.Sound := hinv.otp_sound
  refine ⟨fun hbar hbusy hlife => ?commands, unscrambled_scrambled a, fun hbusy => ?busy, fun res cause data hb hgen hres hcause => ?ending⟩
  case commands =>
    have hcmd := fun g w run => State.fuseCmd_of_free hbar hbusy hlife g w run
    refine ⟨⟨_, congrArg Host.Outcome.next (hcmd _ _ _), ?_⟩, ⟨_, congrArg Host.Outcome.next (hcmd _ _ _), ?_⟩, fun rd =>
      ⟨_, congrArg Host.Outcome.next (hcmd _ _ _), ?_⟩, ?_⟩
    · obtain ⟨hkept, hlocked, hword⟩ := (s.fuseAsked g.toNat w.toNat).fuseRead_spec g.toNat w.toNat
      refine ⟨hkept, fun h => hlocked (h.imp_left (fun e => by rw [e]; rfl)), fun x h8 hlock hx => hword x ?_ hlock hx⟩
      exact fun e => h8 (BitVec.eq_of_toNat_eq e)
    · have hnew : otpEncode (if (g = 8 ∨ g = 9) ∧ w.toNat < 8 then scrambled a z.data else z.data) =
          (s.fuseAsked g.toNat w.toNat).fuseNew g.toNat w.toNat := by
        have hiff : ((g = 8 ∨ g = 9) ∧ w.toNat < 8) ↔ secretWord g.toNat w.toNat = true := by
          have hg8 : g = 8 ↔ g.toNat = 8 := ⟨fun e => by rw [e]; rfl, fun e => BitVec.eq_of_toNat_eq e⟩
          have hg9 : g = 9 ↔ g.toNat = 9 := ⟨fun e => by rw [e]; rfl, fun e => BitVec.eq_of_toNat_eq e⟩
          rw [hg8, hg9]
          simp [secretWord]
        rw [State.fuseNew]
        by_cases hsec : secretWord g.toNat w.toNat = true
        · rw [if_pos (hiff.2 hsec), if_pos hsec] <;> rfl
        · rw [if_neg (fun h => hsec (hiff.1 h)), if_neg hsec] <;> rfl
      have hwrite := (s.fuseAsked g.toNat w.toNat).fuseWrite_kept g.toNat w.toNat o
      refine ⟨fun ⟨hstate, hlock⟩ h8 hv hfree hu hw => ?_, fun hno => hwrite (Or.inl ?_), fun hlock => hwrite (Or.inl ?_),
        fun hv => hwrite (Or.inr hv)⟩
      · have hne : decide (g.toNat = 8) = false := decide_eq_false (fun e => h8 (BitVec.eq_of_toNat_eq e))
        have hgate : (s.fuseAsked g.toNat w.toNat).fuseGate g.toNat (g.toNat = 8) = 0 := by
          rw [hne]; exact State.fuseGate_open hstate hlock
        rw [hnew] at hfree ⊢
        exact (s.fuseAsked g.toNat w.toNat).fuseWrite_clean g.toNat w.toNat o (State.fuseAsked_sound hsound _ _) hgate hv hfree hu hw
      · exact State.fuseGate_state _ hno
      · exact State.fuseGate_locked _ hlock
    · refine ⟨fun ⟨hstate, hlock⟩ hv hu hw => ?_, fun hv => State.fuseLock_kept _ g.toNat rd o hv⟩
      exact State.fuseLock_clean _ g.toNat rd o (State.fuseAsked_sound hsound _ _) g.isLt (State.fuseGate_open hstate hlock) hv hu hw
    · refine ⟨_, rfl, fun h0 hlock hv hok hu hw hblank => ?_, fun h0 hlock hv hstart hlatch => ?_⟩
      · obtain ⟨hstart, hlatch⟩ : s.hs.trng.started = true ∧ s.hs.trng.latched = false := by simpa [State.trngOk] using hok
        have hgate : (s.fuseAsked 8 0).fuseGate 8 (decide ((8 : Nat) ≠ 8)) = 0 := State.fuseGate_open (by rw [show (s.fuseAsked 8 0).life = 0 from h0]; decide) hlock
        have hgo : State.fuseGenerate 8 o (s.fuseAsked 8 0) = State.fuseGen o (s.fuseAsked 8 0) := by
          unfold State.fuseGenerate
          dsimp only
          rw [if_neg (not_not_intro hgate), if_neg (by rw [hv]; decide), if_neg (by rw [show (s.fuseAsked 8 0).hs.trng.latched = false from hlatch]; decide)]
        have hwaits : s.genWaits 8 o = false := by simp [State.genWaits, hstart]
        have hcase : (if s.genWaits 8 o then
            s.modHs (fun h => { h with otp := { h.otp.putCmd 8 0 with busy := some (2, 4, h.otp.data.toNat), genWait := some o } })
            else s.fuseCmd 8 0 (State.fuseGenerate 8 o)) = State.fuseBusy (State.fuseGen o (s.fuseAsked 8 0)) := by
          rw [if_neg (by rw [hwaits]; decide), hcmd, hgo]
        have hclean := (s.fuseAsked 8 0).fuseGen_clean o (State.fuseAsked_sound hsound _ _) hu hw hblank
        dsimp only at hclean
        rw [← hcase] at hclean
        exact hclean
      · have hgate : s.fuseGate 8 (decide ((8 : Nat) ≠ 8)) = 0 := State.fuseGate_open (by rw [h0]; decide) hlock
        have hwaits : s.genWaits 8 o = true := by
          rw [State.genWaits, hbar, show s.hs.otp.busy = none from hbusy, hlife, hgate, hv, hstart, hlatch] <;> rfl
        have hcase : (if s.genWaits 8 o then
            s.modHs (fun h => { h with otp := { h.otp.putCmd 8 0 with busy := some (2, 4, h.otp.data.toNat), genWait := some o } })
            else s.fuseCmd 8 0 (State.fuseGenerate 8 o)) =
            s.modHs (fun h => { h with otp := { h.otp.putCmd 8 0 with busy := some (2, 4, h.otp.data.toNat), genWait := some o } }) :=
          if_pos hwaits
        have hput := z.putCmd_of_free 8 0 hbusy
        have hdone : ∀ q : State, q = s.modHs (fun h => { h with otp := { h.otp.putCmd 8 0 with busy := some (2, 4, h.otp.data.toNat), genWait := some o } }) →
            q.hs.otp.genWait = some o ∧ q.hs.otp.busy ≠ none ∧ q.FusesKept z := by
          rintro q rfl
          refine ⟨rfl, Option.some_ne_none _, ?_, ?_⟩
          · exact (show (z.putCmd 8 0).norm = z.norm by rw [hput])
          · exact (show (z.putCmd 8 0).strict = z.strict by rw [hput])
        exact hdone _ hcase
  case busy =>
    exact ⟨congrArg Host.Outcome.next (State.fuseCmd_of_busy hbusy _ _ _), congrArg Host.Outcome.next (State.fuseCmd_of_busy hbusy _ _ _)⟩
  case ending =>
    have hgate : (if s.hs.otp.genWait.isSome then none else s.hs.otp.busy) = some (res, cause, data) := by
      rw [show s.hs.otp.genWait = none from hgen]
      exact hb
    refine ⟨s.modHs (fun h => { h with otp :=
      { h.otp with busy := none, result := BitVec.ofNat 3 res, cause := BitVec.ofNat 3 cause, valid := true,
                   data := if res ≤ 1 then BitVec.ofNat 32 data else 0 } }), congrArg Host.Outcome.next ?_, rfl,
      Nat.mod_eq_of_lt hres, Nat.mod_eq_of_lt hcause, rfl, ⟨rfl, rfl⟩, rfl⟩
    rw [hgate]

end Sys2Proof
end

section
/-! The commands that read (section 12.3). -/

namespace Sys2Proof.Machine

theorem length_leBytes : ∀ (n v : Nat), (leBytes n v).length = n := by
  intro n
  induction n with
  | zero => exact fun _ => rfl
  | succ n ih => exact fun v => congrArg (· + 1) (ih (v / 256))

theorem Otp.length_deviceId (o : Otp) : o.deviceId.length = 16 := by
  simp [Otp.deviceId, Otp.field, List.length_flatten, Function.comp_def, length_leBytes]

theorem State.length_identifyBlock (s : State) : s.identifyBlock.length = 64 := by
  simp only [State.identifyBlock, List.length_append, List.length_cons, List.length_nil, List.length_replicate, length_leBytes,
    Otp.length_deviceId]

section Answer

variable {s : State} {d : Desc} {t : Nat}

/-- Output that its buffer holds goes there, and the command completes with SUCCESS (R326). -/
theorem State.answer_of_fits (l res : List Byte) (both : Bool) (h : l.length ≤ d.dlen) :
    s.answer d t l res both = (s.dmaOut d l).finish t 0x00 res := if_pos h

theorem State.length_statBytes (es : List (Nat × Nat)) :
    ((es.map (fun e => leBytes 2 e.1 ++ leBytes 6 e.2)).flatten).length = 8 * es.length := by
  induction es with
  | nil => rfl
  | cons e es ih =>
    rw [List.map_cons, List.flatten_cons, List.length_append, ih, List.length_append, length_leBytes, length_leBytes,
      List.length_cons]
    omega

/-- A log that is durable and can be read is answered as it is (R345). -/
theorem State.logRead_of_durable {l : VLog} (hup : s.fb.hearth.down = false)
    (hfind : s.hs.vault.logs.find? (fun x => x.seq = d.pn 0 6) = some l) (hdur : l.durable = true)
    (hgood : s.hs.vault.spoilt l.at_ = false) : s.logRead d t =
      s.answer d t l.bytes (leBytes 3 l.bytes.length ++ [l.cls] ++ leBytes 2 l.flags.toNat) true := by
  unfold State.logRead
  dsimp only
  rw [hup, hfind]
  dsimp only
  rw [hdur, hgood] <;> rfl

/-- A seal record that can be read is answered with its index (R344). -/
theorem State.cordRead_of_seal {k : Nat} {x : VSeal} (hup : s.fb.hearth.down = false)
    (hname : s.cordNamed (d.p 0) (d.pn 2 6) = .inl k) (hfind : s.hs.vault.seals.find? (fun y => y.cord = k) = some x)
    (hgood : s.hs.vault.spoilt x.at_ = false) : s.cordRead d t = s.answer d t x.record (leBytes 6 k ++ leBytes 2 x.count) := by
  unfold State.cordRead
  rw [hup, hname]
  dsimp only
  rw [hfind]
  dsimp only
  rw [hgood] <;> rfl

theorem State.odoByte_eq (s : State) : s.odoByte = if s.fb.mir.status.getLsbD 12 then 1 else 0 := by
  unfold State.odoByte b2n
  cases s.fb.mir.status.getLsbD 12 <;> rfl

theorem State.odoRead_of_good (hup : s.fb.hearth.down = false) (hgood : s.hs.vault.odoSpoilt = false) :
    s.odoRead t = s.finish t 0 (leBytes 6 s.hs.vault.odoBest ++ [s.odoByte]) := by
  rw [State.odoRead, hup, hgood] <;> rfl

/-- Random bytes that the FIFO holds go out, and the command waits for the rest (R350). -/
theorem State.giveRandom_of_ready (p : BitVec 64) (n : Nat) (hlatch : s.hs.trng.latched = false)
    (hstart : s.hs.trng.started = true) (hup : s.fb.hearth.down = false) (htrained : s.fb.hearth.training = false) :
    s.giveRandom t p n 0 =
      if n ≤ min n (32 * s.hs.trng.fifo.length) then
        ((s.trngTaken (min n (32 * s.hs.trng.fifo.length))).modFl (fun f => f.emitData p
          (s.trngBytes (min n (32 * s.hs.trng.fifo.length))))).finish t 0 (leBytes 4 n)
      else ((s.trngTaken (min n (32 * s.hs.trng.fifo.length))).modFl (fun f => f.emitData p
        (s.trngBytes (min n (32 * s.hs.trng.fifo.length))))).modRun t
          (fun r => { r with kind := .random p n (min n (32 * s.hs.trng.fifo.length)) }) := by
  unfold State.giveRandom
  dsimp only
  rw [hlatch, hup, hstart, htrained, Nat.sub_zero, Nat.zero_add, BitVec.add_zero]
  rfl

theorem Flue.emitData_runs (f : Flue) (a : BitVec 64) (l : List Byte) : (f.emitData a l).runs = f.runs := by
  refine List.foldlRecOn (motive := fun g : Flue => g.runs = f.runs) (splitWrites l.length a l) _ rfl ?_
  intro g hg w _
  obtain ⟨out, l1, held, h⟩ := g.emit_frame (.write w.1 w.2)
  rw [h]; exact hg

theorem State.trngTaken_of_all (s : State) : (s.trngTaken (32 * s.hs.trng.fifo.length)).hs.trng.fifo = [] := by
  have hm : (32 * s.hs.trng.fifo.length + 31) / 32 = s.hs.trng.fifo.length := by omega
  change s.hs.trng.fifo.drop ((32 * s.hs.trng.fifo.length + 31) / 32) = []
  rw [hm, List.drop_length]

/-- A command that begins holds no staging yet. -/
theorem State.begin_freeStage (s : State) (sq : Nat) (d : Desc) : (s.begin_ sq d).freeStage = s.freeStage := by
  have himg : (s.begin_ sq d).imageStage = s.imageStage := by
    rw [State.imageStage, State.begin_runs, List.map_append, List.sum_append] <;> rfl
  rw [State.freeStage, himg] <;> rfl

theorem State.begin_statList (s : State) (sq : Nat) (d : Desc) (g : Nat) : (s.begin_ sq d).statList g = s.statList g := by
  rw [State.statList, State.begin_freeStage] <;> rfl

/-- The states of a core's threads are answered in the command's turn on the core (R338). -/
theorem State.begin_coreTurn (s : State) (sq : Nat) (d : Desc) (f : Run → Run) (hf : ∀ r, (f r).tag = r.tag) (c : Nat) :
    ((s.begin_ sq d).modRun s.fl.nextTag f).coreTurn s.fl.nextTag c = s.coreTurn s.fl.nextTag c := by
  have hother : ∀ r : Run, (decide ((if r.tag = s.fl.nextTag then f r else r).tag < s.fl.nextTag) &&
      (if r.tag = s.fl.nextTag then f r else r).pendsOn c) = (decide (r.tag < s.fl.nextTag) && r.pendsOn c) := by
    intro r
    by_cases h : r.tag = s.fl.nextTag
    · have hno : ¬ r.tag < s.fl.nextTag := by omega
      rw [if_pos h, hf, decide_eq_false hno, Bool.false_and, Bool.false_and]
    · rw [if_neg h]
  have hruns : ((s.begin_ sq d).modRun s.fl.nextTag f).fl.runs =
      (s.fl.runs ++ [s.newRun sq d]).map (fun r => if r.tag = s.fl.nextTag then f r else r) := rfl
  rw [State.coreTurn, State.coreTurn, hruns, List.any_map]
  simp only [Function.comp_def, hother, List.any_append]
  simp [State.newRun]

/-- The kind of a run does not show in its completion. -/
theorem State.finish_modRun_kind (s : State) (t : Nat) (k : RunKind) (st : Byte) (res : List Byte) :
    (s.modRun t (fun y => { y with kind := k })).finish t st res = s.finish t st res := by
  have hrun : (s.modRun t (fun y => { y with kind := k })).run? t = (s.run? t).map (fun y => { y with kind := k }) := by
    change (s.fl.runs.map (fun r => if r.tag = t then { r with kind := k } else r)).find? (fun r => r.tag = t) =
      (s.fl.runs.find? (fun r => r.tag = t)).map (fun y => { y with kind := k })
    generalize s.fl.runs = l
    induction l with
    | nil => rfl
    | cons r l ih =>
      by_cases h : r.tag = t
      · simp [h]
      · simpa [List.find?_cons, h] using ih
  have hfilter : (s.fl.runs.map (fun r => if r.tag = t then { r with kind := k } else r)).filter (fun x => x.tag ≠ t) =
      s.fl.runs.filter (fun x => x.tag ≠ t) := by
    generalize s.fl.runs = l
    induction l with
    | nil => rfl
    | cons r l ih =>
      by_cases h : r.tag = t
      · simpa [List.filter_cons, h] using ih
      · simpa [List.filter_cons, h] using ih
  have hkeep : ∀ (f : Flue) (l : List Run) (r : Run), (l.filter (fun x => x.tag ≠ t)) = (f.runs.filter (fun x => x.tag ≠ t)) →
      ({ f with runs := l } : Flue).completed r t s.fb.mir.tick = f.completed r t s.fb.mir.tick := by
    intro f l r hl
    have hpost : ({ f with runs := l } : Flue).postCq r s.fb.mir.tick = { (f.postCq r s.fb.mir.tick) with runs := l } := by
      cases h : (f.bme && !f.d3hot && f.held.isEmpty)
      · simp only [Flue.postCq, Flue.emit, Flue.canTalk, goActive, h, Bool.false_eq_true, if_false]
        split <;> rfl
      · simp only [Flue.postCq, Flue.emit, Flue.canTalk, goActive, h, if_true]
        split <;> rfl
    have hruns : (f.postCq r s.fb.mir.tick).runs = f.runs := by
      obtain ⟨c, n, p, out, l1, held, sd, w, h⟩ := f.postCq_frame r s.fb.mir.tick
      rw [h]
    unfold Flue.completed
    rw [hpost, hruns]
    dsimp only
    rw [hl]
  cases hr : s.run? t with
  | none =>
    rw [hr] at hrun
    have hnone : ∀ r, r ∈ s.fl.runs → ¬ r.tag = t := fun r hm h => by
      have := List.find?_eq_none.1 hr r hm
      exact this (decide_eq_true h)
    have hsame : s.fl.runs.map (fun r => if r.tag = t then { r with kind := k } else r) = s.fl.runs :=
      (List.map_congr_left (g := id) (fun r hm => if_neg (hnone r hm))).trans (List.map_id _)
    have hmod : s.modRun t (fun y => { y with kind := k }) = s :=
      congrArg (fun l => ({ s with fl := { s.fl with runs := l } } : State)) hsame
    rw [hmod]
  | some r =>
    rw [hr] at hrun
    rw [State.finish_of_run hr, State.finish_of_run (r := { r with kind := k }) hrun]
    exact congrArg (fun f => ({ s with fl := f } : State))
      (hkeep s.fl _ { r with status := st, result := res } hfilter)

end Answer

end Sys2Proof.Machine

namespace Sys2Proof

open Machine

/-- Settles O51: a command that reads answers what its part of the state holds as the command begins, for its begin touches
the rings of the Flue alone. -/
theorem readCommands : Obligations.ReadCommands := by
  unfold Obligations.ReadCommands
  intro s sq d t out up
  refine ⟨?identify, ?stats, ?query, ?log, ?logWaits, fun v => rfl, ?cord, ?odo, ?random⟩
  case identify =>
    intro hb hlen
    refine congrArg Host.Outcome.next ((command_of_begins _ hb rfl rfl (decide_eq_true hlen)).trans ?_)
    exact State.answer_of_fits _ _ _ (by rw [State.length_identifyBlock]; exact hlen)
  case stats =>
    intro hb h6 h1 hlen es bytes
    refine congrArg Host.Outcome.next ((command_of_begins _ hb rfl (by simp [h6, h1]) rfl).trans ?_)
    have hlen' : 8 * es.length ≤ d.dlen := hlen
    have hes : (s.begin_ sq.toNat d).statList (d.p 0) = es := State.begin_statList s sq.toNat d (d.p 0)
    have htake : es.take (d.dlen / 8) = es := List.take_of_length_le ((Nat.le_div_iff_mul_le (by decide)).2 (by omega))
    have hbytes : bytes.length = 8 * es.length := State.length_statBytes es
    dsimp only
    rw [hes]
    change (if d.p 1 = 1 then (s.begin_ sq.toNat d).statsClear ((es.take (d.dlen / 8)).map (·.1)) else s.begin_ sq.toNat d).answer
      d t bytes (leBytes 4 bytes.length) = _
    rw [State.answer_of_fits _ _ _ (by rw [hbytes]; exact hlen), htake, hbytes]
  case query =>
    intro hb h16 hlen hturn
    refine congrArg Host.Outcome.next ((command_of_begins _ hb rfl (decide_eq_true h16) (decide_eq_true hlen)).trans ?_)
    have hturn' := State.begin_coreTurn s sq.toNat d (fun x => { x with kind := .threadQuery (d.p 0) }) (fun _ => rfl) (d.p 0)
    unfold State.tryQuery
    rw [if_neg (by rw [hturn', hturn]; decide)]
    exact State.finish_modRun_kind _ _ _ _ _
  case log =>
    intro l hb ⟨hup, htrained⟩ hfind hdur hgood hlen
    refine congrArg Host.Outcome.next ((command_of_begins _ hb rfl rfl rfl).trans ?_)
    rw [State.acrossLink_hearth_of_trained (s := s.begin_ sq.toNat d) htrained,
      State.logRead_of_durable (s := s.begin_ sq.toNat d) hup hfind hdur hgood]
    exact State.answer_of_fits _ _ _ hlen
  case logWaits =>
    intro hb htraining
    have hexec : exec (.logRead sq) s = .next ((s.begin_ sq.toNat d).modRun t (fun x => { x with kind := .onLink d [] })) := by
      refine congrArg Host.Outcome.next ((command_of_begins _ hb rfl rfl rfl).trans ?_)
      exact if_pos htraining
    exact ⟨_, hexec, running_modRun s sq d (fun x => { x with kind := .onLink d [] }) _ _ (fun _ => ⟨rfl, rfl⟩) rfl rfl rfl, rfl⟩
  case cord =>
    intro k x hb hp ⟨hup, htrained⟩ hname hfind hgood hlen
    refine congrArg Host.Outcome.next ((command_of_begins _ hb rfl (decide_eq_true hp) rfl).trans ?_)
    rw [State.acrossLink_hearth_of_trained (s := s.begin_ sq.toNat d) htrained,
      State.cordRead_of_seal (s := s.begin_ sq.toNat d) hup hname hfind hgood]
    exact State.answer_of_fits _ _ _ hlen
  case odo =>
    intro hb hp hlen valid
    have hvalid : (s.begin_ sq.toNat d).odoByte = valid := State.odoByte_eq s
    refine ⟨fun h0 => ?_, fun h1 ⟨hup, htrained⟩ hgood => ?_⟩
    · refine congrArg Host.Outcome.next ((command_of_begins _ hb rfl (decide_eq_true hp) (decide_eq_true hlen)).trans ?_)
      rw [if_pos h0, hvalid] <;> rfl
    · refine congrArg Host.Outcome.next ((command_of_begins _ hb rfl (decide_eq_true hp) (decide_eq_true hlen)).trans ?_)
      rw [if_neg (by omega), State.acrossLink_hearth_of_trained (s := s.begin_ sq.toNat d) htrained,
        State.odoRead_of_good (s := s.begin_ sq.toNat d) hup hgood, hvalid] <;> rfl
  case random =>
    intro hb h1 h4096 hlatch hstart ⟨hup, htrained⟩ held
    have hexec : exec (.random sq) s = .next ((s.begin_ sq.toNat d).giveRandom t d.dptr d.dlen 0) :=
      congrArg Host.Outcome.next (command_of_begins _ hb rfl rfl (by simp [h1, h4096]))
    have hgive := State.giveRandom_of_ready (s := s.begin_ sq.toNat d) (t := t) d.dptr d.dlen hlatch hstart hup htrained
    refine ⟨fun hle => ?_, fun hlt => ?_⟩
    · have hmin : min d.dlen (32 * (s.begin_ sq.toNat d).hs.trng.fifo.length) = d.dlen := Nat.min_eq_left hle
      rw [hmin, if_pos (Nat.le_refl _)] at hgive
      exact hexec.trans (congrArg Host.Outcome.next hgive)
    · have hmin : min d.dlen (32 * (s.begin_ sq.toNat d).hs.trng.fifo.length) = held := Nat.min_eq_right (Nat.le_of_lt hlt)
      rw [hmin, if_neg (Nat.not_le.2 hlt)] at hgive
      refine ⟨_, hexec.trans (congrArg Host.Outcome.next hgive), ?_, State.trngTaken_of_all s⟩
      refine running_modRun s sq d (fun x => { x with kind := .random d.dptr d.dlen held }) _ _ (fun _ => ⟨rfl, rfl⟩) rfl rfl ?_
      exact congrArg (fun l : List Run => l.map (fun r => if r.tag = t then { r with kind := .random d.dptr d.dlen held } else r))
        (Flue.emitData_runs _ _ _)

end Sys2Proof
end

section
/-! Polling of the doorbell page (section 11.3). -/

namespace Sys2Proof.Machine

section Device

variable (s : State)

/-- DSTATE's event moves the Flue to the active polling interval at most. -/
theorem State.syncDstate_poll :
    s.syncDstate.fl.poll = s.fl.poll ∨ s.syncDstate.fl.poll = (goActive s.fl s.fb.mir.tick).poll := by
  unfold State.syncDstate
  split
  · exact .inl rfl
  · exact .inr rfl

theorem State.syncDstate_stats : s.syncDstate.fl.stats = s.fl.stats := by
  unfold State.syncDstate
  split <;> rfl

theorem State.syncDstate_poll_en : s.syncDstate.fl.poll.en = s.fl.poll.en := by
  rcases s.syncDstate_poll with h | h <;> rw [h] <;> rfl

theorem State.syncDstate_poll_halt : s.syncDstate.fl.poll.halt = s.fl.poll.halt := by
  rcases s.syncDstate_poll with h | h <;> rw [h] <;> rfl

theorem State.syncDstate_poll_act : s.syncDstate.fl.poll.act = s.fl.poll.act := by
  rcases s.syncDstate_poll with h | h <;> rw [h] <;> rfl

theorem State.syncDstate_poll_idle : s.syncDstate.fl.poll.idle = s.fl.poll.idle := by
  rcases s.syncDstate_poll with h | h <;> rw [h] <;> rfl

theorem State.syncDstate_poll_reading : s.syncDstate.fl.poll.reading = s.fl.poll.reading := by
  rcases s.syncDstate_poll with h | h <;> rw [h] <;> rfl

theorem State.syncDstate_poll_fails : s.syncDstate.fl.poll.fails = s.fl.poll.fails := by
  rcases s.syncDstate_poll with h | h <;> rw [h] <;> rfl

theorem State.syncDstate_poll_idleMode (h : s.fl.poll.idleMode = false) : s.syncDstate.fl.poll.idleMode = false := by
  rcases s.syncDstate_poll with e | e <;> rw [e]
  · exact h
  · rfl

end Device

/-- Polling as a write of POLL_CTL with POLL_EN starts it, after its intervals (R467). -/
def Poll.started (p : Poll) (v : BitVec 32) (tick : Dbl) : Poll :=
  let act : Byte := if fieldN v 8 8 = 0 then p.act else BitVec.ofNat 8 (fieldN v 8 8)
  { p with act := act, idle := if fieldN v 16 16 < 2 then p.idle else BitVec.ofNat 16 (fieldN v 16 16), en := true, halt := false,
           idleMode := false, count := 0, fails := 0, target := tick + BitVec.ofNat 48 act.toNat }

/-- POLL_EN starts polling where both page addresses are there and differ (R297). -/
theorem State.putPollCtl_on {s : State} {v : BitVec 32} (hv : v.getLsbD 0 = true) (hen : s.fl.poll.en = false)
    (hdb : s.fl.dbAddr ≠ 0) (hsh : s.fl.shAddr ≠ 0) (hne : s.fl.dbAddr ≠ s.fl.shAddr) :
    s.putPollCtl v = (s.modFl (fun f => { f with poll := f.poll.started v s.fb.mir.tick })).syncDstate := by
  have hon : ¬ (!v.getLsbD 0) = true := by rw [hv]; decide
  have hrun : ¬ (s.fl.poll.en || decide (s.fl.dbAddr = 0) || decide (s.fl.shAddr = 0) || decide (s.fl.dbAddr = s.fl.shAddr)) = true := by
    rw [hen, decide_eq_false hdb, decide_eq_false hsh, decide_eq_false hne]; decide
  exact congrArg (fun f : Flue => ({ s with fl := f } : State).syncDstate) ((if_neg hon).trans (if_neg hrun))

/-! What a poll takes for one ring. -/

section Rings

variable {s : State} {b : List Byte} {n : Nat}

theorem State.pollSq_of_off (h : (s.fl.sqs.get n).en = false) : s.pollSq b n = s := by
  have hoff : (!(s.fl.sqs.get n).en || (s.fl.sqs.get n).err) = true := by rw [h]; rfl
  exact if_pos hoff

theorem State.pollCq_of_off (h : (s.fl.cqs.get n).en = false) : s.pollCq b n = s := by
  have hoff : (!(s.fl.cqs.get n).en || (s.fl.cqs.get n).err) = true := by rw [h]; rfl
  exact if_pos hoff

theorem State.pollBq_of_off (h : (s.fl.eqs.get n).en = false) : s.pollBq b n = s := by
  have hoff : (!(s.fl.eqs.get n).en || (s.fl.eqs.get n).bqErr) = true := by rw [h]; rfl
  exact if_pos hoff

theorem State.pollEq_of_off (h : (s.fl.eqs.get n).en = false) : s.pollEq b n = s := by
  have hoff : (!(s.fl.eqs.get n).en || (s.fl.eqs.get n).err) = true := by rw [h]; rfl
  exact if_pos hoff

theorem State.pollSq_cqs : (s.pollSq b n).fl.cqs = s.fl.cqs := by
  unfold State.pollSq
  dsimp only
  split
  · rfl
  · split <;> rfl

theorem State.pollCq_sqs : (s.pollCq b n).fl.sqs = s.fl.sqs := by
  unfold State.pollCq
  dsimp only
  split
  · rfl
  · split <;> rfl

/-- A poll of SQ `j` leaves the other SQs. -/
theorem State.pollSq_sqs_ne {j : Nat} (h : j ≠ n) : (s.pollSq b j).fl.sqs.get n = s.fl.sqs.get n := by
  unfold State.pollSq
  dsimp only
  split
  · rfl
  · split <;> exact Tab.get_set_ne s.fl.sqs j n _ h

theorem State.pollCq_cqs_ne {j : Nat} (h : j ≠ n) : (s.pollCq b j).fl.cqs.get n = s.fl.cqs.get n := by
  unfold State.pollCq
  dsimp only
  split
  · rfl
  · split <;> exact Tab.get_set_ne s.fl.cqs j n _ h

/-- An enabled SQ takes a valid tail, and is in ring error after another (R290). -/
def SqRing.polled (q : SqRing) (t : BitVec 16) : SqRing :=
  if !q.en || q.err then q else if idxOk q.size t q.head q.tail t then { q with tail := t } else { q with err := true }

/-- An enabled CQ takes a valid head, and is in ring error after another (R290). -/
def CqRing.polled (q : CqRing) (h : BitVec 16) : CqRing :=
  if !q.en || q.err then q else if idxOk q.size q.tail h q.head h then { q with head := h } else { q with err := true }

theorem State.pollSq_sqs_self (hn : n < 16) : (s.pollSq b n).fl.sqs.get n = (s.fl.sqs.get n).polled (pageIdx b 0x10 n) := by
  unfold State.pollSq SqRing.polled
  dsimp only
  split
  · rfl
  · split <;> exact Tab.get_set_self s.fl.sqs n _ hn

theorem State.pollCq_cqs_self (hn : n < 16) : (s.pollCq b n).fl.cqs.get n = (s.fl.cqs.get n).polled (pageIdx b 0x30 n) := by
  unfold State.pollCq CqRing.polled
  dsimp only
  split
  · rfl
  · split <;> exact Tab.get_set_self s.fl.cqs n _ hn

end Rings

/-- A shadow write stays due, and one is due where SQ `n` or CQ `n` has got into ring error. -/
def ErrDue (n : Nat) (a b : Flue) : Prop :=
  (a.shadowDirty = true → b.shadowDirty = true) ∧
  ((b.sqs.get n).err = true → (a.sqs.get n).err = true ∨ b.shadowDirty = true) ∧
  ((b.cqs.get n).err = true → (a.cqs.get n).err = true ∨ b.shadowDirty = true)

theorem ErrDue.refl (n : Nat) (a : Flue) : ErrDue n a a := ⟨id, .inl, .inl⟩

theorem ErrDue.trans {n : Nat} {a b c : Flue} (h : ErrDue n a b) (k : ErrDue n b c) : ErrDue n a c := by
  obtain ⟨h1, h2, h3⟩ := h
  obtain ⟨k1, k2, k3⟩ := k
  exact ⟨fun x => k1 (h1 x), fun x => (k2 x).elim (fun y => (h2 y).imp id k1) .inr,
    fun x => (k3 x).elim (fun y => (h3 y).imp id k1) .inr⟩

theorem ErrDue.of_dirty {n : Nat} {a b : Flue} (h : b.shadowDirty = true) : ErrDue n a b :=
  ⟨fun _ => h, fun _ => .inr h, fun _ => .inr h⟩

theorem State.pollSq_errDue (s : State) (b : List Byte) (n j : Nat) : ErrDue n s.fl (s.pollSq b j).fl := by
  unfold State.pollSq
  dsimp only
  split
  · exact ErrDue.refl n _
  · split
    · refine ⟨id, fun h => .inl ?_, .inl⟩
      have h : ((s.fl.sqs.set j { s.fl.sqs.get j with tail := pageIdx b 0x10 j }).get n).err = true := h
      by_cases hj : j = n
      · subst hj
        by_cases hlt : j < 16
        · rw [Tab.get_set_self _ _ _ hlt] at h
          exact h
        · simpa [Tab.get, Tab.set, hlt] using h
      · rw [Tab.get_set_ne _ _ _ _ hj] at h
        exact h
    · exact ErrDue.of_dirty rfl

theorem State.pollCq_errDue (s : State) (b : List Byte) (n j : Nat) : ErrDue n s.fl (s.pollCq b j).fl := by
  unfold State.pollCq
  dsimp only
  split
  · exact ErrDue.refl n _
  · split
    · refine ⟨id, .inl, fun h => .inl ?_⟩
      have h : ((s.fl.cqs.set j { s.fl.cqs.get j with head := pageIdx b 0x30 j }).get n).err = true := h
      by_cases hj : j = n
      · subst hj
        by_cases hlt : j < 16
        · rw [Tab.get_set_self _ _ _ hlt] at h
          exact h
        · simpa [Tab.get, Tab.set, hlt] using h
      · rw [Tab.get_set_ne _ _ _ _ hj] at h
        exact h
    · exact ErrDue.of_dirty rfl

/-! The EQs of a poll leave the others. -/

/-- The SQs, the CQs and whether a shadow write is due, which the EQs only ask for. -/
theorem State.pollExport_frame (s : State) (b : List Byte) (n : Nat) :
    ((s.pollBq b n).pollEq b n).fl.sqs = s.fl.sqs ∧ ((s.pollBq b n).pollEq b n).fl.cqs = s.fl.cqs ∧
      (s.fl.shadowDirty = true → ((s.pollBq b n).pollEq b n).fl.shadowDirty = true) := by
  have hbq : ∀ q : State, (q.pollBq b n).fl.sqs = q.fl.sqs ∧ (q.pollBq b n).fl.cqs = q.fl.cqs ∧
      (q.fl.shadowDirty = true → (q.pollBq b n).fl.shadowDirty = true) := by
    intro q
    unfold State.pollBq
    dsimp only
    split
    · exact ⟨rfl, rfl, id⟩
    · split
      · exact ⟨rfl, rfl, id⟩
      · exact ⟨rfl, rfl, fun _ => rfl⟩
  have heq : ∀ q : State, (q.pollEq b n).fl.sqs = q.fl.sqs ∧ (q.pollEq b n).fl.cqs = q.fl.cqs ∧
      (q.fl.shadowDirty = true → (q.pollEq b n).fl.shadowDirty = true) := by
    intro q
    unfold State.pollEq
    dsimp only
    split
    · exact ⟨rfl, rfl, id⟩
    · split
      · exact ⟨rfl, rfl, id⟩
      · exact ⟨rfl, rfl, fun _ => rfl⟩
  obtain ⟨h1, h2, h3⟩ := hbq s
  obtain ⟨k1, k2, k3⟩ := heq (s.pollBq b n)
  exact ⟨k1.trans h1, k2.trans h2, fun h => k3 (h3 h)⟩

/-- The head of a successful poll: the page's GEN, the polling interval and the counters. -/
def State.pollHead (s : State) (b : List Byte) : State :=
  s.modFl (fun f =>
    let p := f.poll
    let g :=
      if p.prev = some (pageKey b) then
        { f with stats := f.stats.modify 1 (· + 1),
                 poll := { p with count := p.count + 1, idleMode := p.idleMode || decide (p.empty.toNat ≤ p.count + 1) } }
      else goActive f s.fb.mir.tick
    { g with gecho := BitVec.ofNat 32 (leAt b 0 4), shadowDirty := f.shadowDirty || decide (BitVec.ofNat 32 (leAt b 0 4) ≠ f.gecho),
             poll := { g.poll with fails := 0, reading := false, prev := some (pageKey b) } })

/-- The SQs and the CQs after a poll's page. -/
def State.pollRings (s : State) (b : List Byte) : State :=
  (List.range 16).foldl (fun (q : State) n => (q.pollSq b n).pollCq b n) s

/-- The EQs after a poll's page. -/
def State.pollExports (s : State) (b : List Byte) : State :=
  (List.range 4).foldl (fun (q : State) n => (q.pollBq b n).pollEq b n) s

theorem State.pollExports_rings (s : State) (b : List Byte) :
    (s.pollExports b).fl.sqs = s.fl.sqs ∧ (s.pollExports b).fl.cqs = s.fl.cqs := by
  unfold State.pollExports
  refine List.foldlRecOn (motive := fun q : State => q.fl.sqs = s.fl.sqs ∧ q.fl.cqs = s.fl.cqs) (List.range 4) _ ⟨rfl, rfl⟩ ?_
  intro q hq i _
  obtain ⟨h1, h2, -⟩ := q.pollExport_frame b i
  exact ⟨h1.trans hq.1, h2.trans hq.2⟩

theorem State.pollGood_eq (s : State) (b : List Byte) : s.pollGood b = ((s.pollHead b).pollRings b).pollExports b := rfl

theorem State.pollHead_rings (s : State) (b : List Byte) :
    (s.pollHead b).fl.sqs = s.fl.sqs ∧ (s.pollHead b).fl.cqs = s.fl.cqs ∧ (s.pollHead b).fl.eqs = s.fl.eqs := by
  unfold State.pollHead
  dsimp only [State.modFl]
  split <;> exact ⟨rfl, rfl, rfl⟩

theorem State.pollHead_poll (s : State) (b : List Byte) :
    (s.pollHead b).fl.gecho = BitVec.ofNat 32 (leAt b 0 4) ∧ (s.pollHead b).fl.poll.reading = false ∧
      (s.pollHead b).fl.poll.fails = 0 ∧ (s.pollHead b).fl.poll.prev = some (pageKey b) ∧
      (s.pollHead b).fl.poll.en = s.fl.poll.en := by
  unfold State.pollHead
  dsimp only [State.modFl]
  split <;> exact ⟨rfl, rfl, rfl, rfl, rfl⟩

/-- With every ring disabled a poll takes the page alone. -/
theorem State.pollGood_of_off {s : State} (b : List Byte) (hsq : ∀ i, i < 16 → (s.fl.sqs.get i).en = false)
    (hcq : ∀ i, i < 16 → (s.fl.cqs.get i).en = false) (heq : ∀ i, i < 4 → (s.fl.eqs.get i).en = false) :
    s.pollGood b = s.pollHead b := by
  obtain ⟨h1, h2, h3⟩ := s.pollHead_rings b
  have hrings : (s.pollHead b).pollRings b = s.pollHead b := by
    refine List.foldlRecOn (motive := fun q => q = s.pollHead b) (List.range 16) _ rfl ?_
    intro q hq i hi
    have hi : i < 16 := List.mem_range.1 hi
    rw [hq, State.pollSq_of_off (by rw [h1]; exact hsq i hi), State.pollCq_of_off (by rw [h2]; exact hcq i hi)]
  rw [State.pollGood_eq, hrings]
  refine List.foldlRecOn (motive := fun q => q = s.pollHead b) (List.range 4) _ rfl ?_
  intro q hq i hi
  have hi : i < 4 := List.mem_range.1 hi
  rw [hq, State.pollBq_of_off (by rw [h3]; exact heq i hi), State.pollEq_of_off (by rw [h3]; exact heq i hi)]

/-- A poll gives SQ `n` and CQ `n` their own indices of its page. -/
theorem State.pollGood_ring (s : State) (b : List Byte) {n : Nat} (hn : n < 16) :
    (s.pollGood b).fl.sqs.get n = (s.fl.sqs.get n).polled (pageIdx b 0x10 n) ∧
      (s.pollGood b).fl.cqs.get n = (s.fl.cqs.get n).polled (pageIdx b 0x30 n) := by
  obtain ⟨h1, h2, -⟩ := s.pollHead_rings b
  obtain ⟨he1, he2⟩ := ((s.pollHead b).pollRings b).pollExports_rings b
  obtain ⟨q, hq, hown⟩ := foldl_range_own (fun q : State => (q.fl.sqs.get n, q.fl.cqs.get n))
    (fun (q : State) n => (q.pollSq b n).pollCq b n) 16 n hn
    (fun q j _ hj => Prod.ext ((congrArg (Tab.get · n) State.pollCq_sqs).trans (State.pollSq_sqs_ne hj))
      ((State.pollCq_cqs_ne hj).trans (congrArg (Tab.get · n) State.pollSq_cqs))) (s.pollHead b)
  obtain ⟨hq1, hq2⟩ := Prod.mk.inj hq
  obtain ⟨ho1, ho2⟩ := Prod.mk.inj hown
  constructor
  · rw [State.pollGood_eq, he1]
    unfold State.pollRings
    refine ho1.trans ?_
    rw [State.pollCq_sqs, State.pollSq_sqs_self hn, hq1, h1]
  · rw [State.pollGood_eq, he2]
    unfold State.pollRings
    refine ho2.trans ?_
    rw [State.pollCq_cqs_self hn, State.pollSq_cqs, hq2, h2]

theorem State.pollGood_errDue (s : State) (b : List Byte) (n : Nat) : ErrDue n s.fl (s.pollGood b).fl := by
  have hhead : ErrDue n s.fl (s.pollHead b).fl := by
    obtain ⟨h1, h2, -⟩ := s.pollHead_rings b
    refine ⟨fun h => ?_, fun h => .inl (by rwa [h1] at h), fun h => .inl (by rwa [h2] at h)⟩
    have hd : (s.pollHead b).fl.shadowDirty = (s.fl.shadowDirty || decide (BitVec.ofNat 32 (leAt b 0 4) ≠ s.fl.gecho)) := by
      unfold State.pollHead
      dsimp only [State.modFl]
    rw [hd, h, Bool.true_or]
  have hrings : ErrDue n (s.pollHead b).fl ((s.pollHead b).pollRings b).fl :=
    foldl_rel (fun p q : State => ErrDue n p.fl q.fl) (fun p => ErrDue.refl n p.fl) (fun _ _ _ => ErrDue.trans) _
      (fun q j => (q.pollSq_errDue b n j).trans ((q.pollSq b j).pollCq_errDue b n j)) _ _
  have hexp : ErrDue n ((s.pollHead b).pollRings b).fl (s.pollGood b).fl := by
    refine foldl_rel (fun p q : State => ErrDue n p.fl q.fl) (fun p => ErrDue.refl n p.fl) (fun _ _ _ => ErrDue.trans) _
      (fun q j => ?_) _ _
    obtain ⟨h1, h2, h3⟩ := q.pollExport_frame b j
    exact ⟨h3, fun h => .inl (by rwa [h1] at h), fun h => .inl (by rwa [h2] at h)⟩
  exact (hhead.trans hrings).trans hexp

theorem idxOk_iff (size : BitVec 4) (prod cons old new : BitVec 16) :
    idxOk size prod cons old new = true ↔ (prod - cons).toNat ≤ 2 ^ size.toNat ∧ (new - old).toNat ≤ 2 ^ size.toNat := by
  rw [idxOk, Bool.and_eq_true, decide_eq_true_iff, decide_eq_true_iff] <;> rfl

end Sys2Proof.Machine

namespace Sys2Proof

open Machine

/-- Settles O44: DSTATE's event and the EQs keep what a poll has taken, and each ring takes its own index. -/
theorem polling : Obligations.Polling := by
  unfold Obligations.Polling
  refine ⟨fun s => ?_, fun s b n => ?_⟩
  · intro p tick
    refine ⟨?enable, ?start, ?complete⟩
    case enable =>
      intro v hbar hen hdb hsh hne
      have hexec : exec (.pollEnSet v) s = .next (s.putPollCtl (v ||| 1)) := congrArg Host.Outcome.next (if_pos hbar)
      rw [State.putPollCtl_on (getLsbD_or_one v) hen hdb hsh hne] at hexec
      refine ⟨_, hexec, State.syncDstate_poll_en _, State.syncDstate_poll_halt _, State.syncDstate_poll_idleMode _ rfl,
        (State.syncDstate_poll_act _).trans ?_, (State.syncDstate_poll_idle _).trans ?_⟩
      · rw [← fieldN_or_one v 8 (by decide : 1 ≤ 8)] <;> rfl
      · rw [← fieldN_or_one v 16 (by decide : 1 ≤ 16)] <;> rfl
    case start =>
      intro htalks hen hread hpassed next
      have hrun : (!s.flueTalks || !p.en || p.reading || !passed tick p.target) = false := by
        rw [htalks, hen, hread, passed_eq, hpassed] <;> rfl
      have hexec : exec .poll s = .next (s.modFl (fun f =>
          { f with poll := { p with reading := true, target := next }, stats := f.stats.modify 0 (· + 1), l1 := false })) :=
        congrArg Host.Outcome.next (if_neg (by rw [hrun]; decide))
      exact ⟨_, hexec, rfl, Tab.get_modify_self s.fl.stats 0 _ (by decide)⟩
    case complete =>
      intro hread hon
      have hrun : (!s.fl.poll.reading || !s.flueOn) = false := by rw [hread, hon] <;> rfl
      refine ⟨fun b hsq hcq heq => ?_, ?_⟩
      · have hexec : exec (.pollComplete (some b)) s = .next (s.pollGood b) :=
          congrArg Host.Outcome.next (if_neg (by rw [hrun]; decide))
        rw [State.pollGood_of_off b hsq hcq heq] at hexec
        exact ⟨_, hexec, s.pollHead_poll b⟩
      · have hexec : exec (.pollComplete none) s = .next s.pollBad :=
          congrArg Host.Outcome.next (if_neg (by rw [hrun]; decide))
        refine ⟨_, hexec, ?_⟩
        unfold State.pollBad
        rw [State.syncDstate_poll_reading, State.syncDstate_poll_fails, State.syncDstate_stats, State.syncDstate_poll_en,
          State.syncDstate_poll_halt]
        refine ⟨rfl, rfl, Tab.get_modify_self s.fl.stats 2 _ (by decide), fun hlt => ?_, fun hge => ⟨?_, ?_⟩⟩
        · have hlt : s.fl.poll.fails + 1 < 8 := Nat.succ_lt_succ hlt
          change (s.fl.poll.en && decide (s.fl.poll.fails + 1 < 8)) = s.fl.poll.en
          rw [decide_eq_true hlt, Bool.and_true]
        · have hge : ¬ s.fl.poll.fails + 1 < 8 := Nat.not_lt.2 (Nat.succ_le_succ hge)
          change (s.fl.poll.en && decide (s.fl.poll.fails + 1 < 8)) = false
          rw [decide_eq_false hge, Bool.and_false]
        · change (s.fl.poll.halt || decide (8 ≤ s.fl.poll.fails + 1)) = true
          rw [decide_eq_true (Nat.succ_le_succ hge), Bool.or_true]
  · intro ok hread hon hn
    have hrun : (!s.fl.poll.reading || !s.flueOn) = false := by rw [hread, hon] <;> rfl
    have hexec : exec (.pollComplete (some b)) s = .next (s.pollGood b) :=
      congrArg Host.Outcome.next (if_neg (by rw [hrun]; decide))
    obtain ⟨hsq, hcq⟩ := s.pollGood_ring b hn
    obtain ⟨-, hsqDue, hcqDue⟩ := s.pollGood_errDue b n
    refine ⟨_, hexec, ?_, ?_⟩
    · intro q t hen herr
      have hon : ¬ (!q.en || q.err) = true := by rw [hen, herr]; decide
      refine ⟨fun h => ?_, fun h => ?_⟩
      · rw [hsq]
        exact (if_neg hon).trans (if_pos ((idxOk_iff _ _ _ _ _).2 h))
      · have hnew : (s.pollGood b).fl.sqs.get n = { q with err := true } := by
          rw [hsq]
          exact (if_neg hon).trans (if_neg (fun e => h ((idxOk_iff _ _ _ _ _).1 e)))
        refine ⟨hnew, (hsqDue (by rw [hnew])).resolve_left (fun e => ?_)⟩
        exact Bool.false_ne_true (herr.symm.trans e)
    · intro q h hen herr
      have hon : ¬ (!q.en || q.err) = true := by rw [hen, herr]; decide
      refine ⟨fun hok => ?_, fun hbad => ?_⟩
      · rw [hcq]
        exact (if_neg hon).trans (if_pos ((idxOk_iff _ _ _ _ _).2 hok))
      · have hnew : (s.pollGood b).fl.cqs.get n = { q with err := true } := by
          rw [hcq]
          exact (if_neg hon).trans (if_neg (fun e => hbad ((idxOk_iff _ _ _ _ _).1 e)))
        refine ⟨hnew, (hcqDue (by rw [hnew])).resolve_left (fun e => ?_)⟩
        exact Bool.false_ne_true (herr.symm.trans e)

end Sys2Proof
end

section
/-! Descriptor fetches and exports (sections 11.4 and 11.6). -/

namespace Sys2Proof.Machine

/-! Bursts of descriptors. -/

section Burst

variable {s : State} {n : Nat}

/-- A burst with descriptors is bounded by what the ring holds and by its end (R303). -/
theorem State.burst_le (h : 0 < s.burst n) :
    s.burst n ≤ 16 ∧ s.burst n ≤ ((s.fl.sqs.get n).tail - (s.fl.sqs.get n).head).toNat ∧
      (s.fl.sqs.get n).head.toNat % 2 ^ (s.fl.sqs.get n).size.toNat + s.burst n ≤ 2 ^ (s.fl.sqs.get n).size.toNat := by
  have hmod : (s.fl.sqs.get n).head.toNat % 2 ^ (s.fl.sqs.get n).size.toNat < 2 ^ (s.fl.sqs.get n).size.toNat :=
    Nat.mod_lt _ (Nat.two_pow_pos _)
  revert h
  unfold State.burst
  dsimp only
  split
  · exact fun h => absurd h (Nat.lt_irrefl 0)
  · intro _
    unfold ringSize
    omega

theorem State.sqTurn_burst (h : s.sqTurn = some n) : 0 < s.burst n := by
  obtain ⟨i, hi, rfl⟩ := Option.map_eq_some_iff.1 h
  exact of_decide_eq_true (firstIdx_spec hi).2.1

end Burst

theorem length_parseDescs : ∀ (k ord : Nat) (b : List Byte), (parseDescs k ord b).length = k := by
  intro k
  induction k with
  | zero => exact fun _ _ => rfl
  | succ k ih => exact fun ord b => congrArg (· + 1) (ih (ord + 1) (b.drop 32))

theorem parseDescs_getElem? : ∀ (k ord : Nat) (b : List Byte) (j : Nat), j < k →
    (parseDescs k ord b)[j]? = some { bytes := bytesAt (b.drop (32 * j)) 0 32, ord := ord + j } := by
  intro k
  induction k with
  | zero => exact fun _ _ _ h => absurd h (Nat.not_lt_zero _)
  | succ k ih =>
    intro ord b j hj
    cases j with
    | zero => rfl
    | succ j =>
      refine (ih (ord + 1) (b.drop 32) j (Nat.lt_of_succ_lt_succ hj)).trans ?_
      rw [List.drop_drop, show 32 + 32 * j = 32 * (j + 1) by omega, show ord + 1 + j = ord + (j + 1) by omega]

/-! The writes of an item's data. -/

theorem splitWrites_flatten : ∀ (fuel : Nat) (a : BitVec 64) (l : List Byte), l.length ≤ fuel →
    ((splitWrites fuel a l).map (·.2)).flatten = l := by
  intro fuel
  induction fuel with
  | zero => exact fun a l h => (List.eq_nil_of_length_eq_zero (Nat.le_zero.1 h)).symm
  | succ fuel ih =>
    intro a l h
    unfold splitWrites
    cases l with
    | nil => rfl
    | cons x l =>
      have hk : 0 < 256 - a.toNat % 256 := by omega
      have hlen : ((x :: l).drop (256 - a.toNat % 256)).length ≤ fuel := by
        rw [List.length_drop]
        omega
      rw [List.isEmpty_cons, if_neg Bool.false_ne_true]
      dsimp only
      rw [List.map_cons, List.flatten_cons, ih _ _ hlen, List.take_append_drop]

theorem splitWrites_length : ∀ (fuel : Nat) (a : BitVec 64) (l : List Byte) (w : BitVec 64 × List Byte),
    w ∈ splitWrites fuel a l → 0 < w.2.length ∧ w.2.length ≤ 256 := by
  intro fuel
  induction fuel with
  | zero => exact fun a l w h => absurd h List.not_mem_nil
  | succ fuel ih =>
    intro a l w h
    unfold splitWrites at h
    cases l with
    | nil => exact absurd h List.not_mem_nil
    | cons x l =>
      rw [List.isEmpty_cons, if_neg Bool.false_ne_true] at h
      rcases List.mem_cons.1 h with rfl | h
      · dsimp only
        rw [List.length_take, List.length_cons]
        omega
      · exact ih _ _ w h

/-- From a buffer at a multiple of 256 the writes are of 256 bytes each but the last. -/
theorem splitWrites_getElem? : ∀ (k fuel : Nat) (a : BitVec 64) (l : List Byte), a.toNat % 256 = 0 → l.length ≤ fuel → 256 * k < l.length →
    (splitWrites fuel a l)[k]? = some (a + BitVec.ofNat 64 (256 * k), (l.drop (256 * k)).take 256) := by
  intro k
  induction k with
  | zero =>
    intro fuel a l ha hf hk
    obtain ⟨fuel, rfl⟩ : ∃ m, fuel = m + 1 := ⟨fuel - 1, by omega⟩
    unfold splitWrites
    have hne : ¬ l.isEmpty = true := by
      rw [List.isEmpty_iff]
      rintro rfl
      simp at hk
    rw [if_neg hne, ha]
    simp
  | succ k ih =>
    intro fuel a l ha hf hk
    obtain ⟨fuel, rfl⟩ : ∃ m, fuel = m + 1 := ⟨fuel - 1, by omega⟩
    unfold splitWrites
    have hne : ¬ l.isEmpty = true := by
      rw [List.isEmpty_iff]
      rintro rfl
      simp at hk
    have ha' : (a + BitVec.ofNat 64 256).toNat % 256 = 0 := by
      rw [BitVec.toNat_add, BitVec.toNat_ofNat]
      omega
    rw [if_neg hne, ha]
    refine (ih fuel _ (l.drop 256) ha' (by rw [List.length_drop]; omega) (by rw [List.length_drop]; omega)).trans ?_
    rw [List.drop_drop, BitVec.add_assoc, ← BitVec.ofNat_add, show 256 + 256 * k = 256 * (k + 1) by omega]

theorem putBufs_flatten {size : Nat} (hs : 0 < size) : ∀ (bufs : List (BitVec 64)) (l : List Byte), l.length ≤ bufs.length * size →
    ((putBufs size bufs l).map (·.2)).flatten = l := by
  intro bufs
  induction bufs with
  | nil => exact fun l h => (List.eq_nil_of_length_eq_zero (by simpa using h)).symm
  | cons a r ih =>
    intro l h
    unfold putBufs
    cases l with
    | nil => rfl
    | cons x l =>
      have hr : ((x :: l).drop size).length ≤ r.length * size := by
        rw [List.length_drop]
        rw [List.length_cons (as := r), Nat.succ_mul] at h
        omega
      rw [List.isEmpty_cons, if_neg Bool.false_ne_true, List.map_append, List.flatten_append, ih _ hr,
        splitWrites_flatten _ _ _ (by rw [List.length_take]; exact Nat.min_le_left _ _), List.take_append_drop]

theorem putBufs_length (size : Nat) : ∀ (bufs : List (BitVec 64)) (l : List Byte) (w : BitVec 64 × List Byte),
    w ∈ putBufs size bufs l → 0 < w.2.length ∧ w.2.length ≤ 256 := by
  intro bufs
  induction bufs with
  | nil => exact fun l w h => absurd h List.not_mem_nil
  | cons a r ih =>
    intro l w h
    unfold putBufs at h
    split at h
    · exact absurd h List.not_mem_nil
    · exact (List.mem_append.1 h).elim (splitWrites_length _ _ _ w) (ih _ w)

/-- The buffers of a part hold it (R308). -/
theorem length_le_partBufs (e : EqRing) (p : ExpPart) : p.bytes.length ≤ partBufs e p * 2 ^ e.bufLog.toNat := by
  have hpos : 0 < 2 ^ e.bufLog.toNat := Nat.two_pow_pos _
  have hdiv := Nat.lt_div_mul_add (a := p.bytes.length + 2 ^ e.bufLog.toNat - 1) hpos
  unfold partBufs
  omega

theorem EqRing.dataWrites_flatten (e : EqRing) : ∀ (ps : List ExpPart) (bufs : List (BitVec 64)),
    (ps.map (partBufs e)).sum ≤ bufs.length → ((e.dataWrites ps bufs).map (·.2)).flatten = (ps.map (·.bytes)).flatten := by
  intro ps
  induction ps with
  | nil => exact fun _ _ => rfl
  | cons p r ih =>
    intro bufs h
    rw [List.map_cons, List.sum_cons] at h
    have hp : p.bytes.length ≤ (bufs.take (partBufs e p)).length * 2 ^ e.bufLog.toNat := by
      rw [List.length_take, Nat.min_eq_left (by omega)]
      exact length_le_partBufs e p
    rw [EqRing.dataWrites, List.map_append, List.flatten_append, putBufs_flatten (Nat.two_pow_pos _) _ _ hp,
      ih _ (by rw [List.length_drop]; omega), List.map_cons, List.flatten_cons]

theorem EqRing.dataWrites_length (e : EqRing) : ∀ (ps : List ExpPart) (bufs : List (BitVec 64)) (w : BitVec 64 × List Byte),
    w ∈ e.dataWrites ps bufs → 0 < w.2.length ∧ w.2.length ≤ 256 := by
  intro ps
  induction ps with
  | nil => exact fun _ _ h => absurd h List.not_mem_nil
  | cons p r ih =>
    intro bufs w h
    exact (List.mem_append.1 h).elim (putBufs_length _ _ _ w) (ih _ w)

/-- The data of a part in one buffer at a multiple of 256. -/
theorem EqRing.dataWrites_one (e : EqRing) (p : ExpPart) (a : BitVec 64) (hone : partBufs e p = 1) (ha : a.toNat % 256 = 0)
    (k : Nat) (hk : 256 * k < p.bytes.length) :
    (e.dataWrites [p] [a])[k]? = some (a + BitVec.ofNat 64 (256 * k), (p.bytes.drop (256 * k)).take 256) := by
  have hlen : p.bytes.length ≤ 2 ^ e.bufLog.toNat := by
    have := length_le_partBufs e p
    rwa [hone, Nat.one_mul] at this
  have hne : ¬ p.bytes.isEmpty = true := by
    rw [List.isEmpty_iff]
    intro h
    rw [h] at hk
    exact absurd hk (Nat.not_lt_zero _)
  have hall : e.dataWrites [p] [a] = splitWrites (2 ^ e.bufLog.toNat) a p.bytes := by
    rw [EqRing.dataWrites, hone]
    change putBufs _ [a] p.bytes ++ [] = _
    rw [List.append_nil, putBufs, if_neg hne, List.take_of_length_le hlen, putBufs, List.append_nil]
  rw [hall]
  exact splitWrites_getElem? k _ a _ ha hlen hk

/-! The EQs. -/

/-- Ring `n` with the buffers of its run: the BQ entries that `b` holds (R306, R308). -/
def EqRing.buffered (e : EqRing) (x : ExpRun) (b : List Byte) : EqRing :=
  let bufs := (List.range x.need).map (fun i => BitVec.ofNat 64 (leAt b (16 * i) 8))
  { e with bqHead := x.first + BitVec.ofNat 16 x.need, run := some { x with rd := true, held := false, data := e.dataWrites x.parts bufs } }

/-- An item leaves its queue and it starts to go out (R308, R309). -/
def State.exportGo (s : State) (n : Nat) (prot : Bool) (i : Item) (ps : List ExpPart) : State :=
  (s.modFl (fun f => { f with l1 := f.l1 && ps.isEmpty })).modEq n (fun e =>
    { e with protQ := if prot then e.protQ.drop 1 else e.protQ, rollQ := if prot then e.rollQ else e.rollQ.drop 1,
             run := if ps.isEmpty then none
               else some { item := i, prot := prot, parts := ps, need := (ps.map (partBufs e)).sum, first := e.bqHead } })

/-- What a write of an item's data leaves of the Flue, and of ring `n`. -/
theorem Flue.exportWrite_frame (f : Flue) : ∃ out l1 held rr es, f.exportWrite =
    { f with out := out, l1 := l1, held := held, rrEq := rr, eqs := es } := by
  unfold Flue.exportWrite
  split
  · exact ⟨f.out, f.l1, f.held, f.rrEq, f.eqs, rfl⟩
  · dsimp only
    split
    · obtain ⟨out, l1, held, h⟩ := f.emit_frame (.write ‹BitVec 64 × List Byte›.1 ‹BitVec 64 × List Byte›.2)
      rw [h]
      exact ⟨_, _, _, _, _, rfl⟩
    · exact ⟨f.out, f.l1, f.held, f.rrEq, f.eqs, rfl⟩

/-- A ring as it stands with less of its data left. -/
def EqRing.Behind (e g : EqRing) : Prop :=
  ∃ d : Nat, g = { e with run := e.run.map (fun x => { x with data := x.data.drop d }) }

theorem EqRing.Behind.refl (e : EqRing) : e.Behind e := by
  refine ⟨0, ?_⟩
  cases h : e.run with
  | none => exact congrArg (fun r => { e with run := r }) h
  | some x => exact congrArg (fun r => { e with run := r }) h

theorem EqRing.Behind.trans {e g h : EqRing} (hg : e.Behind g) (hh : g.Behind h) : e.Behind h := by
  obtain ⟨d, rfl⟩ := hg
  obtain ⟨k, rfl⟩ := hh
  refine ⟨d + k, ?_⟩
  cases e.run with
  | none => rfl
  | some x => simp only [Option.map_some, List.drop_drop]

theorem Flue.exportWrite_behind (f : Flue) (n : Nat) (hn : n < 4) : (f.eqs.get n).Behind (f.exportWrite.eqs.get n) := by
  unfold Flue.exportWrite
  split
  · exact EqRing.Behind.refl _
  next i _ =>
    dsimp only
    split
    · by_cases h : (f.rrEq + 1 + i) % 4 = n
      · rw [h, Tab.get_modify_self _ _ _ hn]
        exact ⟨1, rfl⟩
      · rw [Tab.get_modify_ne _ _ _ _ h]
        exact EqRing.Behind.refl _
    · exact EqRing.Behind.refl _

theorem Flue.exportUntil_frame (n : Nat) : ∀ (k : Nat) (f : Flue), ∃ out l1 held rr es, f.exportUntil n k =
    { f with out := out, l1 := l1, held := held, rrEq := rr, eqs := es } := by
  intro k
  induction k with
  | zero => exact fun f => ⟨f.out, f.l1, f.held, f.rrEq, f.eqs, rfl⟩
  | succ k ih =>
    intro f
    unfold Flue.exportUntil
    split
    · exact ⟨f.out, f.l1, f.held, f.rrEq, f.eqs, rfl⟩
    · obtain ⟨out, l1, held, rr, es, h⟩ := f.exportWrite_frame
      obtain ⟨out', l1', held', rr', es', h'⟩ := ih f.exportWrite
      exact ⟨out', l1', held', rr', es', by rw [h', h]⟩

theorem Flue.exportUntil_behind (n m : Nat) (hn : n < 4) : ∀ (k : Nat) (f : Flue),
    (f.eqs.get n).Behind ((f.exportUntil m k).eqs.get n) := by
  intro k
  induction k with
  | zero => exact fun f => EqRing.Behind.refl _
  | succ k ih =>
    intro f
    unfold Flue.exportUntil
    split
    · exact EqRing.Behind.refl _
    · exact (f.exportWrite_behind n hn).trans (ih f.exportWrite)

/-- The data of a run that alone has any goes out in its order. -/
theorem Flue.exportUntil_out {n : Nat} (hn : n < 4) : ∀ (k : Nat) (f : Flue) (x : ExpRun), (f.eqs.get n).run = some x →
    (f.eqs.get n).err = false → f.canTalk = true → f.held = [] → (∀ m, m < 4 → m ≠ n → (f.eqs.get m).toWrite = []) → x.data.length ≤ k →
    (f.exportUntil n k).out = f.out ++ x.data.map (fun w => HostOut.write w.1 w.2) ∧ (f.exportUntil n k).held = [] := by
  intro k
  induction k with
  | zero =>
    intro f x _ _ _ hheld _ hk
    rw [List.eq_nil_of_length_eq_zero (Nat.le_zero.1 hk), List.map_nil, List.append_nil]
    exact ⟨rfl, hheld⟩
  | succ k ih =>
    intro f x hx herr htalk hheld hother hk
    have hown : (f.eqs.get n).toWrite = x.data := by
      unfold EqRing.toWrite
      rw [hx, herr] <;> rfl
    unfold Flue.exportUntil
    rw [hown]
    cases hd : x.data with
    | nil => exact ⟨(List.append_nil _).symm, hheld⟩
    | cons w r =>
      rw [List.isEmpty_cons, if_neg Bool.false_ne_true]
      have hturn : ∃ i, firstIdx (fun i => !(f.eqs.get ((f.rrEq + 1 + i) % 4)).toWrite.isEmpty) 4 = some i ∧ (f.rrEq + 1 + i) % 4 = n := by
        cases hf : firstIdx (fun i => !(f.eqs.get ((f.rrEq + 1 + i) % 4)).toWrite.isEmpty) 4 with
        | none =>
          have := firstIdx_eq_none_iff.1 hf ((n + 3 + 4 * f.rrEq - f.rrEq) % 4) (Nat.mod_lt _ (by decide))
          rw [show (f.rrEq + 1 + (n + 3 + 4 * f.rrEq - f.rrEq) % 4) % 4 = n by omega, hown, hd] at this
          exact absurd this.symm Bool.false_ne_true
        | some i =>
          refine ⟨i, rfl, Classical.byContradiction fun hne => ?_⟩
          have hi := (firstIdx_spec hf).2.1
          rw [hother _ (Nat.mod_lt _ (by decide)) hne] at hi
          exact Bool.false_ne_true hi
      obtain ⟨i, hi, hin⟩ := hturn
      have hwrite : f.exportWrite = { f with out := f.out ++ [HostOut.write w.1 w.2], l1 := false, rrEq := n, eqs := f.eqs.modify n (fun e => { e with run := e.run.map (fun x => { x with data := x.data.drop 1 }) }) } := by
        unfold Flue.exportWrite
        rw [hi]
        dsimp only
        rw [hin, hown, hd]
        dsimp only
        rw [f.emit_of_talks _ htalk hheld]
      have hget : (f.exportWrite.eqs.get n) = { f.eqs.get n with run := some { x with data := r } } := by
        rw [hwrite]
        refine (Tab.get_modify_self f.eqs n _ hn).trans ?_
        rw [hx, Option.map_some, hd, List.drop_one, List.tail_cons]
      obtain ⟨hout, hkeep⟩ := ih f.exportWrite { x with data := r } (by rw [hget]) (by rw [hget]; exact herr) (by rw [hwrite]; exact htalk)
        (by rw [hwrite]; exact hheld) (fun m hm hne => by
          rw [hwrite]
          exact (congrArg EqRing.toWrite (Tab.get_modify_ne f.eqs n m _ (Ne.symm hne))).trans (hother m hm hne))
        (by rw [hd, List.length_cons] at hk; exact Nat.le_of_succ_le_succ hk)
      refine ⟨hout.trans ?_, hkeep⟩
      rw [hwrite, List.map_cons, List.append_assoc] <;> rfl

/-- Ring `n` with the record of a part written (R310). -/
def EqRing.recorded (e : EqRing) (x : ExpRun) (prot : Bool) (p : ExpPart) (tick : Dbl) : EqRing :=
  let due := dueNow e.coalCnt e.coalTime e.since p.plain
  { e with tail := e.tail + 1, since := if due then 0 else e.since + 1, first := if e.since = 0 then tick else e.first, lost := 0,
           recs := e.recs ++ [{ idx := e.tail, prot := prot, isSeal := p.isSeal, val := p.val }],
           sealsDone := if p.isSeal then e.sealsDone ++ [p.val] else e.sealsDone,
           run := some { x with first := x.first + BitVec.ofNat 16 (partBufs e p) } }

/-- What the record of a part leaves: the ring, and the record as it is sent. -/
theorem Flue.exportPart_ring {f : Flue} {n : Nat} {x : ExpRun} (prot : Bool) (p : ExpPart) (tick : Dbl) (hn : n < 4)
    (hx : (f.eqs.get n).run = some x) :
    (f.exportPart n prot p tick).eqs.get n = (f.eqs.get n).recorded x prot p tick ∧
      (f.exportPart n prot p tick).out = (f.emit (.write (entryAddr (f.eqs.get n).base (f.eqs.get n).tail (f.eqs.get n).size 32)
        (exportBytes (f.eqs.get n) p x.first (partBufs (f.eqs.get n) p)))).out := by
  unfold Flue.exportPart
  rw [hx]
  exact ⟨Tab.get_set_self _ n _ hn, rfl⟩

/-- The records of an item's parts move the tail past each of them. -/
theorem Flue.exportParts_tail {n : Nat} (hn : n < 4) (prot : Bool) (tick : Dbl) : ∀ (ps : List ExpPart) (f : Flue) (x : ExpRun),
    (f.eqs.get n).run = some x →
    ((ps.foldl (fun (g : Flue) p => g.exportPart n prot p tick) f).eqs.get n).tail = (f.eqs.get n).tail + BitVec.ofNat 16 ps.length := by
  intro ps
  induction ps with
  | nil => exact fun f x _ => (BitVec.add_zero _).symm
  | cons p r ih =>
    intro f x hx
    have hring := (Flue.exportPart_ring prot p tick hn hx).1
    rw [List.foldl_cons, ih _ { x with first := x.first + BitVec.ofNat 16 (partBufs (f.eqs.get n) p) } (congrArg EqRing.run hring), hring]
    change (f.eqs.get n).tail + 1 + BitVec.ofNat 16 r.length = _
    rw [List.length_cons, BitVec.add_assoc, Nat.add_comm, BitVec.ofNat_add] <;> rfl

/-- The item of ring `n` is exported: the rest of its data, the records of its parts, its logs (R308 to R311). -/
def State.exportRecorded (s : State) (n : Nat) (x : ExpRun) : State :=
  (s.modFl (fun f =>
    let g := x.parts.foldl (fun (g : Flue) p => g.exportPart n x.prot p s.fb.mir.tick) (f.exportUntil n f.exportLeft)
    { g with eqs := g.eqs.modify n (fun e => { e with run := none, stopped := e.stopped || e.stopping, stopping := false }) })).modVault
    (fun v => v.exported n x.parts)

/-- The data still to come of all EQs is at least that of one. -/
theorem Flue.toWrite_le_exportLeft (f : Flue) {n : Nat} (hn : n < 4) : (f.eqs.get n).toWrite.length ≤ f.exportLeft := by
  have hmem : f.eqs.get n ∈ f.eqs.toList := by
    rw [Tab.get, dif_pos hn]
    exact Vector.mem_toList_iff.2 (Vector.getElem_mem hn)
  exact List.le_sum_of_mem (List.mem_map.2 ⟨_, hmem, rfl⟩)

/-- The logs of an item's parts are exported (R311). -/
theorem Vault.exported_mem {v : Vault} {n : Nat} {ps : List ExpPart} {p : ExpPart} {l : VLog} (hp : p ∈ ps) (hkind : p.isSeal = false)
    (hl : l ∈ (v.exported n ps).logs) (hval : l.seq = p.val) : n ∈ l.exps := by
  obtain ⟨l0, -, rfl⟩ := List.mem_map.1 hl
  have hseq : l0.seq = p.val := by
    revert hval
    split <;> exact id
  have hany : ps.any (fun p => !p.isSeal && decide (p.val = l0.seq)) = true :=
    List.any_eq_true.2 ⟨p, hp, by rw [hkind, hseq]; simp⟩
  rw [hany, Bool.true_and]
  cases h : l0.exps.contains n with
  | true => exact List.contains_iff_mem.1 h
  | false => exact List.mem_append_right _ (List.mem_singleton.2 rfl)

/-- The marks of several rings are requested one after the other. -/
theorem State.submit_marks : ∀ (l : List (Nat × Marks)) (s : State), s.life ≠ 4 → s.life ≠ 7 →
    (l.foldl (fun (q : State) x => q.submit (.marks x.1 x.2)) s).hs.vault.wait.map (·.kind) =
      s.hs.vault.wait.map (·.kind) ++ l.map (fun x => .marks x.1 x.2) := by
  intro l
  induction l with
  | nil => exact fun s _ _ => (List.append_nil _).symm
  | cons x r ih =>
    intro s h4 h7
    obtain ⟨v, hv⟩ := s.submit_vault (.marks x.1 x.2) none
    have hlife : (s.submit (.marks x.1 x.2)).life = s.life := by rw [hv]; rfl
    obtain ⟨y, hy, hkind, -, -⟩ := s.submit_queues (.marks x.1 x.2) none h4 h7
    rw [List.foldl_cons, ih _ (hlife ▸ h4) (hlife ▸ h7), hy, List.map_append, List.append_assoc, List.map_cons, List.map_nil, hkind] <;> rfl

end Sys2Proof.Machine

namespace Sys2Proof

open Machine

/-- Settles O45: the fetches and exports act on their ring alone, its data is cut into writes that join to it again, and
while it goes out the ring changes in its remaining data alone. -/
theorem descriptorsAndExports : Obligations.DescriptorsAndExports := by
  unfold Obligations.DescriptorsAndExports
  refine ⟨fun s sq => ?_, fun s q => ?_⟩
  · intro n q may
    have hn : n < 16 := sq.isLt
    refine ⟨?fetch, ?brings, ?repeats, ?fails⟩
    case fetch =>
      intro htalks hplan hturn k
      have hrun : (!s.flueTalks || s.pw.plan.isSome || decide (s.sqTurn ≠ some n)) = false := by
        rw [htalks, hplan, hturn]; simp
      have hexec : exec (.descriptorFetch sq) s = .next (s.modFl (fun f =>
          { f with sqs := f.sqs.modify n (fun q => { q with rd := some (q.head, k, false) }), rrSq := n, l1 := false })) :=
        congrArg Host.Outcome.next (if_neg (by rw [hrun]; decide))
      have hpos := State.sqTurn_burst hturn
      exact ⟨_, hexec, Tab.get_modify_self s.fl.sqs n _ hn, rfl, hpos, State.burst_le hpos⟩
    case brings =>
      intro i k b retry hrd hmay
      have hgo : (q.rdHeld && !s.fl.canTalk) = false := by
        rcases hmay with h | h <;> rw [h]
        · rfl
        · exact Bool.and_false _
      have hexec : exec (.descriptorReadComplete sq (some b)) s = .next (s.modFl (fun f =>
          { f with shadowDirty := true,
                   sqs := f.sqs.set n { q with rd := none, rdHeld := false, head := i + BitVec.ofNat 16 k, nextOrd := q.nextOrd + k,
                                               fetched := q.fetched ++ parseDescs k q.nextOrd b } })) := by
        refine congrArg Host.Outcome.next ?_
        change (match q.rd, some b with
          | some (i, k, _), some b => _
          | some (i, k, false), none => _
          | some (_, _, true), none => _
          | none, _ => s) = _
        rw [hrd]
        exact if_neg (by rw [hgo]; decide)
      refine ⟨_, hexec, rfl, ?_⟩
      intro q'
      have hq' : q' = _ := Tab.get_set_self s.fl.sqs n _ hn
      rw [hq']
      refine ⟨rfl, rfl, ?_, rfl, fun j hj => ?_⟩
      · rw [List.length_append, length_parseDescs]
      · rw [List.getD_eq_getElem?_getD, List.getElem?_append_right (Nat.le_add_right _ _), Nat.add_sub_cancel_left,
          parseDescs_getElem? k _ b j hj] <;> rfl
    case repeats =>
      intro i k hrd
      have hexec : exec (.descriptorReadComplete sq none) s = .next (s.modFl (fun f =>
          { f with sqs := f.sqs.set n { q with rd := some (i, k, true), rdHeld := !f.canTalk } })) := by
        refine congrArg Host.Outcome.next ?_
        change (match q.rd, (none : Option (List Byte)) with
          | some (i, k, _), some b => _
          | some (i, k, false), none => _
          | some (_, _, true), none => _
          | none, _ => s) = _
        rw [hrd]
      exact ⟨_, hexec, Tab.get_set_self s.fl.sqs n _ hn⟩
    case fails =>
      intro i k hrd hmay
      have hgo : (q.rdHeld && !s.fl.canTalk) = false := by
        rcases hmay with h | h <;> rw [h]
        · rfl
        · exact Bool.and_false _
      have hexec : exec (.descriptorReadComplete sq none) s = .next (s.ringErr (fun f =>
          { f with sqs := f.sqs.set n { q with rd := none, rdHeld := false, err := true } })) := by
        refine congrArg Host.Outcome.next ?_
        change (match q.rd, (none : Option (List Byte)) with
          | some (i, k, _), some b => _
          | some (i, k, false), none => _
          | some (_, _, true), none => _
          | none, _ => s) = _
        rw [hrd]
        exact if_neg (by rw [hgo]; decide)
      exact ⟨_, hexec, Tab.get_set_self s.fl.sqs n _ hn, rfl, rfl⟩
  · intro n e
    have hn : n < 4 := q.isLt
    refine ⟨?start, ?data, ?record, ?idle, ?marks⟩
    case start =>
      intro i r htalks hen herr hbq hrun hup ps run hcan hps
      have hgo : (!s.flueTalks || !e.en || e.err || e.bqErr || e.run.isSome || !s.hearthUp) = false := by
        rw [htalks, hen, herr, hbq, hrun, hup] <;> rfl
      have hsome : ps.isEmpty = false := List.isEmpty_eq_false_iff.2 hps
      refine ⟨fun hprot => ?_, fun hprot hroll => ?_⟩
      · have hexec : exec (.exportStart q) s = .next (s.exportGo n true i ps) := by
          refine congrArg Host.Outcome.next ((if_neg (by rw [hgo]; decide)).trans ?_)
          change (match e.protQ with | i :: _ => _ | [] => _) = _
          rw [hprot]
          exact if_pos hcan
        refine ⟨_, hexec, (Tab.get_modify_self s.fl.eqs n _ hn).trans ?_⟩
        rw [hsome]
        change { e with protQ := e.protQ.drop 1, rollQ := e.rollQ, run := some (run true) } = _
        rw [hprot] <;> rfl
      · have hexec : exec (.exportStart q) s = .next (s.exportGo n false i ps) := by
          refine congrArg Host.Outcome.next ((if_neg (by rw [hgo]; decide)).trans ?_)
          change (match e.protQ with | i :: _ => _ | [] => (match e.rollQ with | i :: _ => _ | [] => s)) = _
          rw [hprot, hroll]
          exact if_pos hcan
        refine ⟨_, hexec, (Tab.get_modify_self s.fl.eqs n _ hn).trans ?_⟩
        rw [hsome]
        change { e with protQ := e.protQ, rollQ := e.rollQ.drop 1, run := some (run false) } = _
        rw [hroll] <;> rfl
    case data =>
      intro x hx hrd hon hmay
      have hgo : (x.rd || !s.flueOn || (x.held && !s.fl.canTalk)) = false := by
        rw [hrd, hon]
        rcases hmay with h | h <;> rw [h]
        · rfl
        · simp
      refine ⟨fun b hok hneed => ?_, ?_⟩
      · have hbad : firstIdx (fun i => !bqEntryOk b i) x.need = none := by
          refine firstIdx_eq_none_iff.2 (fun i hi => ?_)
          obtain ⟨h1, h2⟩ := hok i hi
          rw [bqEntryOk, decide_eq_true h1, decide_eq_true h2] <;> rfl
        have hlen : ((List.range x.need).map (fun i => BitVec.ofNat 64 (leAt b (16 * i) 8))).length = x.need := by
          rw [List.length_map, List.length_range]
        have hexec : exec (.bqFetchComplete q (some b)) s =
            .next (s.modFl (fun f => { f with shadowDirty := true, eqs := f.eqs.set n (e.buffered x b) })) := by
          refine congrArg Host.Outcome.next ?_
          change (match e.run with | none => s | some x => _) = _
          rw [hx]
          refine (if_neg (by rw [hgo]; decide)).trans ?_
          dsimp only
          rw [hbad] <;> rfl
        refine ⟨_, _, hexec, Tab.get_set_self s.fl.eqs n _ hn, ?_, fun w => e.dataWrites_length _ _ w, ?_⟩
        · exact e.dataWrites_flatten _ _ (by rw [hlen, hneed])
        · intro p hp hone k hk
          have hbufs : partBufs e p = 1 := by
            rw [hp] at hneed
            simpa [hone] using hneed.symm
          have haddr : (BitVec.ofNat 64 (leAt b 0 8)).toNat % 256 = 0 := by
            have h0 : leAt b 0 8 % 256 = 0 := (hok 0 (by rw [hone]; exact Nat.one_pos)).1
            rw [BitVec.toNat_ofNat]
            omega
          rw [hp, hone, BitVec.ofNat_add]
          exact e.dataWrites_one p _ hbufs haddr k hk
      · cases hretry : x.retry with
        | true =>
          have hexec : exec (.bqFetchComplete q none) s = .next (s.ringErr (fun f =>
              { f with eqs := f.eqs.set n { (e.requeue x) with bqHead := e.bqHead, err := true, bqErr := true } })) := by
            refine congrArg Host.Outcome.next ?_
            change (match e.run with | none => s | some x => _) = _
            rw [hx]
            refine (if_neg (by rw [hgo]; decide)).trans ?_
            exact if_pos hretry
          have hring := Tab.get_set_self s.fl.eqs n { (e.requeue x) with bqHead := e.bqHead, err := true, bqErr := true } hn
          exact ⟨_, hexec, fun h => absurd h (by decide),
            fun _ => ⟨congrArg EqRing.run hring, congrArg EqRing.err hring, congrArg EqRing.bqErr hring⟩⟩
        | false =>
          have hexec : exec (.bqFetchComplete q none) s =
              .next (s.modEq n (fun e => { e with run := some { x with retry := true, held := !s.fl.canTalk } })) := by
            refine congrArg Host.Outcome.next ?_
            change (match e.run with | none => s | some x => _) = _
            rw [hx]
            refine (if_neg (by rw [hgo]; decide)).trans ?_
            exact if_neg (by rw [hretry]; decide)
          exact ⟨_, hexec, fun _ => congrArg EqRing.run (Tab.get_modify_self s.fl.eqs n _ hn), fun h => absurd h (by decide)⟩
    case record =>
      intro x hx hrd htalks herr
      have htalk : s.fl.canTalk = true := (Bool.and_eq_true_iff.1 htalks).2
      have hgo : (!x.rd || !s.flueTalks || (s.fl.eqs.get n).err) = false := by
        rw [hrd, htalks]
        exact herr
      have hexec : exec (.exportRecord q) s = .next (s.exportRecorded n x) := by
        refine congrArg Host.Outcome.next ?_
        change (match e.run with | none => s | some x => _) = _
        rw [hx]
        exact if_neg (by rw [hgo]; decide)
      obtain ⟨d, hd⟩ := Flue.exportUntil_behind n n hn s.fl.exportLeft s.fl
      have hd : (s.fl.exportUntil n s.fl.exportLeft).eqs.get n = { e with run := some { x with data := x.data.drop d } } := by
        rw [hd]
        exact congrArg (fun r : Option ExpRun => ({ e with run := r.map (fun x => { x with data := x.data.drop d }) } : EqRing)) hx
      have hrun := congrArg EqRing.run hd
      have hlast := fun g : Flue => Tab.get_modify_self g.eqs n
        (fun e => { e with run := none, stopped := e.stopped || e.stopping, stopping := false }) hn
      refine ⟨_, hexec, congrArg EqRing.run (hlast _), ?_, fun p l hp hkind hl hval => Vault.exported_mem hp hkind hl hval, ?_⟩
      · refine (congrArg EqRing.tail (hlast _)).trans ?_
        refine (Flue.exportParts_tail hn x.prot s.fb.mir.tick x.parts _ _ hrun).trans ?_
        rw [hd]
      · intro p hp
        obtain ⟨hring, hsent⟩ := Flue.exportPart_ring x.prot p s.fb.mir.tick hn hrun
        rw [hd] at hring hsent
        have hone : s.exportRecorded n x = s.exportRecorded n { x with parts := [p] } := by rw [← hp]
        rw [hone]
        refine ⟨(congrArg EqRing.recs (hlast _)).trans (congrArg EqRing.recs hring), fun hheld hother => ?_⟩
        obtain ⟨hout, hkeep⟩ := Flue.exportUntil_out hn s.fl.exportLeft s.fl x hx herr htalk hheld hother (by
          have hle := s.fl.toWrite_le_exportLeft hn
          have hown : (s.fl.eqs.get n).toWrite = x.data := by
            unfold EqRing.toWrite
            rw [show (s.fl.eqs.get n).run = some x from hx, show (s.fl.eqs.get n).err = false from herr] <;> rfl
          rwa [hown] at hle)
        obtain ⟨out, l1, held, rr, es, hframe⟩ := Flue.exportUntil_frame n s.fl.exportLeft s.fl
        have htalk' : (s.fl.exportUntil n s.fl.exportLeft).canTalk = true := by rw [hframe]; exact htalk
        rw [Flue.emit_of_talks _ _ htalk' hkeep] at hsent
        refine hsent.trans ?_
        rw [hout] <;> rfl
    case idle =>
      intro h
      have hgo : (!s.flueOn || !s.vaultOn || s.fb.hearth.down || s.changedMarks.isEmpty || !s.markDue) = true := by
        rcases h with h | h
        · rw [h, List.isEmpty_nil, Bool.or_true, Bool.true_or]
        · rw [h, Bool.not_false, Bool.or_true]
      exact congrArg Host.Outcome.next (if_pos hgo)
    case marks =>
      intro hon hvault hup hsome hdue
      have hgo : (!s.flueOn || !s.vaultOn || s.fb.hearth.down || s.changedMarks.isEmpty || !s.markDue) = false := by
        rw [hon, hvault, hup, List.isEmpty_eq_false_iff.2 hsome, hdue] <;> rfl
      exact ⟨_, congrArg Host.Outcome.next (if_neg (by rw [hgo]; decide)), rfl, State.submit_marks s.changedMarks s⟩

end Sys2Proof
end

section
/-! The debug challenge (section 13.6). -/

namespace Sys2Proof.Machine

/-- What has been sent stays sent. -/
theorem Flue.mem_emit {f : Flue} {o : HostOut} (x : HostOut) (h : o ∈ f.out) : o ∈ (f.emit x).out := by
  unfold Flue.emit
  split
  · exact List.mem_append_left _ h
  · exact h

theorem Flue.mem_postCq {f : Flue} {o : HostOut} (r : Run) (tick : Dbl) (h : o ∈ f.out) : o ∈ (f.postCq r tick).out := by
  unfold Flue.postCq
  dsimp only
  split
  · exact h
  · exact Flue.mem_emit (f := { (goActive f tick) with stats := f.stats.modify 3 (· + 1) }) _ h

theorem State.mem_finish {s : State} {o : HostOut} (t : Nat) (st : Byte) (res : List Byte) (h : o ∈ s.fl.out) :
    o ∈ (s.finish t st res).fl.out := by
  unfold State.finish
  split
  · exact h
  · exact Flue.mem_postCq _ _ h

section Challenge

variable {s : State}

/-- A nonce can be drawn: the owner's key and the hold-up are there and the TRNG works (R371). -/
def State.nonceReady (s : State) : Prop :=
  s.hs.otp.blank 4 16 8 = false ∧ s.hs.otp.huBlank = false ∧ s.hs.trng.latched = false ∧ s.hs.trng.started = true

/-- The Hearthstone with the nonce that it draws (R371). -/
def State.nonceDrawn (s : State) : State :=
  (s.trngTaken 32).modHs (fun h => { h with chal := { h.chal with nonce := some (s.trngBytes 32), at_ := s.pil.ph.tick } })

theorem State.getNonce_ring (h : s.nonceReady) (t : Nat) (p : BitVec 64) : s.getNonce (some (t, p)) =
    (s.nonceDrawn.modFl (fun f => f.emit (.write p (s.trngBytes 32)))).finish t 0x00 [s.nonceDrawn.triesByte] := by
  obtain ⟨h1, h2, h3, h4⟩ := h
  unfold State.getNonce
  rw [h1, h2, h3, h4] <;> rfl

theorem State.getNonce_tap (h : s.nonceReady) :
    s.getNonce none = s.nonceDrawn.modTap (fun t => { t with chalStatus := 0x00 }) := by
  obtain ⟨h1, h2, h3, h4⟩ := h
  unfold State.getNonce
  rw [h1, h2, h3, h4] <;> rfl

theorem State.askNonce_of_idle (h : s.hs.chal.judging = none) (who : Option (Nat × BitVec 64)) : s.askNonce who = s.getNonce who := by
  unfold State.askNonce
  rw [h]

/-- An answer is taken: its try is requested first (R373). -/
theorem State.answerIn_of_idle {n : List Byte} (bytes : List Byte) (tap : Bool) (tag : Option Nat) (hidle : s.hs.chal.judging = none)
    (hn : s.hs.chal.nonce = some n) (htries : s.triesLeft ≠ 0) : s.answerIn bytes tap tag =
      (s.modHs (fun h => { h with chal := { h.chal with judging := some { bytes := bytes, nonce := n, tap := tap, tag := tag } } })).submit
        (.tries (lifeEpoch s.hs.otp.thermo) (s.triesLeft - 1)) := by
  unfold State.answerIn
  dsimp only
  rw [hidle, hn]
  exact if_neg htries

/-- The Hearthstone but for its vault stays at a request. -/
theorem State.submit_chal (k : CKind) (tag : Option Nat) : (s.submit k tag).hs.chal = s.hs.chal := by
  obtain ⟨v, h⟩ := s.submit_vault k tag
  rw [h] <;> rfl

/-- The answer is judged, and its DEBUG log requested (R373 steps 4 and 5). -/
def State.answerJudged (s : State) (j : Judging) : State :=
  let st := s.judgeAnswer j.nonce j.bytes
  (s.modHs (fun h => { h with chal := { h.chal with judging := some { j with verdict := some st } } })).submit
    (s.devLog 0x85 ([if st = 0 then 1 else 2, BitVec.ofNat 8 (b2n j.tap), s.triesByte, st, j.bytes.getD 6 0, 0, 0, 0] ++ j.nonce ++
      (if st = 0x10 then List.replicate 32 0 else sha256 (bytesAt j.bytes 8 56))))

/-- A CHALLENGE_GET as it begins. -/
def State.chalBegun (s : State) (sq : Nat) (d : Desc) : State :=
  (s.begin_ sq d).modRun s.fl.nextTag (fun x => { x with kind := .chalGet d.dptr })

/-- The requests of the TAP reach the Hearthstone one by one (R406). -/
def State.tapServe (s : State) : Option (List Byte) → State
  | none => s.askNonce none
  | some b => s.answerIn b true none

/-- An Update-DR that nothing waits before is served at once while both links are up. -/
theorem State.tapRuns_of_up (x : Option (List Byte)) (hq : s.pil.tap.chalQ = []) (hon : s.vaultOn = true) (hp : s.plinkUp = true)
    (hh : s.hearthUp = true) : (s.modTap (fun t => { t with chalQ := t.chalQ ++ [x] })).tapRuns = s.tapServe x := by
  obtain ⟨hpd, hpt⟩ : s.fb.plink.down = false ∧ s.fb.plink.training = false := by simpa [State.plinkUp] using hp
  obtain ⟨hhd, hht⟩ : s.fb.hearth.down = false ∧ s.fb.hearth.training = false := by simpa [State.hearthUp] using hh
  have hself : (s.modTap (fun t => { t with chalQ := t.chalQ ++ [x] })).modTap (fun t => { t with chalQ := [] }) = s :=
    congrArg (fun l => ({ s with pil := { s.pil with tap := { s.pil.tap with chalQ := l } } } : State)) hq.symm
  have hdown : ¬ (!s.vaultOn || s.fb.plink.down || s.fb.hearth.down) = true := by rw [hon, hpd, hhd]; decide
  have htrain : ¬ (s.fb.plink.training || s.fb.hearth.training) = true := by rw [hpt, hht]; decide
  refine (if_neg hdown).trans ((if_neg htrain).trans ?_)
  have hone : (s.modTap (fun t => { t with chalQ := t.chalQ ++ [x] })).pil.tap.chalQ = [x] := congrArg (· ++ [x]) hq
  rw [hself, hone]
  cases x <;> rfl

end Challenge

end Sys2Proof.Machine

namespace Sys2Proof

open Machine

/-- Settles O55: a challenge touches the nonce, the judgement and what its transport is told. -/
theorem debugChallenge : Obligations.DebugChallenge := by
  unfold Obligations.DebugChallenge
  intro s sq d t c nonce ready tap
  refine ⟨?get, ?tapGet, ?tapWaits, ?answer, ?tapAnswer, ?tapBusy, ?judge⟩
  case get =>
    intro hb hlen hup hidle hready
    obtain ⟨hhd, hht⟩ : s.fb.hearth.down = false ∧ s.fb.hearth.training = false := by simpa [State.hearthUp] using hup
    have hexec : exec (.challengeGet sq) s = .next ((s.chalBegun sq.toNat d).askNonce (some (t, d.dptr))) := by
      refine congrArg Host.Outcome.next ((command_of_begins _ hb rfl rfl (decide_eq_true hlen)).trans ?_)
      refine (State.acrossLink_hearth_of_trained (s := s.begin_ sq.toNat d) hht _ _ _ _).trans ?_
      exact if_neg (by rw [show (s.begin_ sq.toNat d).fb.hearth.down = s.fb.hearth.down from rfl, hhd]; decide)
    rw [State.askNonce_of_idle (s := s.chalBegun sq.toNat d) hidle,
      State.getNonce_ring (s := s.chalBegun sq.toNat d) hready t d.dptr] at hexec
    obtain ⟨f, hf⟩ := State.finish_frame (((s.chalBegun sq.toNat d).nonceDrawn).modFl (fun f => f.emit (.write d.dptr nonce))) t 0x00
      [(s.chalBegun sq.toNat d).nonceDrawn.triesByte]
    have hhs := congrArg State.hs hf
    refine ⟨_, hexec, congrArg (fun h : Hearth => h.chal.nonce) hhs, congrArg (fun h : Hearth => h.trng.fifo) hhs, fun htalk hheld => ?_⟩
    refine State.mem_finish t 0x00 _ ?_
    have hout := congrArg Flue.out (Flue.emit_of_talks (s.chalBegun sq.toNat d).nonceDrawn.fl (.write d.dptr nonce) htalk hheld)
    exact hout.symm ▸ List.mem_append_right _ (List.mem_singleton.2 rfl)
  case tapGet =>
    intro ⟨hon, hir, hq, hvault, hp, hh⟩ hidle hready
    have hexec : exec .dbgChal s = .next (s.nonceDrawn.modTap (fun t => { t with chalStatus := 0x00 })) := by
      refine congrArg Host.Outcome.next ((if_pos (by rw [hon, hir]; rfl)).trans ?_)
      refine (State.tapRuns_of_up none hq hvault hp hh).trans ?_
      exact (State.askNonce_of_idle hidle none).trans (State.getNonce_tap hready)
    exact ⟨_, hexec, rfl, rfl, rfl⟩
  case tapWaits =>
    intro hon hir hvault hpd hhd hwait
    refine congrArg Host.Outcome.next ((if_pos (by rw [hon, hir]; rfl)).trans ?_)
    have hdown : ¬ (!s.vaultOn || s.fb.plink.down || s.fb.hearth.down) = true := by rw [hvault, hpd, hhd]; decide
    have htrain : (s.fb.plink.training || s.fb.hearth.training) = true := by
      simpa [State.plinkUp, State.hearthUp, hpd, hhd] using hwait
    exact (if_neg hdown).trans (if_pos htrain)
  case answer =>
    intro x n hb hpos htalk hup hfault hidle hn htries h4 h7
    obtain ⟨hhd, hht⟩ : s.fb.hearth.down = false ∧ s.fb.hearth.training = false := by simpa [State.hearthUp] using hup
    have hgone : ¬ s.vaultGone = true := by rw [State.vaultGone, hhd, hfault]; decide
    have hexec : exec (.challengeAnswer sq (some x)) s = .next
        (((s.begin_ sq.toNat d).modRun t (fun x => { x with kind := .challenge })).answerIn (bytesAt x 0 d.dlen) false (some t)) := by
      refine congrArg Host.Outcome.next ((command_of_begins_reading _ hb (Or.inr htalk) rfl (decide_eq_true hpos)).trans ?_)
      refine (if_neg hgone).trans ((State.acrossLink_hearth_of_trained (s := s.begin_ sq.toNat d) hht _ _ _ _).trans ?_)
      exact if_neg hgone
    refine ⟨_, hexec, ?_⟩
    rw [State.answerIn_of_idle (bytesAt x 0 d.dlen) false (some t) (by exact hidle) (by exact hn) (by exact htries)]
    exact ⟨congrArg Chal.judging (State.submit_chal _ _), State.submit_queues _ _ _ h4 h7⟩
  case tapAnswer =>
    intro bytes n ⟨hon, hir, hq, hvault, hp, hh⟩ hidle hn htries h4 h7
    have hexec : exec (.dbgAns (8 * bytes.length) bytes) s = .next (s.answerIn bytes true none) := by
      refine congrArg Host.Outcome.next ((if_pos (by rw [hon, hir]; rfl)).trans ?_)
      rw [if_pos rfl]
      exact State.tapRuns_of_up (some bytes) hq hvault hp hh
    refine ⟨_, hexec, ?_⟩
    rw [State.answerIn_of_idle bytes true none hidle hn htries]
    exact ⟨congrArg Chal.judging (State.submit_chal _ _), State.submit_queues _ _ _ h4 h7⟩
  case tapBusy =>
    intro bits bytes ⟨hon, hir, hq, hvault, hp, hh⟩ hbusy
    refine congrArg Host.Outcome.next ((if_pos (by rw [hon, hir]; rfl)).trans ?_)
    refine (State.tapRuns_of_up (some (if bits = 8 * bytes.length then bytes else [])) hq hvault hp hh).trans ?_
    have hsome : s.hs.chal.judging.isSome = true := Option.isSome_iff_ne_none.2 hbusy
    unfold State.tapServe State.answerIn
    dsimp only
    rw [hsome] <;> rfl
  case judge =>
    intro j hj hdone hnone h4 h7
    have hgo : ¬ (!j.tryDone || j.verdict.isSome) = true := by rw [hdone, hnone]; decide
    have hexec : exec .challengeJudge s = .next (s.answerJudged j) := by
      refine congrArg Host.Outcome.next ?_
      change (match s.hs.chal.judging with | some j => _ | none => s) = _
      rw [show s.hs.chal.judging = some j from hj]
      exact if_neg hgo
    exact ⟨_, _, _, hexec, State.submit_queues _ _ _ h4 h7, rfl, congrArg Chal.judging (State.submit_chal _ _)⟩

end Sys2Proof
end

section
/-! What stores, the ends of logs and commands and resets of cores leave of the device: stores everything but the threads and tables that
cells show, resets everything but the cores, the capture, the Firebox's memories and tables, the log slots with the vault, the Flue and
the nonce. -/

namespace Sys2Proof.Machine

/-- A core without what stores and fetches change: its threads, I-cache, local memory, watchpoints and the tables that cells show. -/
def Core.standing (k : Core) : Core :=
  { k with th := Tab.fill 8 {}, icache := [], icLock := 0, fills := [], slotq := [], lmem := [], mseq := 0, wp := Tab.fill 8 {}, embq := [] }

/-- The device without its capture, the Firebox's memories and tables, and its log slots and vault; of the cores what stands. -/
def State.outer (s : State) : State :=
  { s with cores := s.cores.map Core.standing
           fb := { mir := s.fb.mir, fclk := s.fb.fclk, relock := s.fb.relock, hearth := s.fb.hearth, plink := s.fb.plink }
           pil := { s.pil with cap := {} }
           hs := { s.hs with slots := Tab.fill 64 {}, freeCount := 0, vault := {} } }

/-- The device without its cores, its self-test, the nonce, the lockups that the Pilot knows, and its Flue. -/
def State.bare (s : State) : State :=
  { s with cores := Tab.fill 16 {}, fl := {}, bist := {}, pil := { s.pil with lockups := 0, lockupPin := true }
           hs := { s.hs with chal := { s.hs.chal with nonce := none } } }

/-- What a reset of a core leaves. -/
def State.shell (s : State) : State := s.outer.bare

section Frames

variable (s : State)

theorem State.foldl_outer {α : Type} (f : State → α → State) (h : ∀ q a, (f q a).outer = q.outer) (l : List α) :
    (l.foldl f s).outer = s.outer :=
  List.foldlRecOn l f (motive := fun q => q.outer = s.outer) rfl (fun q hq a _ => (h q a).trans hq)

theorem State.ite_outer (p : Prop) [Decidable p] (q r : State) :
    (if p then q else r).outer = if p then q.outer else r.outer :=
  apply_ite State.outer p q r

/-! ## The parts that `outer` leaves out -/

theorem State.outer_modCore (c : CoreId) (f : Core → Core) (h : (f (s.core c)).standing = (s.core c).standing) :
    (s.modCore c f).outer = s.outer :=
  congrArg (fun k : Tab Core 16 => ({ s.outer with cores := k } : State))
    (Tab.map_modify s.cores c.toNat f Core.standing h)

@[simp] theorem State.modTh_outer (c : CoreId) (t : ThId) (f : Thread → Thread) : (s.modTh c t f).outer = s.outer :=
  s.outer_modCore c _ rfl

@[simp] theorem State.modCap_outer (f : Capture → Capture) : (s.modCap f).outer = s.outer := rfl
@[simp] theorem State.modRing_outer (i : Nat) (f : EmRing → EmRing) : (s.modRing i f).outer = s.outer := rfl
@[simp] theorem State.modVault_outer (f : Vault → Vault) : (s.modVault f).outer = s.outer := rfl
@[simp] theorem State.modSlot_outer (i : Nat) (f : LogSlot → LogSlot) : (s.modSlot i f).outer = s.outer := rfl
@[simp] theorem State.putEv_outer (a : Nat) (b : Bool) : (s.putEv a b).outer = s.outer := rfl

@[simp] theorem State.submit_outer (k : CKind) (tag : Option Nat) : (s.submit k tag).outer = s.outer := by
  obtain ⟨v, h⟩ := s.submit_vault k tag
  rw [h] <;> rfl

/-! ## Stores -/

@[simp] theorem State.fetchLine_outer (c : CoreId) (t : ThId) : (s.fetchLine c t).outer = s.outer := by
  obtain ⟨f, h, hk⟩ := s.fetchLine_frame c t
  rw [h]
  refine s.outer_modCore c f ?_
  rw [hk.rest] <;> rfl

@[simp] theorem State.refetch_outer (c : CoreId) : (s.refetch c).outer = s.outer := by
  refine State.foldl_outer s _ (fun q i => ?_) _
  dsimp only
  split_ifs
  · exact State.fetchLine_outer _ _ _
  · rfl

@[simp] theorem State.putCellMem_outer (c : CoreId) (a : Nat) (v : Cell) : (s.putCellMem c a v).outer = s.outer := by
  unfold State.putCellMem
  split
  · exact s.outer_modCore c _ rfl
  · rfl
  · rfl

@[simp] theorem State.writeIcache_outer (c : CoreId) (v : Cell) : (s.writeIcache c v).outer = s.outer := by
  have hlock : (s.modCore c (fun k => { k with icLock := v.setWidth 2 })).outer = s.outer := s.outer_modCore c _ rfl
  have hinval : ∀ q : State, (q.modCore c Core.inval).outer = q.outer := fun q => q.outer_modCore c _ rfl
  unfold State.writeIcache
  dsimp only
  split_ifs
  · rw [State.refetch_outer, hinval, hlock]
  · exact hlock

@[simp] theorem State.pushEq_outer (c : CoreId) (e : Dbl) : (s.pushEq c e).outer = s.outer := by
  unfold State.pushEq
  split
  · exact s.outer_modCore c _ rfl
  · rfl

@[simp] theorem State.emEvent_outer (r kd src : Nat) (tick : Dbl) : (s.emEvent r kd src tick).outer = s.outer := by
  simp [State.emEvent, State.setEv]

@[simp] theorem State.endPost_outer (i : Nat) (trunc : Bool) : (s.endPost i trunc).outer = s.outer := by
  simp only [State.endPost]
  split <;> simp

@[simp] theorem State.stopChannel_outer (n : Nat) : (s.stopChannel n).outer = s.outer := by
  refine State.foldl_outer s _ (fun q i => ?_) _
  dsimp only
  split
  · split_ifs <;> simp
  · rfl

@[simp] theorem State.applyObj_outer (o : Obj) (v : Nat → Cell) : (s.applyObj o v).outer = s.outer := by
  unfold State.applyObj
  dsimp only
  split
  · split_ifs <;> simp
  · simp
  · simp

@[simp] theorem State.writeObjCell_outer (o : Obj) (k : Nat) (v : Cell) : (s.writeObjCell o k v).outer = s.outer := by
  unfold State.writeObjCell
  dsimp only
  split_ifs <;> simp

@[simp] theorem State.writeRingCell_outer (i off : Nat) (v : Cell) : (s.writeRingCell i off v).outer = s.outer := by
  unfold State.writeRingCell State.enableRing
  dsimp only
  split_ifs <;> simp

/-- A store to a device cell changes what the cell belongs to. -/
@[simp] theorem State.devStore_outer (c : CoreId) (a : Nat) (v : Cell) (dbg : Bool) : (s.devStore c a v dbg).outer = s.outer := by
  have harm : ∀ t i, (s.writeArm c t i v).outer = s.outer := fun t i => s.modTh_outer c t _
  have hmseq : (s.clearMseq c v).outer = s.outer := by
    unfold State.clearMseq
    split
    · exact s.outer_modCore c _ rfl
    · rfl
  have hwp : ∀ i k, (s.writeWp c i k v dbg).outer = s.outer := fun _ _ => s.outer_modCore c _ rfl
  have hcmp : ∀ n, (s.writeCmpCtrl n v).outer = s.outer := fun _ => rfl
  have hrel : ∀ i, (s.releaseRing i v).outer = s.outer := by
    intro i
    unfold State.releaseRing
    split <;> rfl
  have hgpio : ∀ k, (s.writeGpio k v).outer = s.outer := by
    intro k
    unfold State.writeGpio
    split <;> rfl
  have htrace : (s.writeTraceCtl v).outer = s.outer := rfl
  have hfull : (s.clearTraceFull v).outer = s.outer := by
    unfold State.clearTraceFull
    split <;> rfl
  unfold State.devStore
  cases objAt a with
  | none => simp [State.ite_outer, harm, hmseq, hwp, hcmp, hrel, hgpio, htrace, hfull]
  | some x => simp [State.ite_outer, harm, hmseq, hwp, hcmp, hrel, hgpio, htrace, hfull]

@[simp] theorem State.applyStore_outer (c : CoreId) (e : SEntry) : (s.applyStore c e).outer = s.outer := by
  have hincr : ∀ n v, (s.writeCmpIncr n v).outer = s.outer := by
    intro n v
    unfold State.writeCmpIncr
    split <;> rfl
  have htarget : ∀ n v, (s.writeCmpTarget n v).outer = s.outer := fun _ _ => rfl
  have hdbl : ∀ a v, (s.devStore2 a v).outer = s.outer := by
    intro a v
    unfold State.devStore2
    split_ifs <;> simp [hincr, htarget]
  unfold State.applyStore
  dsimp only
  split
  · rfl
  · split
    · split_ifs <;> simp
    · split_ifs <;> simp [hdbl]
    · simp

/-! ## Logs and cores -/

@[simp] theorem State.dropLog_outer (i : Nat) : (s.dropLog i).outer = s.outer := by
  unfold State.dropLog State.freeSlot
  dsimp only
  split <;> rfl

@[simp] theorem State.dropOpen_outer (c : CoreId) : (s.dropOpen c).outer = s.outer :=
  State.foldl_outer s _ (fun q i => q.dropLog_outer i) _

@[simp] theorem State.logReady_outer (i : Nat) : (s.logReady i).outer = s.outer := by
  unfold State.logReady
  dsimp only
  split_ifs <;> simp

@[simp] theorem State.readAppends_outer (c : CoreId) : (s.readAppends c).outer = s.outer := by
  refine State.foldl_outer s _ (fun q i => ?_) _
  dsimp only
  split_ifs <;> simp

@[simp] theorem State.endLock_outer (c : CoreId) (t : ThId) : (s.endLock c t).outer = s.outer := by
  unfold State.endLock
  split
  · rfl
  · exact s.modTh_outer c t _

/-! ## Resets -/

theorem State.shell_of_outer {s q : State} (h : q.outer = s.outer) : q.shell = s.shell := congrArg State.bare h

theorem State.foldl_shell {α : Type} (f : State → α → State) (h : ∀ q a, (f q a).shell = q.shell) (l : List α) :
    (l.foldl f s).shell = s.shell :=
  List.foldlRecOn l f (motive := fun q => q.shell = s.shell) rfl (fun q hq a _ => (h q a).trans hq)

@[simp] theorem State.modCore_shell (c : CoreId) (f : Core → Core) : (s.modCore c f).shell = s.shell := rfl
@[simp] theorem State.modFl_shell (f : Flue → Flue) : (s.modFl f).shell = s.shell := rfl
@[simp] theorem State.abandonBist_shell : s.abandonBist.shell = s.shell := rfl

@[simp] theorem State.syncDstate_shell : s.syncDstate.shell = s.shell := by
  unfold State.syncDstate
  split <;> rfl

@[simp] theorem State.finish_shell (t : Nat) (st : Byte) (res : List Byte) : (s.finish t st res).shell = s.shell := by
  obtain ⟨f, h⟩ := s.finish_frame t st res
  rw [h] <;> rfl

@[simp] theorem State.stopRuns_shell : s.stopRuns.shell = s.shell := by
  obtain ⟨f, h⟩ := s.stopRuns_frame
  rw [h] <;> rfl

/-- A core's stores, its open logs and what its commits still need, before it is swept (R166). -/
def State.coreDrained (s : State) (c : CoreId) : State :=
  ((s.core c).sb.foldl (fun (q : State) e => q.applyStore c e) (s.abandonBist.dropOpen c)).readAppends c

theorem State.coreDrained_outer (c : CoreId) : (s.coreDrained c).outer = s.abandonBist.outer :=
  (State.readAppends_outer _ c).trans ((State.foldl_outer _ _ (fun r e => r.applyStore_outer c e) _).trans (s.abandonBist.dropOpen_outer c))

/-- The core swept, with what stays of it, its lines released and the nonce gone. -/
def State.coreSwept (q : State) (c : CoreId) (down : Bool) (reinst : Bool) : State :=
  let s2 := q.modFb (fun f =>
    { f with holds := f.holds.filter (fun h => h.core ≠ c), wants := f.wants.filter (fun h => h.core ≠ c) })
  let s3 := s2.modCore c (fun k => { reinst := reinst, attached := k.attached })
  let s4 := s3.modHs (fun h => { h with chal := { h.chal with nonce := none } })
  if down then s4 else { s4 with pil := s4.pil.putLockups (setBit s4.pil.lockups c.toNat false) }

theorem State.resetCore_eq (c : CoreId) : s.resetCore c =
    ((s.coreDrained c).coreSwept c s.fb.plink.down (installState s.fLife)).syncDstate := by
  unfold State.resetCore State.coreDrained
  dsimp only
  generalize ((s.core c).sb.foldl (fun (q : State) e => q.applyStore c e) (s.abandonBist.dropOpen c)).readAppends c = q
  rfl

@[simp] theorem State.haltCore_shell (c : CoreId) : (s.haltCore c).shell = s.shell := by
  unfold State.haltCore
  split
  · rfl
  · rw [State.modCore_shell]
    exact State.shell_of_outer (State.foldl_outer s _ (fun q i => q.endLock_outer c _) _)

@[simp] theorem State.resetCore_shell (c : CoreId) : (s.resetCore c).shell = s.shell := by
  have h := State.shell_of_outer (s.coreDrained_outer c)
  rw [State.abandonBist_shell] at h
  rw [State.resetCore_eq, State.syncDstate_shell, ← h]
  generalize s.coreDrained c = q
  unfold State.coreSwept
  dsimp only
  split <;> rfl

@[simp] theorem State.endRights_shell : s.endRights.shell = s.shell := by
  unfold State.endRights
  rw [State.stopRuns_shell] <;> rfl

/-- The requests that RETIRED refuses take their logs and commands with them. -/
@[simp] theorem State.refuseWaiting_shell : s.refuseWaiting.shell = s.shell := by
  unfold State.refuseWaiting
  split
  · rfl
  · refine State.foldl_shell s _ (fun q c => ?_) _
    dsimp only
    have hdrop : (match c.kind with | .slot i => (q.unwait c).dropLog i | _ => q.unwait c).shell = q.shell := by
      split
      · exact State.shell_of_outer (State.dropLog_outer _ _)
      · rfl
    split
    · rw [State.finish_shell]
      exact hdrop
    · exact hdrop

end Frames

end Sys2Proof.Machine
end

section
/-! Life-cycle transitions (section 13.4). -/

namespace Sys2Proof.Machine

/-- No run has the tag of a command that has completed. -/
theorem State.finish_tag (s : State) (t : Nat) (st : Byte) (res : List Byte) : ∀ r, r ∈ (s.finish t st res).fl.runs → r.tag ≠ t := by
  intro r hr
  cases hrun : s.run? t with
  | none =>
    have hself : s.finish t st res = s := by
      unfold State.finish
      rw [hrun]
    rw [hself] at hr
    exact fun h => List.find?_eq_none.1 hrun r hr (decide_eq_true h)
  | some x =>
    rw [State.finish_of_run hrun] at hr
    exact of_decide_eq_true (List.mem_filter.1 hr).2

theorem State.syncDstate_runs (s : State) : s.syncDstate.fl.runs = s.fl.runs := by
  unfold State.syncDstate
  split <;> rfl

/-! ## The start of a transition -/

section Begin

variable {s : State} {sq : BitVec 4} {d : Desc} {dst : Nat} {blk : Option (List Byte)}

/-- The log of a transition is written where the Damper admits anything (R366). -/
def State.lifeLogged (s : State) : Bool := s.pil.dmp.huValid && s.pil.dmp.hu.c ≠ 0

/-- The block's token is recorded with the log. -/
def lifeTodo : Option (List Byte) → List CKind
  | some b => [.tokenId (fld b 16 8)]
  | none => []

/-- The transition under way, its command among those that run. -/
def State.lifeBegun (s : State) (t src dst : Nat) (blk : Option (List Byte)) : State :=
  (s.modHs (fun h => { h with life := some { src := src, dst := dst, tag := t, logged := s.lifeLogged, ready := !s.lifeLogged,
                                             waitSeal := s.lifeLogged && dst = 4 } })).modRun t
    (fun r => { r with kind := .lifecycle, todo := if s.lifeLogged then lifeTodo blk else [] })

theorem State.beginLife_eq (s : State) (t src dst : Nat) (blk : Option (List Byte)) : s.beginLife t src dst blk =
    if s.lifeLogged then (s.lifeBegun t src dst blk).submit (s.devLog 0x84 (s.lifePayload src dst blk)) (some t)
    else s.lifeBegun t src dst blk := by
  cases blk <;> rfl

/-- What has begun once a transition goes on past its checks (R366 step 2). -/
theorem State.beginLife_begun (h4 : s.life ≠ 4) (h7 : s.life ≠ 7) :
    let s' := (s.begin_ sq.toNat d).beginLife s.fl.nextTag s.life dst blk
    (∃ l, s'.hs.life = some l ∧ l.src = s.life ∧ l.dst = dst ∧ l.tag = s.fl.nextTag ∧ l.ready = !s.lifeLogged ∧ l.shots = none) ∧
      Running s s' sq .lifecycle (if s.lifeLogged then lifeTodo blk else []) ∧
      (s.lifeLogged = true → ∃ h pay, Queues s s' (.hw h pay false) ∧ h.cls = 0x84 ∧
        pay.take 2 = [BitVec.ofNat 8 s.life, BitVec.ofNat 8 dst]) := by
  intro s'
  have hrun : ∀ {q : State}, q.fl = ((s.begin_ sq.toNat d).lifeBegun s.fl.nextTag s.life dst blk).fl →
      Running s q sq .lifecycle (if s.lifeLogged then lifeTodo blk else []) := fun hq =>
    running_modRun s sq d (fun r => { r with kind := .lifecycle, todo := if s.lifeLogged then lifeTodo blk else [] }) _ _
      (fun _ => ⟨rfl, rfl⟩) rfl rfl (congrArg Flue.runs hq)
  cases hlog : s.lifeLogged with
  | false =>
    have hs' : s' = (s.begin_ sq.toNat d).lifeBegun s.fl.nextTag s.life dst blk :=
      ((s.begin_ sq.toNat d).beginLife_eq _ _ _ _).trans (if_neg (by rw [show (s.begin_ sq.toNat d).lifeLogged = false from hlog]; decide))
    rw [hlog] at hrun
    refine ⟨⟨_, congrArg (fun q : State => q.hs.life) hs', rfl, rfl, rfl, ?_, rfl⟩, hrun (congrArg State.fl hs'), fun h => absurd h (by decide)⟩
    exact congrArg (! ·) hlog
  | true =>
    have hs' : s' = ((s.begin_ sq.toNat d).lifeBegun s.fl.nextTag s.life dst blk).submit
        (s.devLog 0x84 ((s.begin_ sq.toNat d).lifePayload s.life dst blk)) (some s.fl.nextTag) :=
      ((s.begin_ sq.toNat d).beginLife_eq _ _ _ _).trans (if_pos hlog)
    rw [hlog] at hrun
    obtain ⟨v, hv⟩ := ((s.begin_ sq.toNat d).lifeBegun s.fl.nextTag s.life dst blk).submit_vault
      (s.devLog 0x84 ((s.begin_ sq.toNat d).lifePayload s.life dst blk)) (some s.fl.nextTag)
    have hlife : s'.hs.life = ((s.begin_ sq.toNat d).lifeBegun s.fl.nextTag s.life dst blk).hs.life := by
      rw [hs', hv] <;> rfl
    have hfl : s'.fl = ((s.begin_ sq.toNat d).lifeBegun s.fl.nextTag s.life dst blk).fl := by
      rw [hs', hv] <;> rfl
    refine ⟨⟨_, hlife, rfl, rfl, rfl, congrArg (! ·) hlog, rfl⟩, hrun hfl,
      fun _ => ⟨(s.begin_ sq.toNat d).devHdr 0x84, (s.begin_ sq.toNat d).lifePayload s.life dst blk, ?_, rfl, rfl⟩⟩
    · rw [hs']
      exact State.submit_queues ((s.begin_ sq.toNat d).lifeBegun s.fl.nextTag s.life dst blk) _ _ h4 h7

/-- A transition past its preconditions: one with a block checks it first (R367). -/
def State.lifeChecked (r : State) (d : Desc) (t : Nat) (buf : Option (List Byte)) : State :=
  if !blockTransitions.contains (r.life, d.p 0) then r.beginLife t r.life (d.p 0) none
  else match buf with
    | none => r.finish t 0x06
    | some x =>
      let b := bytesAt x 0 d.dlen
      let st := r.blockCheck b d.dlen (d.p 0)
      if st ≠ 0 then r.finish t st else r.beginLife t r.life (d.p 0) (some b)

end Begin

/-! ## The fuses of a transition -/

/-- The bits of a transition by its states (Table 13.5). -/
theorem burnShots_eq (src dst : Nat) (t : W32) : burnShots src dst t =
    if dst = 4 then [(0, 31), (1, 31), (2, 31), (3, 0), (4, 0), (5, 0)]
    else if (src, dst) = (0, 1) then
      [(0, lifeN t), (1, lifeN t), (2, lifeN t), (6, 8), (7, 8), (8, 8), (6, 9), (7, 9), (8, 9), (6, 24), (7, 24), (8, 24),
        (6, 25), (7, 25), (8, 25)]
    else if (src, dst) = (1, 2) then
      [(0, lifeN t), (1, lifeN t), (2, lifeN t), (6, 1), (7, 1), (8, 1), (6, 2), (7, 2), (8, 2), (6, 3), (7, 3), (8, 3)]
    else [(0, lifeN t), (1, lifeN t), (2, lifeN t)] := by
  unfold burnShots
  simp only [Prod.mk.injEq]
  split_ifs <;> rfl

/-- The bit of a copy reads 1 at both margins, and no other word changes. -/
theorem Otp.setCopy_read {t : Otp} (h : t.Sound) (w b a : Nat) : memRead (t.setCopy w b).norm a =
    if a = w then memRead t.norm w ||| BitVec.ofNat 39 (2 ^ b) else memRead t.norm a :=
  (Otp.pulse_read (o := { vfuse := true, unset := 0, weak := 0 }) rfl rfl t w a _ h).1

/-- A fuse bit of the transition is set in one copy, `rest` stay. -/
def State.burnt (s : State) (l : LifeRun) (w b : Nat) (rest : List (Nat × Nat)) : State :=
  s.modHs (fun h => { h with otp := h.otp.setCopy w b, life := some { l with shots := some rest } })

theorem State.mayBurn_of {s : State} {l : LifeRun} (hready : l.ready = true) (hbusy : s.hs.otp.busy = none) (hseal : s.lifeSealed l = true)
    (hwait : s.pw.hostWait = false) (hcores : (l.src, l.dst) = (2, 3) ∨ ∀ c : CoreId, s.mayReset c = true) : s.mayBurn l = true := by
  have hall : (decide ((l.src, l.dst) = (2, 3)) || (List.range 16).all (fun i => s.mayReset (BitVec.ofNat 4 i))) = true := by
    rcases hcores with h | h
    · rw [decide_eq_true h, Bool.true_or]
    · rw [List.all_eq_true.2 (fun i _ => h (BitVec.ofNat 4 i)), Bool.or_true]
  rw [State.mayBurn, hready, hbusy, hseal, hwait, hall] <;> rfl

/-! ## The end of a transition -/

/-- What a transition's end shows of the Hearthstone: the fuses, the transition itself and the debug rights (R408). -/
def Hearth.lifeView (h : Hearth) : Otp × Option LifeRun × Bool := (h.otp, h.life, h.chal.unlocked)

theorem State.lifeView_shell (s : State) : s.shell.hs.lifeView = s.hs.lifeView := rfl

theorem State.lifeView_of_shell {s q : State} (h : s.shell = q.shell) : s.hs.lifeView = q.hs.lifeView := by
  rw [← s.lifeView_shell, h, q.lifeView_shell]

theorem Hearth.wipe_lifeView (h : Hearth) : h.wipe.lifeView = h.lifeView := by
  unfold Hearth.wipe Hearth.openSecrets
  dsimp only
  split
  · split <;> rfl
  · rfl

theorem State.wipeFirebox_lifeView (s : State) : s.wipeFirebox.hs.lifeView = s.hs.lifeView := by
  have h := s.foldl_shell (fun (q : State) i => q.resetCore (BitVec.ofNat 4 i)) (fun q i => q.resetCore_shell _) (List.range 16)
  unfold State.wipeFirebox
  dsimp only
  generalize List.foldl _ s (List.range 16) = q at h ⊢
  exact State.lifeView_of_shell h

/-- The Firebox's memories and the running image. -/
def State.loaded (s : State) : Mem 12 × Mem 24 × Mem 24 × Image := (s.fb.prog, s.fb.shared, s.fb.ember, s.img)

theorem State.finish_loaded (s : State) (t : Nat) (st : Byte) (res : List Byte) : (s.finish t st res).loaded = s.loaded := by
  obtain ⟨f, h⟩ := s.finish_frame t st res
  rw [h] <;> rfl

theorem State.syncDstate_loaded (s : State) : s.syncDstate.loaded = s.loaded := by
  unfold State.syncDstate
  split <;> rfl

theorem State.dropLog_loaded (s : State) (i : Nat) : (s.dropLog i).loaded = s.loaded := by
  unfold State.dropLog State.freeSlot
  dsimp only
  split <;> rfl

theorem State.refuseWaiting_loaded (s : State) : s.refuseWaiting.loaded = s.loaded := by
  unfold State.refuseWaiting
  split
  · rfl
  · refine foldl_rel (fun a b : State => b.loaded = a.loaded) (fun _ => rfl) (fun _ _ _ h k => k.trans h) _ (fun q c => ?_) _ _
    have hdrop : (match c.kind with | .slot i => (q.unwait c).dropLog i | _ => q.unwait c).loaded = q.loaded := by
      split
      · exact State.dropLog_loaded _ _
      · rfl
    dsimp only
    split
    · rw [State.finish_loaded]
      exact hdrop
    · exact hdrop

theorem State.stopRuns_loaded (s : State) : s.stopRuns.loaded = s.loaded := by
  obtain ⟨f, h⟩ := s.stopRuns_frame
  rw [h] <;> rfl

theorem State.endRights_loaded (s : State) : s.endRights.loaded = s.loaded := by
  unfold State.endRights
  rw [State.stopRuns_loaded] <;> rfl

/-- A wipe leaves the Firebox's memories empty and no image running (R365). -/
theorem State.wipeFirebox_loaded (s : State) :
    s.wipeFirebox.loaded = ([], [], [], { instPatch := s.img.instPatch, instOpen := s.img.instOpen }) := rfl

/-- The vault after a transition: BLANK to FACTORY erases it (R366 step 5). -/
def State.lifeErased (s : State) (l : LifeRun) : State := if l.src = 0 ∧ l.dst = 1 then s.modHs Hearth.eraseVault else s

/-- The wipes after a transition (R365, R366 step 5). -/
def State.lifeWiped (s : State) (l : LifeRun) : State :=
  if (l.src, l.dst) ≠ (2, 3) then (s.wipeFirebox.modHs Hearth.wipe).refuseWaiting else s

/-- The transition itself and the rights given over a link end (R408). -/
def State.lifeOver (s : State) : State :=
  (s.modHs (fun h => { h with chal := { h.chal with unlocked := false }, life := none })).laneSync

/-- The transition's rights end with it (R408). -/
def State.lifeRightsEnded (s : State) : State :=
  ({ s with pil := { s.pil with tap := { s.pil.tap with rights := 0 } } } : State).endRights

theorem State.endLife_eq (s : State) (l : LifeRun) : s.endLife l =
    (((((s.lifeOver).lifeErased l).lifeWiped l).lifeRightsEnded).finish l.tag 0 [BitVec.ofNat 8 l.dst]).syncDstate := rfl

theorem State.lifeErased_lifeView (s : State) (l : LifeRun) : (s.lifeErased l).hs.lifeView = s.hs.lifeView := by
  unfold State.lifeErased
  split <;> rfl

theorem State.lifeWiped_lifeView (s : State) (l : LifeRun) : (s.lifeWiped l).hs.lifeView = s.hs.lifeView := by
  have hwipe := s.wipeFirebox_lifeView
  unfold State.lifeWiped
  generalize s.wipeFirebox = q at hwipe ⊢
  split
  · refine (State.lifeView_of_shell (State.refuseWaiting_shell (q.modHs Hearth.wipe))).trans ?_
    exact (Hearth.wipe_lifeView q.hs).trans hwipe
  · rfl

theorem State.lifeRightsEnded_lifeView (s : State) : s.lifeRightsEnded.hs.lifeView = s.hs.lifeView := by
  unfold State.lifeRightsEnded
  rw [State.lifeView_of_shell (State.endRights_shell _)]

theorem State.endLife_lifeView (s : State) (l : LifeRun) : (s.endLife l).hs.lifeView = (s.hs.otp, none, false) := by
  rw [State.endLife_eq, State.lifeView_of_shell (State.syncDstate_shell _), State.lifeView_of_shell (State.finish_shell _ _ _ _),
    State.lifeRightsEnded_lifeView, State.lifeWiped_lifeView, State.lifeErased_lifeView] <;> rfl

theorem State.endLife_rights (s : State) (l : LifeRun) : (s.endLife l).pil.tap.rights = 0 := by
  have h : (s.endLife l).shell.pil.tap.rights = 0 := by
    rw [State.endLife_eq, State.syncDstate_shell, State.finish_shell, State.lifeRightsEnded, State.endRights_shell] <;> rfl
  exact h

theorem State.endLife_tag (s : State) (l : LifeRun) : ∀ r, r ∈ (s.endLife l).fl.runs → r.tag ≠ l.tag := by
  rw [State.endLife_eq, State.syncDstate_runs]
  exact State.finish_tag _ _ _ _

theorem State.lifeWiped_loaded (s : State) (l : LifeRun) (h : (l.src, l.dst) ≠ (2, 3)) :
    (s.lifeWiped l).loaded = ([], [], [], { instPatch := s.img.instPatch, instOpen := s.img.instOpen }) := by
  have hwipe := s.wipeFirebox_loaded
  unfold State.lifeWiped
  generalize s.wipeFirebox = q at hwipe ⊢
  rw [if_pos h, State.refuseWaiting_loaded]
  exact hwipe

theorem State.endLife_loaded (s : State) (l : LifeRun) (h : (l.src, l.dst) ≠ (2, 3)) : ∃ m : Image,
    (s.endLife l).loaded = ([], [], [], m) ∧ m.valid = false := by
  refine ⟨{ instPatch := s.img.instPatch, instOpen := s.img.instOpen }, ?_, rfl⟩
  · rw [State.endLife_eq, State.syncDstate_loaded, State.finish_loaded, State.lifeRightsEnded, State.endRights_loaded]
    refine (State.lifeWiped_loaded (s.lifeOver.lifeErased l) l h).trans ?_
    unfold State.lifeErased
    split <;> rfl

end Sys2Proof.Machine

namespace Sys2Proof

open Machine

/-- Settles O57: a transition changes its record and its run, then one fuse bit at a time; its end keeps the fuses. -/
theorem lifeCycle : Obligations.LifeCycle := by
  unfold Obligations.LifeCycle
  intro s sq d t src dst logged begun
  refine ⟨?starts, ?burns⟩
  case starts =>
    intro hb hdst hexcl hdown htrans hpre hstopped
    have hsrc : s.life = 0 ∨ s.life = 1 ∨ s.life = 2 ∨ s.life = 3 := by
      have hpairs : (s.life, d.p 0) ∈ transitions := htrans
      simp only [transitions, List.mem_cons, Prod.mk.injEq, List.not_mem_nil, or_false] at hpairs
      omega
    have h4 : s.life ≠ 4 := by omega
    have h7 : s.life ≠ 7 := by omega
    have hcontains : transitions.contains (s.life, d.p 0) = true := List.contains_iff_mem.2 htrans
    have hstop : ¬ ((s.life, d.p 0) ≠ (2, 3) ∧ (!s.enabledStopped) = true) := by
      rintro ⟨hne, hrun⟩
      rcases hstopped with h | h
      · exact hne h
      · rw [h] at hrun
        exact Bool.false_ne_true hrun
    have hpast : ¬ (!transitions.contains (s.life, d.p 0) || !s.lifePrereq s.life (d.p 0)) = true := by
      rw [hcontains, show s.lifePrereq s.life (d.p 0) = true from hpre]; decide
    have hexec : ∀ buf : Option (List Byte), d.dlen = 0 ∨ s.fl.canTalk = true →
        (d.dlen = 0 ∨ blockTransitions.contains (s.life, d.p 0) = true) → exec (.lifecycle sq buf) s =
          .next ((s.begin_ sq.toNat d).lifeChecked d t buf) := by
      intro buf hread hsize
      refine congrArg Host.Outcome.next ((command_of_begins_reading _ hb hread (decide_eq_true hdst) ?_).trans ?_)
      · change (decide (d.dlen = 0) || !transitions.contains (s.life, d.p 0) || blockTransitions.contains (s.life, d.p 0)) = true
        rcases hsize with h | h
        · rw [decide_eq_true h]
          rw [Bool.true_or, Bool.true_or]
        · rw [h]
          exact Bool.or_true _
      · refine (if_neg (by rw [State.begin_exclusiveRuns, hexcl]; decide)).trans ((if_neg ?_).trans ((if_neg hpast).trans ?_))
        · rw [show (s.begin_ sq.toNat d).fb.hearth.down = false from hdown]
          decide
        · exact if_neg hstop
    have hbegun : ∀ blk : Option (List Byte), begun ((s.begin_ sq.toNat d).beginLife t s.life (d.p 0) blk) (lifeTodo blk) :=
      fun blk => State.beginLife_begun h4 h7
    refine ⟨fun hno hlen buf => ⟨_, hexec buf (Or.inl hlen) (Or.inl hlen), ?_⟩, fun x hblock hread => ?_⟩
    · have hno : ¬ blockTransitions.contains (s.life, d.p 0) = true := fun h => hno (List.contains_iff_mem.1 h)
      have hnone : (s.begin_ sq.toNat d).lifeChecked d t buf = (s.begin_ sq.toNat d).beginLife t s.life (d.p 0) none :=
        if_pos (by rw [show blockTransitions.contains ((s.begin_ sq.toNat d).life, d.p 0) = false from Bool.eq_false_iff.2 hno]; rfl)
      rw [hnone]
      exact hbegun none
    · have hblock : blockTransitions.contains (s.life, d.p 0) = true := List.contains_iff_mem.2 hblock
      have hrun := hexec (some x) hread (Or.inr hblock)
      have hsome : (s.begin_ sq.toNat d).lifeChecked d t (some x) =
          if s.blockCheck (bytesAt x 0 d.dlen) d.dlen (d.p 0) ≠ 0 then
            (s.begin_ sq.toNat d).finish t (s.blockCheck (bytesAt x 0 d.dlen) d.dlen (d.p 0))
          else (s.begin_ sq.toNat d).beginLife t s.life (d.p 0) (some (bytesAt x 0 d.dlen)) :=
        if_neg (by rw [show blockTransitions.contains ((s.begin_ sq.toNat d).life, d.p 0) = true from hblock]; decide)
      intro b
      rw [hsome] at hrun
      split
      next h =>
        rw [if_neg (not_not.2 h)] at hrun
        exact ⟨_, hrun, hbegun (some b)⟩
      next h =>
        rw [if_pos h] at hrun
        exact hrun
  case burns =>
    intro l hinv hl n all may w b rest hcase
    have hshots : burnShots l.src l.dst s.hs.otp.thermo = all := burnShots_eq l.src l.dst s.hs.otp.thermo
    have hburn : l.shots.getD (burnShots l.src l.dst s.hs.otp.thermo) = (w, b) :: rest ∧ ¬ (l.shots.isNone && !s.mayBurn l) = true := by
      rcases hcase with ⟨hnone, ⟨hready, hbusy, hseal, hwait, hcores⟩, hall⟩ | hsome
      · refine ⟨by rw [hnone, hshots, hall] <;> rfl, ?_⟩
        rw [State.mayBurn_of hready hbusy hseal hwait hcores, Bool.not_true, Bool.and_false]
        decide
      · rw [hsome]
        exact ⟨rfl, Bool.false_ne_true⟩
    obtain ⟨hget, hgo⟩ := hburn
    have hexec : exec .lifecycleFuseBurn s =
        .next (if rest.isEmpty then (s.burnt l w b rest).endLife l else s.burnt l w b rest) := by
      refine congrArg Host.Outcome.next ?_
      change (match s.hs.life with | none => s | some l => _) = _
      rw [hl]
      refine (if_neg hgo).trans ?_
      rw [hget] <;> rfl
    have hread := Otp.setCopy_read hinv.otp_sound w b
    cases hrest : rest with
    | cons x r =>
      rw [hrest] at hexec
      refine ⟨_, hexec, fun a => ?_, fun _ => ⟨rfl, rfl, rfl⟩, fun h => absurd h (List.cons_ne_nil _ _)⟩
      refine (hread a).trans ?_
      split
      next h => rw [h]
      · rfl
    | nil =>
      rw [hrest] at hexec
      obtain ⟨hotp, hlife, hunlocked⟩ : ((s.burnt l w b []).endLife l).hs.otp = s.hs.otp.setCopy w b ∧
          ((s.burnt l w b []).endLife l).hs.life = none ∧ ((s.burnt l w b []).endLife l).hs.chal.unlocked = false := by
        have h := (s.burnt l w b []).endLife_lifeView l
        simp only [Hearth.lifeView, Prod.mk.injEq] at h
        exact h
      refine ⟨_, hexec, fun a => ?_, fun h => absurd rfl h, fun _ => ⟨hlife, hunlocked, State.endLife_rights _ l, State.endLife_tag _ l, fun hne => ?_⟩⟩
      · rw [if_pos List.isEmpty_nil, hotp]
        refine (hread a).trans ?_
        split
        next h => rw [h]
        · rfl
      · obtain ⟨m, hm, hv⟩ := (s.burnt l w b []).endLife_loaded l hne
        simp only [State.loaded, Prod.mk.injEq] at hm
        obtain ⟨h1, h2, h3, h4⟩ := hm
        exact ⟨h1, h2, h3, by rw [if_pos List.isEmpty_nil, h4]; exact hv⟩

end Sys2Proof
end

section
/-! Commands that configure (sections 12.3 and 12.4). -/

namespace Sys2Proof.Machine

/-! ## Configuration cells of a ring (Table 18.12) -/

section Cfg

variable (r : EmRing) (v : Cell) {j : Nat}

theorem EmRing.putCfg_en : (r.putCfg j v).en = r.en := by
  unfold EmRing.putCfg
  split
  case h_8 => split <;> rfl
  all_goals rfl

theorem EmRing.putCfg_base (h : j ≠ 1) : (r.putCfg j v).base = r.base := by
  unfold EmRing.putCfg
  split <;> simp_all only [ne_eq, not_true_eq_false]
  split <;> rfl

theorem EmRing.putCfg_len (h : j ≠ 2) : (r.putCfg j v).len = r.len := by
  unfold EmRing.putCfg
  split <;> simp_all only [ne_eq, not_true_eq_false]
  split <;> rfl

theorem EmRing.putCfg_pre (h : j ≠ 3) : (r.putCfg j v).pre = r.pre := by
  unfold EmRing.putCfg
  split <;> simp_all only [ne_eq, not_true_eq_false]
  split <;> rfl

theorem EmRing.putCfg_post (h : j ≠ 4) : (r.putCfg j v).post = r.post := by
  unfold EmRing.putCfg
  split <;> simp_all only [ne_eq, not_true_eq_false]
  split <;> rfl

theorem EmRing.putCfg_trigsel (h5 : j ≠ 5) (h6 : j ≠ 6) : (r.putCfg j v).trigsel = r.trigsel := by
  unfold EmRing.putCfg
  split <;> simp_all only [ne_eq, not_true_eq_false]
  split <;> rfl

theorem EmRing.putCfg_chmap_ne {k : Nat} (h : j ≠ 8 + k) : (r.putCfg j v).chmap.get k = r.chmap.get k := by
  unfold EmRing.putCfg
  split
  case h_8 =>
    split
    next hj => exact Tab.get_set_ne r.chmap (j - 8) k _ (by omega)
    · rfl
  all_goals rfl

theorem EmRing.cfgCell_chmap {k : Nat} (h : k < 16) : r.cfgCell (8 + k) = r.chmap.get k := by
  interval_cases k <;> rfl

theorem cell_eq_of_bits {x y : Cell} (h : ∀ i, i < 24 → x.getLsbD i = y.getLsbD i) : x = y :=
  BitVec.eq_of_getLsbD_eq h

theorem EmRing.cfgCell_trigsel (i : Nat) (h : i < 24) : (r.cfgCell 5).getLsbD i = r.trigsel.getLsbD i := by
  change (BitVec.ofNat 24 r.trigsel.toNat).getLsbD i = _
  rw [BitVec.getLsbD_ofNat, decide_eq_true h, Bool.true_and] <;> rfl

theorem EmRing.cfgCell_trigtop : r.cfgCell 6 = (r.trigsel.extractLsb' 24 5).setWidth 24 := by
  change BitVec.ofNat 24 (fieldN r.trigsel 24 5) = _
  rw [← extractLsb'_toNat_fieldN, BitVec.ofNat_toNat]

/-- A write of one configuration cell leaves the others. -/
theorem EmRing.putCfg_cfgCell_ne {o : Nat} (hj : j < 24) (ho : o < 24) (hpos : o ≠ 0) (h : j ≠ o) :
    (r.putCfg j v).cfgCell o = r.cfgCell o := by
  by_cases h8 : 8 ≤ o
  · obtain ⟨k, rfl⟩ : ∃ k, o = 8 + k := ⟨o - 8, by omega⟩
    rw [EmRing.cfgCell_chmap _ (by omega), EmRing.cfgCell_chmap _ (by omega), EmRing.putCfg_chmap_ne r v h]
  · have hcases : o = 1 ∨ o = 2 ∨ o = 3 ∨ o = 4 ∨ o = 5 ∨ o = 6 ∨ o = 7 := by omega
    rcases hcases with rfl | rfl | rfl | rfl | rfl | rfl | rfl
    · exact congrArg (fun b : BitVec 22 => b.setWidth 24) (r.putCfg_base v h)
    · exact congrArg (fun b : BitVec 22 => b.setWidth 24) (r.putCfg_len v h)
    · exact congrArg (fun b : BitVec 22 => b.setWidth 24) (r.putCfg_pre v h)
    · exact congrArg (fun b : BitVec 22 => b.setWidth 24) (r.putCfg_post v h)
    · by_cases h6 : j = 6
      · subst h6
        refine cell_eq_of_bits (fun i hi => ?_)
        rw [EmRing.cfgCell_trigsel _ _ hi, EmRing.cfgCell_trigsel _ _ hi]
        change (setField r.trigsel 24 5 v.toNat).getLsbD i = _
        rw [getLsbD_setField _ _ _ _ _ (by omega), if_neg (by omega)]
      · exact congrArg (fun b : BitVec 29 => BitVec.ofNat 24 b.toNat) (r.putCfg_trigsel v h h6)
    · by_cases h5 : j = 5
      · subst h5
        rw [EmRing.cfgCell_trigtop, EmRing.cfgCell_trigtop]
        refine congrArg (BitVec.setWidth 24) (BitVec.eq_of_getLsbD_eq fun i hi => ?_)
        change ((setField r.trigsel 0 24 v.toNat).extractLsb' 24 5).getLsbD i = _
        rw [BitVec.getLsbD_extractLsb', BitVec.getLsbD_extractLsb', getLsbD_setField _ _ _ _ _ (by omega), if_neg (by omega)]
      · exact congrArg (fun b : BitVec 29 => BitVec.ofNat 24 (fieldN b 24 5)) (r.putCfg_trigsel v h5 h)
    · rfl

/-- A cell that has been written shows the bits that it has. -/
theorem EmRing.putCfg_cfgCell {o : Nat} (ho : o < 24) (hpos : o ≠ 0) : ((r.putCfg o v).cfgCell o ^^^ v) &&& ringMask o = 0 := by
  have hsame : ∀ {x : Cell}, (∀ i, i < 24 → (ringMask o).getLsbD i = true → x.getLsbD i = v.getLsbD i) → (x ^^^ v) &&& ringMask o = 0 := by
    intro x hx
    refine cell_eq_of_bits (fun i hi => ?_)
    rw [BitVec.getLsbD_and, BitVec.getLsbD_xor]
    cases hm : (ringMask o).getLsbD i with
    | false => rw [Bool.and_false]; exact (BitVec.getLsbD_zero).symm
    | true => rw [hx i hi hm, Bool.xor_self, Bool.false_and]; exact (BitVec.getLsbD_zero).symm
  have hlow : ∀ {m : Nat} {i : Nat}, i < 24 → (BitVec.ofNat 24 (2 ^ m - 1)).getLsbD i = true → i < m := by
    intro m i hi h
    rw [BitVec.getLsbD_ofNat, Nat.testBit_two_pow_sub_one, decide_eq_true hi, Bool.true_and] at h
    exact of_decide_eq_true h
  refine hsame (fun i hi hm => ?_)
  by_cases h8 : 8 ≤ o
  · obtain ⟨k, rfl⟩ : ∃ k, o = 8 + k := ⟨o - 8, by omega⟩
    have hk : k < 16 := by omega
    have hmask : ringMask (8 + k) = 0x80003F := by
      rw [ringMask, if_neg (by omega), if_neg (by omega), if_neg (by omega), if_neg (by omega), if_pos (by omega)]
    rw [EmRing.cfgCell_chmap _ hk, EmRing.putCfg_chmap _ _ _ hk]
    refine (congrArg (BitVec.getLsbD · i) (Tab.get_set_self r.chmap k _ hk)).trans ?_
    rw [← hmask, BitVec.getLsbD_and, hm, Bool.and_true]
  · have hcases : o = 1 ∨ o = 2 ∨ o = 3 ∨ o = 4 ∨ o = 5 ∨ o = 6 ∨ o = 7 := by omega
    have hset : ∀ h : ringMask o = 0x3FFFFF, ((v.setWidth 22).setWidth 24).getLsbD i = v.getLsbD i := by
      intro h
      have hi22 : i < 22 := hlow (m := 22) hi (by rw [h] at hm; exact hm)
      simp [hi, hi22]
    rcases hcases with rfl | rfl | rfl | rfl | rfl | rfl | rfl
    · exact hset rfl
    · exact hset rfl
    · exact hset rfl
    · exact hset rfl
    · rw [EmRing.cfgCell_trigsel _ _ hi]
      change (setField r.trigsel 0 24 v.toNat).getLsbD i = _
      rw [getLsbD_setField _ _ _ _ _ (by omega), if_pos (by omega)] <;> rfl
    · have hi5 : i < 5 := hlow (m := 5) hi hm
      rw [EmRing.cfgCell_trigtop, BitVec.getLsbD_setWidth, BitVec.getLsbD_extractLsb', decide_eq_true hi, decide_eq_true hi5]
      change (true && (true && (setField r.trigsel 24 5 v.toNat).getLsbD (24 + i))) = _
      rw [getLsbD_setField _ _ _ _ _ (by omega), if_pos (by omega), Nat.add_sub_cancel_left] <;> rfl
    · exact absurd hm (by rw [show ringMask 7 = 0#24 from rfl, BitVec.getLsbD_zero]; decide)

end Cfg

/-- The ring with its configuration cells written (R343). -/
def EmRing.configured (r : EmRing) (x : Nat → Cell) : EmRing := (List.range 24).foldl (fun (q : EmRing) o => q.putCfg o (x o)) r

theorem EmRing.configured_en (r : EmRing) (x : Nat → Cell) : (r.configured x).en = r.en :=
  foldl_own EmRing.en (fun (q : EmRing) o => q.putCfg o (x o)) (List.range 24) (fun q j _ => q.putCfg_en (x j)) r

theorem EmRing.configured_cfgCell (r : EmRing) (x : Nat → Cell) {o : Nat} (ho : o < 24) (hpos : o ≠ 0) :
    ((r.configured x).cfgCell o ^^^ x o) &&& ringMask o = 0 := by
  obtain ⟨q, -, h⟩ := foldl_range_own (fun q : EmRing => q.cfgCell o) (fun (q : EmRing) o => q.putCfg o (x o)) 24 o ho
    (fun q j hj hne => q.putCfg_cfgCell_ne (x j) hj ho hpos hne) r
  rw [EmRing.configured, h]
  exact q.putCfg_cfgCell (x o) ho hpos

/-! ## Commands under way -/

/-- A completion takes the runs of its tag away. -/
theorem State.finish_runs (s : State) (t : Nat) (st : Byte) (res : List Byte) :
    (s.finish t st res).fl.runs = s.fl.runs.filter (fun r => r.tag ≠ t) := by
  cases hrun : s.run? t with
  | none =>
    have hself : s.finish t st res = s := by
      unfold State.finish
      rw [hrun]
    have hall : s.fl.runs.filter (fun r => r.tag ≠ t) = s.fl.runs := List.filter_eq_self.2 (fun r hr => by
      have hne : r.tag ≠ t := fun h => List.find?_eq_none.1 hrun r hr (decide_eq_true h)
      exact decide_eq_true hne)
    rw [hself, hall]
  | some x =>
    rw [State.finish_of_run hrun]
    obtain ⟨c, n, p, out, l1, held, sd, w, h⟩ := s.fl.postCq_frame { x with status := st, result := res } s.fb.mir.tick
    change (s.fl.postCq { x with status := st, result := res } s.fb.mir.tick).runs.filter _ = _
    rw [h]

/-- A completion depends on the Flue and the mirrored TICK alone. -/
theorem State.finish_fl {q s : State} (hfl : q.fl = s.fl) (hmir : q.fb.mir = s.fb.mir) (t : Nat) (st : Byte) (res : List Byte) :
    (q.finish t st res).fl = (s.finish t st res).fl := by
  have hrun : q.run? t = s.run? t := congrArg (fun f : Flue => f.runs.find? (fun r : Run => r.tag = t)) hfl
  unfold State.finish
  rw [hrun]
  split
  · exact hfl
  · dsimp only [State.modFl]
    rw [hfl, hmir]

/-- A command that begins and waits for its requests alone. -/
theorem running_begin (s : State) (sq : BitVec 4) (d : Desc) {s' : State} (hs' : s'.fl = (s.begin_ sq.toNat d).fl) :
    Running s s' sq .plain [] := by
  refine ⟨s.newRun sq.toNat d, ?_, rfl, rfl, rfl, rfl⟩
  rw [hs', State.begin_runs]
  exact List.mem_append_right _ (List.mem_singleton.2 rfl)

theorem running_of_fl {s q q' : State} {sq : BitVec 4} {k : RunKind} {todo : List CKind} (h : Running s q sq k todo)
    (hfl : q'.fl = q.fl) : Running s q' sq k todo := by
  unfold Running at h ⊢
  rwa [hfl]

/-- A command that begins goes on as `f` leaves its run. -/
theorem running_begun (s : State) (sq : BitVec 4) (d : Desc) (f : Run → Run) (hf : ∀ r, (f r).tag = r.tag ∧ (f r).sq = r.sq) :
    Running s ((s.begin_ sq.toNat d).modRun s.fl.nextTag f) sq (f (s.newRun sq.toNat d)).kind (f (s.newRun sq.toNat d)).todo :=
  running_modRun s sq d f _ _ hf rfl rfl rfl

theorem State.modRun_begin_runs (s : State) (sq : Nat) (d : Desc) (f : Run → Run) :
    ((s.begin_ sq d).modRun s.fl.nextTag f).fl.runs = s.fl.runs.map (fun r => if r.tag = s.fl.nextTag then f r else r) ++ [f (s.newRun sq d)] := by
  change (s.fl.runs ++ [s.newRun sq d]).map (fun r => if r.tag = s.fl.nextTag then f r else r) = _
  rw [List.map_append, List.map_singleton, if_pos (show (s.newRun sq d).tag = s.fl.nextTag from rfl)]

theorem State.modRun_modRun (s : State) (t : Nat) (f g : Run → Run) (hf : ∀ r, (f r).tag = r.tag) :
    (s.modRun t f).modRun t g = s.modRun t (fun r => g (f r)) := by
  refine congrArg (fun l => ({ s with fl := { s.fl with runs := l } } : State)) ((List.map_map).trans (List.map_congr_left fun r _ => ?_))
  by_cases h : r.tag = t
  · simp [h, hf]
  · simp [h]

/-- A command under way is found by its tag, as its last change left it. -/
theorem State.run?_begun (s : State) (sq : Nat) (d : Desc) (f : Run → Run) (hf : ∀ r, (f r).tag = r.tag) :
    ∃ r, ((s.begin_ sq d).modRun s.fl.nextTag f).run? s.fl.nextTag = some (f r) := by
  have hsome : (((s.begin_ sq d).modRun s.fl.nextTag f).run? s.fl.nextTag).isSome = true := by
    refine List.find?_isSome.2 ⟨f (s.newRun sq d), ?_, decide_eq_true (hf _)⟩
    refine List.mem_map.2 ⟨s.newRun sq d, ?_, if_pos rfl⟩
    rw [State.begin_runs]
    exact List.mem_append_right _ (List.mem_singleton.2 rfl)
  obtain ⟨x, hx⟩ := Option.isSome_iff_exists.1 hsome
  obtain ⟨r, -, hr⟩ := List.mem_map.1 (List.mem_of_find?_eq_some hx)
  have htag : x.tag = s.fl.nextTag := of_decide_eq_true (List.find?_some (p := fun r : Run => decide (r.tag = s.fl.nextTag)) hx)
  by_cases h : r.tag = s.fl.nextTag
  · rw [if_pos h] at hr
    exact ⟨r, by rw [hx, hr]⟩
  · rw [if_neg h] at hr
    exact absurd (hr ▸ htag) h

/-! ## The clock (R26, R341) -/

/-- A SET_FCLK under way asks for its relock. -/
def State.relockAsk (q : State) (r : Run) : State :=
  match r.kind with
  | .setFclk _ n => q.modFb (fun f => { f with relock := some n })
  | _ => q

theorem State.foldl_relockAsk (l : List Run) (q : State) : ∃ n, l.foldl State.relockAsk q = q.modFb (fun f => { f with relock := n }) := by
  induction l generalizing q with
  | nil => exact ⟨q.fb.relock, rfl⟩
  | cons r l ih =>
    rw [List.foldl_cons, State.relockAsk]
    split
    next m _ =>
      obtain ⟨n, h⟩ := ih (q.modFb (fun f => { f with relock := some m }))
      exact ⟨n, h⟩
    · exact ih q

theorem State.relockRuns_last (s : State) {l : List Run} {r : Run} {p n : Nat} (hruns : s.fl.runs = l ++ [r]) (hk : r.kind = .setFclk p n)
    (hidle : s.fb.relock = none) (hseq : ∀ c : CoreId, (s.core c).seq = none) :
    s.relockRuns = s.modFb (fun f => { f with relock := some n }) := by
  have hno : ¬ (s.fb.relock.isSome || s.cores.toList.any (fun k => k.seq.isSome)) = true := by
    rw [hidle, Option.isSome_none, Bool.false_or, Tab.any_toList_iff]
    rintro ⟨i, hi, h⟩
    have hc := hseq (BitVec.ofNat 4 i)
    rw [State.core, BitVec.toNat_ofNat, Nat.mod_eq_of_lt hi] at hc
    rw [hc] at h
    exact Bool.false_ne_true h
  refine (if_neg hno).trans ?_
  obtain ⟨m, hm⟩ := State.foldl_relockAsk l s
  change s.fl.runs.foldl State.relockAsk s = _
  rw [hruns, List.foldl_append, hm, List.foldl_cons, State.relockAsk, hk] <;> rfl

/-- Once the PLL has locked no SET_FCLK is under way. -/
theorem foldl_relocked : ∀ (l : List Run) (q : State), (∀ r, r ∈ q.fl.runs → ∀ p m, r.kind = .setFclk p m → r ∈ l) →
    let e := l.foldl (fun (q : State) r => match r.kind with | .setFclk p _ => q.finish r.tag 0 [BitVec.ofNat 8 p] | _ => q) q
    (∀ r p m, r ∈ e.fl.runs → r.kind ≠ .setFclk p m) ∧ e.fb = q.fb := by
  intro l
  induction l with
  | nil => exact fun q h => ⟨fun r p m hr hk => absurd (h r hr p m hk) List.not_mem_nil, rfl⟩
  | cons x l ih =>
    intro q h
    dsimp only
    rw [List.foldl_cons]
    split
    next p m hx =>
      obtain ⟨f, hf⟩ := q.finish_frame x.tag 0 [BitVec.ofNat 8 p]
      have hrest := ih (q.finish x.tag 0 [BitVec.ofNat 8 p]) (fun r hr p' m' hk => by
        rw [State.finish_runs] at hr
        obtain ⟨hmem, hne⟩ := List.mem_filter.1 hr
        rcases List.mem_cons.1 (h r hmem p' m' hk) with rfl | hl
        · exact absurd rfl (of_decide_eq_true hne)
        · exact hl)
      exact ⟨hrest.1, hrest.2.trans (by rw [hf] <;> rfl)⟩
    next hx =>
      exact ih q (fun r hr p m hk => by
        rcases List.mem_cons.1 (h r hr p m hk) with rfl | hl
        · exact absurd hk (hx p m)
        · exact hl)

/-! ## Capture objects and rings (R343) -/

/-- An EMBER_CONTROL on its ring. -/
def State.controlRing (r : State) (d : Desc) (t : Nat) : State :=
  let i := d.p 0
  let q := r.fb.rings.get i
  if d.p 1 = 1 then
    if q.en then r.finish t 0 [0]
    else
      let k := r.ringCheck i
      if k = 0 then (r.enableRing i).finish t 0 [0] else (r.enableRing i).finish t 0x0F [BitVec.ofNat 8 k]
  else if d.p 1 = 2 then
    ((if q.en then r.modRing i EmRing.disable else r).modRun t (fun x => { x with kind := .emberOff i })).emberOffRuns
  else if d.p 1 = 3 then
    (if q.oldestFree.isSome then (r.modRing i EmRing.release).finish t 0 [0] else r.finish t 0x0B)
  else r.answer d t q.statusBytes [0]

/-- A command that disables a ring begins: the ring is disabled at once (R222). -/
def State.ringOffBegun (s : State) (sq : Nat) (d : Desc) : State :=
  if ((s.begin_ sq d).fb.rings.get (d.p 0)).en then (s.begin_ sq d).modRing (d.p 0) EmRing.disable else s.begin_ sq d

/-- The record of a token that a service action leaves to do. -/
def serviceTodo : Option Nat → List CKind
  | some k => [.tokenId k]
  | none => []

theorem EmRing.length_statusBytes (r : EmRing) : r.statusBytes.length = 216 := by
  simp [EmRing.statusBytes, packCells, List.length_flatten, Function.comp_def, length_leBytes]

end Sys2Proof.Machine

namespace Sys2Proof

open Machine

/-- Settles O52: a command that configures begins, asks its part of the device, and completes or waits for its log. -/
theorem configurationCommands : Obligations.ConfigurationCommands := by
  unfold Obligations.ConfigurationCommands
  intro s sq d t here
  refine ⟨?setFclk, ?relocked, ?config, ?ember, ?control, ?service⟩
  case setFclk =>
    intro vcore hb hlo hhi hlen hexcl hv hidle hseq
    have hexec : exec (.setFclk sq vcore) s = .next
        (((s.begin_ sq.toNat d).modRun t (fun x => { x with kind := .setFclk s.fb.fclk (d.p 0) })).relockRuns) := by
      refine congrArg Host.Outcome.next ((command_of_begins _ hb rfl (by simp [hlo, hhi]) (decide_eq_true hlen)).trans ?_)
      exact (if_neg (by rw [State.begin_exclusiveRuns, hexcl]; decide)).trans (if_neg (Nat.not_lt.2 hv))
    have hrelock := State.relockRuns_last ((s.begin_ sq.toNat d).modRun t (fun x => { x with kind := .setFclk s.fb.fclk (d.p 0) }))
      (r := { s.newRun sq.toNat d with kind := .setFclk s.fb.fclk (d.p 0) }) (p := s.fb.fclk) (n := d.p 0)
      (l := s.fl.runs.map (fun r => if r.tag = t then { r with kind := .setFclk s.fb.fclk (d.p 0) } else r))
      (State.modRun_begin_runs s sq.toNat d _) rfl hidle hseq
    rw [hrelock] at hexec
    exact ⟨_, hexec, rfl, rfl, running_begun s sq d (fun x => { x with kind := .setFclk s.fb.fclk (d.p 0) }) (fun _ => ⟨rfl, rfl⟩)⟩
  case relocked =>
    intro n hn
    obtain ⟨hruns, hfb⟩ := foldl_relocked s.fl.runs (s.modFb (fun f => { f with relock := none, fclk := n })) (fun r hr _ _ _ => hr)
    refine ⟨_, ?_, congrArg Fire.relock hfb, congrArg Fire.fclk hfb, hruns⟩
    refine congrArg Host.Outcome.next ?_
    rw [hn] <;> rfl
  case config =>
    intro hb ⟨hdown, hfault⟩ h4 h7
    have hgone : ¬ (s.begin_ sq.toNat d).vaultGone = true := by
      rw [show (s.begin_ sq.toNat d).vaultGone = (s.fb.hearth.down || s.hs.vault.fault) from rfl, hdown, hfault]
      decide
    refine ⟨fun buf h2 hlo hhi hlen => ?_, fun b h1 h0 hlen htalk => ?_⟩
    · have hexec : exec (.configWrite sq buf) s = .next ((s.begin_ sq.toNat d).submit (.cordTime (d.pn 4 2)) (some t)) := by
        refine congrArg Host.Outcome.next ((command_of_begins_reading _ hb (Or.inl hlen) (by simp [h2, hlo, hhi]) ?_).trans ?_)
        · change (if d.p 0 = 1 then decide (d.dlen = 48) else decide (d.dlen = 0)) = true
          rw [if_neg (by omega)]
          exact decide_eq_true hlen
        · exact (if_neg hgone).trans (if_pos h2)
      exact ⟨_, hexec, State.submit_queues (s.begin_ sq.toNat d) _ _ h4 h7, running_begin s sq d (State.submit_fl _ _ _)⟩
    · intro cells hok
      have hexec : exec (.configWrite sq (some b)) s = .next ((s.begin_ sq.toNat d).writePhase t cells) := by
        refine congrArg Host.Outcome.next ((command_of_begins_reading _ hb (Or.inr htalk) (by simp [h1, h0]) ?_).trans ?_)
        · change (if d.p 0 = 1 then decide (d.dlen = 48) else decide (d.dlen = 0)) = true
          rw [if_pos h1]
          exact decide_eq_true hlen
        · exact (if_neg hgone).trans (if_neg (by omega))
      have hok : ¬ (!phaseOk cells) = true := by rw [hok]; decide
      refine ⟨fun hsame => ?_, fun hother hlife => ?_⟩
      · have hwrite : (s.begin_ sq.toNat d).writePhase t cells = (s.begin_ sq.toNat d).submit (.phaseCfg cells) (some t) :=
          (if_neg hok).trans (if_pos hsame)
        rw [hwrite] at hexec
        exact ⟨_, hexec, State.submit_queues (s.begin_ sq.toNat d) _ _ h4 h7, running_begin s sq d (State.submit_fl _ _ _)⟩
      · have hwrite : (s.begin_ sq.toNat d).writePhase t cells =
            ((s.begin_ sq.toNat d).modRun t (fun r => { r with todo := [.phaseCfg cells] })).submit
              (s.devLog 0x83 (settingPayload (cells.getD 14 0).toNat (s.settingOld 0x83) 0 0 0)) (some t) :=
          (if_neg hok).trans ((if_neg hother).trans (if_neg (not_not.2 hlife)))
        rw [hwrite] at hexec
        refine ⟨_, s.devHdr 0x83, settingPayload (cells.getD 14 0).toNat (s.settingOld 0x83) 0 0 0, hexec,
          State.submit_queues ((s.begin_ sq.toNat d).modRun t (fun r => { r with todo := [.phaseCfg cells] })) _ _ h4 h7, rfl, rfl, ?_⟩
        exact running_of_fl (running_begun s sq d (fun r => { r with todo := [.phaseCfg cells] }) (fun _ => ⟨rfl, rfl⟩)) (State.submit_fl _ _ _)
  case ember =>
    intro b hb hlen htalk cells
    refine ⟨fun h7 hi hen hmask => ?_, fun o hobj hdown htrained hwf hmask hcheck => ?_⟩
    · have hnone : objOf (d.p 0) (d.p 1) = none := by
        rw [h7, objOf, if_neg (by omega), if_neg (by omega), if_neg (by omega), if_neg (by omega), if_neg (by omega), if_neg (by omega)]
      have hcfg : cfgCells (d.p 0) (d.p 1) = 24 := if_pos ⟨h7, hi⟩
      have hexec : exec (.emberConfig sq (some b)) s = .next ((s.begin_ sq.toNat d).configRing t (d.p 1) cells) := by
        refine congrArg Host.Outcome.next ((command_of_begins_reading _ hb (Or.inr htalk)
          (decide_eq_true (by rw [hcfg]; decide)) (decide_eq_true hlen)).trans ?_)
        change (match objOf (d.p 0) (d.p 1) with | some o => _ | none => _) = _
        rw [hnone]
      have hany : ¬ (List.range 24).any (fun o => decide (cells.getD o 0 &&& ~~~(ringMask o) ≠ 0)) = true := by
        rw [List.any_eq_true]
        rintro ⟨o, ho, hne⟩
        exact of_decide_eq_true hne (hmask o (List.mem_range.1 ho))
      have hring : (s.begin_ sq.toNat d).configRing t (d.p 1) cells =
          ((s.begin_ sq.toNat d).modRing (d.p 1) (fun q => q.configured (fun o => cells.getD o 0))).finish t 0 :=
        (if_neg hany).trans (if_neg (by
          rw [show ((s.begin_ sq.toNat d).fb.rings.get (d.p 1)).en = false from hen]
          decide))
      rw [hring] at hexec
      obtain ⟨f, hf⟩ := State.finish_frame ((s.begin_ sq.toNat d).modRing (d.p 1) (fun q => q.configured (fun o => cells.getD o 0))) t 0 []
      have hget := (congrArg (fun q : State => q.fb.rings.get (d.p 1)) hf).trans (Tab.get_modify_self s.fb.rings (d.p 1) _ hi)
      refine ⟨_, hexec, fun o ho hpos => ?_, ?_,
        State.finish_fl (q := (s.begin_ sq.toNat d).modRing (d.p 1) (fun q => q.configured (fun o => cells.getD o 0)))
          (s := s.begin_ sq.toNat d) rfl rfl _ _ _⟩
      · rw [hget]
        exact EmRing.configured_cfgCell _ _ ho hpos
      · rw [hget, EmRing.configured_en]
        exact hen
    · have hexec : exec (.emberConfig sq (some b)) s = .next ((s.begin_ sq.toNat d).configObj t o cells) := by
        have hcfg : cfgCells (d.p 0) (d.p 1) = o.size := by
          rw [cfgCells, hobj, if_neg]
          rintro ⟨h7, -⟩
          rw [h7, objOf, if_neg (by omega), if_neg (by omega), if_neg (by omega), if_neg (by omega), if_neg (by omega), if_neg (by omega)] at hobj
          exact Option.some_ne_none _ hobj.symm
        refine congrArg Host.Outcome.next ((command_of_begins_reading _ hb (Or.inr htalk)
          (decide_eq_true (by rw [hcfg]; cases o <;> exact Nat.succ_pos _)) (decide_eq_true hlen)).trans ?_)
        change (match objOf (d.p 0) (d.p 1) with | some o => _ | none => _) = _
        rw [hobj]
        exact if_neg (show ¬ s.fb.plink.training = true from fun h => Bool.false_ne_true (htrained.symm.trans h))
      have hany : ¬ (List.range o.size).any (fun k => decide (cells.getD k 0 &&& ~~~(o.mask k) ≠ 0)) = true := by
        rw [List.any_eq_true]
        rintro ⟨k, hk, hne⟩
        exact of_decide_eq_true hne (hmask k (List.mem_range.1 hk))
      have hput : (s.begin_ sq.toNat d).configObj t o cells =
          (((s.begin_ sq.toNat d).modCap (fun q => q.unstage o)).applyObj o (fun k => cells.getD k 0)).finish t 0 :=
        (if_neg hany).trans ((if_neg (by rw [show (s.begin_ sq.toNat d).fb.plink.down = false from hdown]; decide)).trans
          (if_neg (not_not.2 hcheck)))
      rw [hput] at hexec
      obtain ⟨f, hf⟩ := State.finish_frame (((s.begin_ sq.toNat d).modCap (fun q => q.unstage o)).applyObj o (fun k => cells.getD k 0)) t 0 []
      refine ⟨_, hexec, fun k hk => (congrArg (fun q : State => q.pil.cap.objCell o k) hf).trans ?_⟩
      refine (State.applyObj_objCell ((s.begin_ sq.toNat d).modCap (fun q => q.unstage o)) o _ k hk hwf).trans ?_
      refine cell_eq_of_bits (fun i hi => ?_)
      have hbit := congrArg (BitVec.getLsbD · i) (hmask k hk)
      rw [BitVec.getLsbD_and]
      simp only [BitVec.getLsbD_and, BitVec.getLsbD_not, hi, decide_true, Bool.true_and] at hbit
      cases hm : (o.mask k).getLsbD i with
      | true => exact Bool.and_true _
      | false =>
        rw [hm, Bool.not_false, Bool.and_true] at hbit
        rw [Bool.and_false, hbit]
        exact BitVec.getLsbD_zero.symm
  case control =>
    intro hb hi r
    have hring : ∀ f : EmRing → EmRing, ((s.begin_ sq.toNat d).modRing (d.p 0) f).fb.rings.get (d.p 0) = f r := fun f =>
      Tab.get_modify_self s.fb.rings (d.p 0) f hi
    have hact : ∀ k, d.p 1 = k → 1 ≤ k → k ≤ 4 → (k = 4 ∨ d.dlen = 0) →
        exec (.emberControl sq) s = .next ((s.begin_ sq.toNat d).controlRing d t) := by
      intro k hk h1 h4 hlen
      refine congrArg Host.Outcome.next ((command_of_begins _ hb rfl (by simp [hi, hk, h1, h4]) (by simp [hk, hlen])).trans ?_)
      rfl
    refine ⟨fun h1 hlen hon => ?_, fun h2 hlen hcopies hruns => ?_, fun h3 hlen hold => ?_, fun h4 hlen => ?_⟩
    · have hexec := hact 1 h1 (by decide) (by decide) (Or.inr hlen)
      cases hen : r.en with
      | true =>
        have hdone : (s.begin_ sq.toNat d).controlRing d t = (s.begin_ sq.toNat d).finish t 0 [0] :=
          (if_pos h1).trans (if_pos hen)
        rw [hdone] at hexec
        obtain ⟨f, hf⟩ := (s.begin_ sq.toNat d).finish_frame t 0 [0]
        exact ⟨_, hexec, (congrArg (fun q : State => (q.fb.rings.get (d.p 0)).en) hf).trans hen, rfl⟩
      | false =>
        have hcheck : s.ringCheck (d.p 0) = 0 := hon.resolve_left (by rw [hen]; decide)
        have hdone : (s.begin_ sq.toNat d).controlRing d t = ((s.begin_ sq.toNat d).enableRing (d.p 0)).finish t 0 [0] :=
          (if_pos h1).trans ((if_neg (by rw [show ((s.begin_ sq.toNat d).fb.rings.get (d.p 0)).en = false from hen]; decide)).trans (if_pos hcheck))
        rw [hdone] at hexec
        obtain ⟨f, hf⟩ := ((s.begin_ sq.toNat d).enableRing (d.p 0)).finish_frame t 0 [0]
        have hset := (((s.begin_ sq.toNat d).enableRing_ring (d.p 0) hi).1 hcheck).1
        exact ⟨_, hexec, (congrArg (fun q : State => (q.fb.rings.get (d.p 0)).en) hf).trans hset,
          State.finish_fl (q := (s.begin_ sq.toNat d).enableRing (d.p 0)) (s := s.begin_ sq.toNat d) rfl rfl _ _ _⟩
    · have hexec := hact 2 h2 (by decide) (by decide) (Or.inr hlen)
      have hdone : (s.begin_ sq.toNat d).controlRing d t =
          ((s.ringOffBegun sq.toNat d).modRun t (fun x => { x with kind := .emberOff (d.p 0) })).emberOffRuns :=
        (if_neg (by omega)).trans (if_pos h2)
      have hoff : ((s.ringOffBegun sq.toNat d).fb.rings.get (d.p 0)).en = false := by
        unfold State.ringOffBegun
        cases hen : r.en with
        | true =>
          rw [if_pos (show ((s.begin_ sq.toNat d).fb.rings.get (d.p 0)).en = true from hen), hring]
          exact r.disable_off.1
        | false =>
          rw [if_neg (by rw [show ((s.begin_ sq.toNat d).fb.rings.get (d.p 0)).en = false from hen]; decide)]
          exact hen
      obtain ⟨hcop, hrun⟩ : (s.ringOffBegun sq.toNat d).fb.copies = [] ∧ (s.ringOffBegun sq.toNat d).fl.runs = [s.newRun sq.toNat d] := by
        unfold State.ringOffBegun
        split <;> exact ⟨hcopies, congrArg (· ++ [s.newRun sq.toNat d]) hruns⟩
      have hlast : ((s.ringOffBegun sq.toNat d).modRun t (fun x => { x with kind := .emberOff (d.p 0) })).emberOffRuns =
          ((s.ringOffBegun sq.toNat d).modRun t (fun x => { x with kind := .emberOff (d.p 0) })).finish t 0 [0] := by
        have hone : ((s.ringOffBegun sq.toNat d).modRun t (fun x => { x with kind := .emberOff (d.p 0) })).fl.runs =
            [{ s.newRun sq.toNat d with kind := .emberOff (d.p 0) }] := by
          change (s.ringOffBegun sq.toNat d).fl.runs.map _ = _
          rw [hrun, List.map_singleton, if_pos (show (s.newRun sq.toNat d).tag = t from rfl)]
        unfold State.emberOffRuns
        rw [hone, List.foldl_cons, List.foldl_nil]
        refine if_neg ?_
        rw [show ((s.ringOffBegun sq.toNat d).modRun t (fun x => { x with kind := .emberOff (d.p 0) })).fb.copies = [] from hcop]
        exact Bool.false_ne_true
      rw [hdone, hlast] at hexec
      obtain ⟨f, hf⟩ := ((s.ringOffBegun sq.toNat d).modRun t (fun x => { x with kind := .emberOff (d.p 0) })).finish_frame t 0 [0]
      refine ⟨_, hexec, (congrArg (fun q : State => (q.fb.rings.get (d.p 0)).en) hf).trans hoff, ?_⟩
      rw [State.finish_runs]
      change (((s.ringOffBegun sq.toNat d).fl.runs).map _).filter _ = []
      rw [hrun, List.map_singleton, if_pos (show (s.newRun sq.toNat d).tag = t from rfl)]
      exact List.filter_eq_nil_iff.2 (fun x hx => by
        rw [List.mem_singleton.1 hx]
        simp [State.newRun, t])
    · have hexec := hact 3 h3 (by decide) (by decide) (Or.inr hlen)
      have hsome : ((s.begin_ sq.toNat d).fb.rings.get (d.p 0)).oldestFree.isSome = true := Option.isSome_iff_ne_none.2 hold
      have hdone : (s.begin_ sq.toNat d).controlRing d t = ((s.begin_ sq.toNat d).modRing (d.p 0) EmRing.release).finish t 0 [0] :=
        (if_neg (by omega)).trans ((if_neg (by omega)).trans ((if_pos h3).trans (if_pos hsome)))
      rw [hdone] at hexec
      exact hexec
    · have hexec := hact 4 h4 (by decide) (by decide) (Or.inl rfl)
      have hdone : (s.begin_ sq.toNat d).controlRing d t = (s.begin_ sq.toNat d).answer d t r.statusBytes [0] :=
        (if_neg (by omega)).trans ((if_neg (by omega)).trans (if_neg (by omega)))
      rw [hdone, State.answer_of_fits _ _ _ (by rw [EmRing.length_statusBytes]; exact hlen)] at hexec
      exact hexec
  case service =>
    intro hb ⟨hdown, hfault⟩ h4 h7 logs
    have hgone : ¬ (s.begin_ sq.toNat d).vaultGone = true := by
      rw [show (s.begin_ sq.toNat d).vaultGone = (s.fb.hearth.down || s.hs.vault.fault) from rfl, hdown, hfault]
      decide
    have hserve : ∀ (action param reason : Nat) (token : Option Nat), action = 1 ∨ (action = 2 ∧ param ≤ 16777215) →
        logs ((s.begin_ sq.toNat d).serve t action param reason token) action param token := by
      intro action param reason token haction
      have hdone : (s.begin_ sq.toNat d).serve t action param reason token =
          ((s.begin_ sq.toNat d).modRun t (fun r => { r with kind := .service action, todo := serviceTodo token })).submit
            (s.devLog (if action = 1 then 0x82 else 0x83) (settingPayload param (s.settingOld (if action = 1 then 0x82 else 0x83)) reason
              (if token.isSome then 1 else 0) (token.getD 0))) (some t) := by
        unfold State.serve
        rw [if_neg (by omega), if_neg (by omega)]
        cases token <;> rfl
      rw [hdone]
      refine ⟨s.devHdr (if action = 1 then 0x82 else 0x83), _, State.submit_queues
        ((s.begin_ sq.toNat d).modRun t (fun r => { r with kind := .service action, todo := serviceTodo token })) _ _ h4 h7, ?_, rfl, ?_⟩
      · rcases haction with rfl | ⟨rfl, -⟩ <;> rfl
      · exact running_of_fl (running_begun s sq d (fun r => { r with kind := .service action, todo := serviceTodo token }) (fun _ => ⟨rfl, rfl⟩))
          (State.submit_fl _ _ _)
    refine ⟨fun buf h0 h1 hlife hlen => ?_, fun x h0 hread => ?_⟩
    · have hexec : exec (.service sq buf) s = .next ((s.begin_ sq.toNat d).serve t (d.p 1) (d.pn 2 6) 0 none) := by
        refine congrArg Host.Outcome.next ((command_of_begins_reading _ hb (Or.inl hlen) ?_ (by simp [hlen])).trans ?_)
        · rcases h1 with h | ⟨h, hle⟩
          · simp [h0, h]
          · simp [h0, h, hle]
        · exact (if_neg (fun h => h.2 hlife)).trans ((if_neg hgone).trans (if_pos h0))
      exact ⟨_, hexec, hserve _ _ _ _ h1⟩
    · intro b
      have hexec : exec (.service sq (some x)) s = .next (if s.tokenCheck b d.dlen ≠ 0 then
            (s.begin_ sq.toNat d).finish t (s.tokenCheck b d.dlen)
          else (s.begin_ sq.toNat d).serve t (fld b 5 1) (fld b 40 6) (fld b 8 2) (some (fld b 16 8))) := by
        refine congrArg Host.Outcome.next ((command_of_begins_reading _ hb hread (by simp [h0]) (by simp [h0])).trans ?_)
        exact (if_neg (fun h => absurd h.1 (by omega))).trans ((if_neg hgone).trans (if_neg (by omega)))
      split
      next hok =>
        rw [if_neg (not_not.2 hok)] at hexec
        refine ⟨fun haction => ⟨_, hexec, hserve _ _ _ _ haction⟩, fun h3 hmarks => ?_⟩
        intro freed
        have hstage : (s.begin_ sq.toNat d).serve t (fld b 5 1) (fld b 40 6) (fld b 8 2) (some (fld b 16 8)) =
            ((s.begin_ sq.toNat d).modRun t (fun r => { r with
              kind := .relStage (fld b 8 2) (fld b 16 8) (fld b 40 6), todo := [] })).releaseStage t (fld b 8 2) (fld b 16 8) (fld b 40 6) := by
          obtain ⟨r, hr⟩ := s.run?_begun sq.toNat d (fun r => { r with kind := .relStage (fld b 8 2) (fld b 16 8) (fld b 40 6), todo := [] })
            (fun _ => rfl)
          unfold State.serve
          rw [if_pos h3, show (s.begin_ sq.toNat d).marksToWrite = [] from hmarks]
          unfold State.runStep
          rw [show ((s.begin_ sq.toNat d).modRun t (fun r => { r with
            kind := .relStage (fld b 8 2) ((some (fld b 16 8)).getD 0) (fld b 40 6), todo := [] })).run? t = some _ from hr] <;> rfl
        rw [hstage] at hexec
        refine ⟨_, s.devHdr 0x86, _, hexec, State.submit_queues (((s.begin_ sq.toNat d).modRun t (fun r => { r with
            kind := .relStage (fld b 8 2) (fld b 16 8) (fld b 40 6), todo := [] })).modRun t (fun r => { r with
            kind := .service 3, todo := [.release freed (fld b 16 8)] })) _ _ h4 h7, rfl, ?_⟩
        refine running_of_fl (running_modRun s sq d (fun r => { r with kind := .service 3, todo := [.release freed (fld b 16 8)] }) _ _
          (fun _ => ⟨rfl, rfl⟩) rfl rfl ?_) (State.submit_fl _ _ _)
        exact congrArg (fun q : State => q.fl.runs) (State.modRun_modRun (s.begin_ sq.toNat d) t _ _ (fun _ => rfl))
      next hbad =>
        rw [if_pos hbad] at hexec
        exact hexec

end Sys2Proof
end

section
/-! Commands of threads and cores (section 12.5). -/

namespace Sys2Proof.Machine

/-! ## The commands that began before -/

/-- The commands under way before a command that begins are those before it. -/
theorem State.begun_any_below (s : State) (sq : Nat) (d : Desc) (f : Run → Run) (hf : ∀ r, (f r).tag = r.tag) (p : Run → Bool) :
    ((s.begin_ sq d).modRun s.fl.nextTag f).fl.runs.any (fun r => decide (r.tag < s.fl.nextTag) && p r) =
      s.fl.runs.any (fun r => decide (r.tag < s.fl.nextTag) && p r) := by
  have hsame : ∀ r : Run, (decide ((if r.tag = s.fl.nextTag then f r else r).tag < s.fl.nextTag) &&
      p (if r.tag = s.fl.nextTag then f r else r)) = (decide (r.tag < s.fl.nextTag) && p r) := by
    intro r
    by_cases h : r.tag = s.fl.nextTag
    · rw [if_pos h, hf, h, decide_eq_false (Nat.lt_irrefl _), Bool.false_and, Bool.false_and]
    · rw [if_neg h]
  have hself : (decide ((f (s.newRun sq d)).tag < s.fl.nextTag) && p (f (s.newRun sq d))) = false := by
    rw [hf]
    exact congrArg (· && _) (decide_eq_false (Nat.lt_irrefl _))
  rw [State.modRun_begin_runs, List.any_append, List.any_map, List.any_cons, List.any_nil, hself]
  simp only [Function.comp_def, hsame, Bool.or_false]

theorem State.begun_coreBusy (s : State) (sq : Nat) (d : Desc) (f : Run → Run) (hf : ∀ r, (f r).tag = r.tag) (c : CoreId) :
    ((s.begin_ sq d).modRun s.fl.nextTag f).coreBusy s.fl.nextTag c = s.coreBusy s.fl.nextTag c :=
  congrArg ((s.core c).reinst || ·) (s.begun_any_below sq d f hf _)

/-- A completion of a command under way is that of the command as it began, whatever its kind is. -/
theorem State.begun_finish_fl (s : State) (sq : Nat) (d : Desc) (k : RunKind) {q : State}
    (hfl : q.fl = ((s.begin_ sq d).modRun s.fl.nextTag (fun y => { y with kind := k })).fl) (hmir : q.fb.mir = s.fb.mir) (st : Byte)
    (res : List Byte) : (q.finish s.fl.nextTag st res).fl = ((s.begin_ sq d).finish s.fl.nextTag st res).fl := by
  rw [State.finish_fl (s := (s.begin_ sq d).modRun s.fl.nextTag (fun y => { y with kind := k })) hfl hmir,
    State.finish_modRun_kind]

theorem State.fetchLine_fl (s : State) (c : CoreId) (t : ThId) : (s.fetchLine c t).fl = s.fl ∧ (s.fetchLine c t).fb = s.fb := by
  obtain ⟨f, h, -⟩ := s.fetchLine_frame c t
  rw [h]
  exact ⟨rfl, rfl⟩

theorem State.finish_th (s : State) (t : Nat) (st : Byte) (res : List Byte) (c : CoreId) (v : ThId) :
    (s.finish t st res).th c v = s.th c v := by
  obtain ⟨f, h⟩ := s.finish_frame t st res
  rw [h] <;> rfl

/-! ## THREAD_START (R339) -/

section Start

variable {q : State} {tag : Nat} {c : CoreId} {t : ThId}

/-- A thread can be started now: its turn on the core has come, and the core may run the image (R189, R339). -/
structure State.MayStart (q : State) (tag : Nat) (c : CoreId) (t : ThId) : Prop where
  turn : q.coreTurn tag c.toNat = true
  idle : q.coreBusy tag c = false
  free : q.bistHolds c = false
  live : (q.core c).lockup = none
  loaded : q.img.runLoad = false
  sound : q.coreFailed c = false
  image : q.img.valid = true
  stopped : (q.th c t).st = .stopped

/-- A stopped thread goes on where it stands. -/
def State.goneOn (q : State) (c : CoreId) (t : ThId) : State :=
  (q.modTh c t (fun v => { v with st := if v.want.isNone then .ready else .blocked })).fetchLine c t

/-- It keeps its place, its window and its status. -/
theorem State.goneOn_th : ((q.goneOn c t).th c t).pc = (q.th c t).pc ∧ ((q.goneOn c t).th c t).w = (q.th c t).w ∧
    ((q.goneOn c t).th c t).status = (q.th c t).status ∧ (((q.goneOn c t).th c t).st = .ready ∨ ((q.goneOn c t).th c t).st = .blocked) := by
  obtain ⟨b, w, st, hself, -⟩ := State.fetchLine_th_self (q.modTh c t (fun v => { v with st := if v.want.isNone then .ready else .blocked })) c t
  have hruns := State.fetchLine_runs (q.modTh c t (fun v => { v with st := if v.want.isNone then .ready else .blocked })) c t (by
    rw [State.th_modTh_self]
    dsimp only
    split
    · exact Or.inl rfl
    · exact Or.inr rfl)
  rw [State.th_modTh_self] at hself
  refine ⟨?_, ?_, ?_, hruns⟩
  all_goals
    unfold State.goneOn
    rw [hself]

theorem State.goneOn_fl : (q.goneOn c t).fl = q.fl ∧ (q.goneOn c t).fb = q.fb := State.fetchLine_fl _ c t

/-- A thread started afresh is as its entry says, but for its fetch. -/
theorem State.startThread_th (pc : Nat) (e : Option (List Byte)) : ∃ b w st, (q.startThread c t pc e).th c t =
    { (q.th c t).startAt pc e with buf := b, want := w, st := st } ∧ (st = .ready ∨ st = .blocked) := by
  obtain ⟨b, w, st, hself, hst⟩ := State.fetchLine_th_self (q.modTh c t (fun u => u.startAt pc e)) c t
  rw [State.th_modTh_self] at hself hst
  refine ⟨b, w, st, hself, ?_⟩
  rcases hst with h | ⟨-, h⟩
  · exact Or.inl h
  · exact Or.inr h

theorem State.startThread_fl (pc : Nat) (e : Option (List Byte)) :
    (q.startThread c t pc e).fl = q.fl ∧ (q.startThread c t pc e).fb = q.fb := State.fetchLine_fl _ c t

theorem State.tryStart_of_may (h : q.MayStart tag c t) (mode pc : Nat) : q.tryStart tag c t mode pc =
    if mode = 0 then if (q.th c t).fresh then q.finish tag 0x0B else (q.goneOn c t).finish tag 0
    else if mode = 1 ∧ (q.img.entry c t).isNone then q.finish tag 0x0B
    else if !(q.core c).idleThread t then q
    else (q.startThread c t (if mode = 1 then fld ((q.img.entry c t).getD []) 2 3 else pc) (q.img.entry c t)).finish tag 0 := by
  obtain ⟨h1, h2, h3, h4, h5, h6, h7, h8⟩ := h
  refine (if_neg (by rw [h1, h2, h3]; decide)).trans ((if_neg (by rw [h4]; decide)).trans ((if_neg (by rw [h5]; decide)).trans
    ((if_neg (by rw [h6, h7]; decide)).trans ((if_neg (not_not.2 h8)).trans ?_))))
  rfl

end Start

theorem Thread.startAt_status (u : Thread) (pc : Nat) (e : Option (List Byte)) : (u.startAt pc e).status &&& 0xFC0 = 0x840 := by
  have hbits : ∀ a b : Nat, a < 2 → b < 2 → BitVec.ofNat 24 (0x840 + 0x1000 * a + 0x2000 * b) &&& 0xFC0 = 0x840 := by
    intro a b ha hb
    interval_cases a <;> interval_cases b <;> decide
  exact hbits _ _ (Nat.mod_lt _ (by decide)) (Nat.mod_lt _ (by decide))

theorem Thread.startAt_arms (u : Thread) (pc : Nat) (e : Option (List Byte)) (i : Nat) (hi : i < 8) :
    ((u.startAt pc e).arms.get i).en = false := by
  have h : ((u.startAt pc e).arms.get i) = { u.arms.get i with en := false } :=
    Tab.get_map u.arms (fun a : Arm => ({ a with en := false } : Arm)) i hi
  rw [h]

/-! ## THREAD_STOP (R339) -/

/-- The threads of a mask are asked to stop. -/
def State.stopAsked (s : State) (c mask : Nat) : State :=
  (List.range 8).foldl (fun (q : State) i =>
    if mask.testBit i then q.modTh (BitVec.ofNat 4 c) (BitVec.ofNat 3 i) Thread.askStop else q) s

theorem Thread.askStop_st (u : Thread) : u.askStop.st = u.st := by
  unfold Thread.askStop
  split <;> rfl

/-- Each thread of the mask takes its own request. -/
theorem State.stopAsked_th (s : State) (c mask : Nat) (v : ThId) :
    (s.stopAsked c mask).th (BitVec.ofNat 4 c) v =
      if mask.testBit v.toNat then (s.th (BitVec.ofNat 4 c) v).askStop else s.th (BitVec.ofNat 4 c) v := by
  have hne : ∀ j, j < 8 → j ≠ v.toNat → (BitVec.ofNat 3 j : ThId) ≠ v := by
    rintro j hj h rfl
    exact h (by rw [BitVec.toNat_ofNat, Nat.mod_eq_of_lt hj])
  have hv : (BitVec.ofNat 3 v.toNat : ThId) = v := BitVec.eq_of_toNat_eq (by simp)
  obtain ⟨q, hq, hlast⟩ := foldl_range_own (fun q : State => q.th (BitVec.ofNat 4 c) v)
    (fun (q : State) i => if mask.testBit i then q.modTh (BitVec.ofNat 4 c) (BitVec.ofNat 3 i) Thread.askStop else q) 8 v.toNat v.isLt
    (fun q j hj h => by
      split
      · exact State.th_modTh_ne _ _ _ _ _ (hne j hj h)
      · rfl) s
  refine hlast.trans ?_
  rw [hv]
  split
  · rw [State.th_modTh_self, hq]
  · exact hq

theorem State.stopAsked_frame (s : State) (c mask : Nat) : (s.stopAsked c mask).fl = s.fl ∧ (s.stopAsked c mask).fb = s.fb := by
  refine List.foldlRecOn (motive := fun q : State => q.fl = s.fl ∧ q.fb = s.fb) (List.range 8) _ ⟨rfl, rfl⟩ ?_
  intro q hq i _
  split
  · exact hq
  · exact hq

theorem Core.stopsDone_congr {k k' : Core} (h : ∀ i, i < 8 → (k'.th.get i).st = (k.th.get i).st) (mask : Nat) :
    k'.stopsDone mask = k.stopsDone mask ∧ k'.stoppedMask = k.stoppedMask := by
  constructor
  · unfold Core.stopsDone
    refine Bool.eq_iff_iff.2 ?_
    simp only [List.all_eq_true, List.mem_range]
    exact ⟨fun hk i hi => by rw [← h i hi]; exact hk i hi, fun hk i hi => by rw [h i hi]; exact hk i hi⟩
  · refine congrArg BitVec.ofFnLE (funext fun i => ?_)
    rw [h i.val i.isLt]

/-- A THREAD_STOP that has asked its threads (R339). -/
def State.stopBegun (s : State) (sq : Nat) (d : Desc) : State :=
  (((s.begin_ sq d).modRun s.fl.nextTag (fun x => { x with kind := .threadStop (d.p 0) (d.p 1) false })).stopAsked (d.p 0) (d.p 1)).modRun
    s.fl.nextTag (fun x => { x with kind := .threadStop (d.p 0) (d.p 1) true })

theorem State.stopBegun_fl (s : State) (sq : Nat) (d : Desc) :
    (s.stopBegun sq d).fl = ((s.begin_ sq d).modRun s.fl.nextTag (fun x => { x with kind := .threadStop (d.p 0) (d.p 1) true })).fl ∧
      (s.fl.runs = [] → (s.stopBegun sq d).fl.runs = [{ s.newRun sq d with kind := .threadStop (d.p 0) (d.p 1) true }]) := by
  have hfl : (s.stopBegun sq d).fl = ((s.begin_ sq d).modRun s.fl.nextTag (fun x => { x with kind := .threadStop (d.p 0) (d.p 1) true })).fl :=
    (congrArg (fun f : Flue => ({ f with runs := f.runs.map (fun r : Run => if r.tag = s.fl.nextTag then
        ({ r with kind := RunKind.threadStop (d.p 0) (d.p 1) true } : Run) else r) } : Flue)) (State.stopAsked_frame _ _ _).1).trans
      (congrArg State.fl (State.modRun_kind_twice (s.begin_ sq d) s.fl.nextTag _ _))
  refine ⟨hfl, fun h => ?_⟩
  rw [hfl, State.modRun_begin_runs, h] <;> rfl

/-! ## CORE_RESET (R340) -/

section Reset

variable (s : State) (c : CoreId)

theorem State.core_standing {s q : State} (h : q.outer = s.outer) (c : CoreId) : (q.core c).standing = (s.core c).standing := by
  have hget : ∀ r : State, (r.core c).standing = Tab.get (r.cores.map Core.standing) c.toNat := fun r =>
    (Tab.get_map r.cores Core.standing c.toNat c.isLt).symm
  rw [hget, hget, show q.cores.map Core.standing = s.cores.map Core.standing from congrArg State.cores h]

theorem State.endLock_modFl (t : ThId) (g : Flue → Flue) : (s.modFl g).endLock c t = (s.endLock c t).modFl g := by
  by_cases h : (s.th c t).lockN.isNone = true
  · have hl : (s.modFl g).endLock c t = s.modFl g := if_pos h
    have hr : s.endLock c t = s := if_pos h
    rw [hl, hr]
  · have hr : s.endLock c t = _ := if_neg h
    have hl : (s.modFl g).endLock c t = _ := if_neg h
    rw [hl, hr] <;> rfl

/-- The Flue has no part in halting a core. -/
theorem State.haltCore_modFl (g : Flue → Flue) : (s.modFl g).haltCore c = (s.haltCore c).modFl g := by
  have hlocks : ∀ (l : List Nat) (q : State), l.foldl (fun (r : State) i => r.endLock c (BitVec.ofNat 3 i)) (q.modFl g) =
      (l.foldl (fun (r : State) i => r.endLock c (BitVec.ofNat 3 i)) q).modFl g := by
    intro l
    induction l with
    | nil => exact fun _ => rfl
    | cons i l ih =>
      intro q
      rw [List.foldl_cons, List.foldl_cons, State.endLock_modFl, ih]
  by_cases h : (s.core c).lockup.isSome = true
  · have hl : (s.modFl g).haltCore c = s.modFl g := if_pos h
    have hr : s.haltCore c = s := if_pos h
    rw [hl, hr]
  · have hr : s.haltCore c = _ := if_neg h
    have hl : (s.modFl g).haltCore c = _ := if_neg h
    rw [hl, hr, hlocks] <;> rfl

/-- A core with its threads stopped, no thread waiting for a memory slot and no routine. -/
def Core.halted (k : Core) : Core :=
  { (((List.range 8).foldl (fun (q : Core) i => q.unask (.thread (BitVec.ofNat 3 i))) k).mapTh (fun u =>
      { u with st := .stopped, stopReq := false, haltReq := false, step := none })) with seq := none }

theorem Core.halted_frame (k : Core) : ∃ sq, k.halted = { k with slotq := sq, seq := none, th := k.th.map (fun u =>
    { u with st := .stopped, stopReq := false, haltReq := false, step := none }) } := by
  have h : ∀ l : List Nat, ∃ sq, l.foldl (fun (q : Core) i => q.unask (.thread (BitVec.ofNat 3 i))) k = { k with slotq := sq } := by
    intro l
    refine List.foldlRecOn (motive := fun q : Core => ∃ sq, q = { k with slotq := sq }) l _ ⟨_, rfl⟩ ?_
    rintro q ⟨sq, rfl⟩ i _
    exact ⟨_, rfl⟩
  obtain ⟨sq, hsq⟩ := h (List.range 8)
  exact ⟨sq, by rw [Core.halted, hsq] <;> rfl⟩

/-- The locked sequences of a core end before its threads stop. -/
def State.locksEnded : State := (List.range 8).foldl (fun (r : State) i => r.endLock c (BitVec.ofNat 3 i)) s

theorem State.locksEnded_outer : (s.locksEnded c).outer = s.outer := State.foldl_outer s _ (fun q i => q.endLock_outer c _) _

theorem State.haltCore_of_live (h : (s.core c).lockup = none) : s.haltCore c = (s.locksEnded c).modCore c Core.halted :=
  if_neg (by rw [h]; decide)

theorem State.haltCore_of_locked (h : (s.core c).lockup.isSome = true) : s.haltCore c = s := if_pos h

/-- What halting a core leaves of it and of the other dies. -/
theorem State.haltCore_frame : ((s.haltCore c).core c).attached = (s.core c).attached ∧ ((s.haltCore c).core c).lockup = (s.core c).lockup ∧
    (s.haltCore c).fLife = s.fLife ∧ (s.haltCore c).fl = s.fl ∧ (s.haltCore c).fb.plink = s.fb.plink ∧ (s.haltCore c).fb.mir = s.fb.mir := by
  cases h : (s.core c).lockup with
  | some l =>
    have hself := s.haltCore_of_locked c (by rw [h]; rfl)
    rw [hself]
    exact ⟨rfl, h, rfl, rfl, rfl, rfl⟩
  | none =>
    have hout := s.locksEnded_outer c
    have hst := State.core_standing hout c
    obtain ⟨sq, hk⟩ := ((s.locksEnded c).core c).halted_frame
    have hatt := congrArg Core.attached hst
    have hlock := congrArg Core.lockup hst
    have hlife := congrArg State.fLife hout
    have hfl := congrArg State.fl hout
    have hplink := congrArg (fun q : State => q.fb.plink) hout
    have hmir := congrArg (fun q : State => q.fb.mir) hout
    rw [s.haltCore_of_live c h, State.core_modCore_self, hk]
    exact ⟨hatt, hlock.trans h, hlife, hfl, hplink, hmir⟩

theorem State.haltCore_stopped (h : (s.core c).lockup = none) (v : ThId) : ((s.haltCore c).th c v).st = .stopped := by
  obtain ⟨sq, hk⟩ := ((s.locksEnded c).core c).halted_frame
  rw [s.haltCore_of_live c h, State.th, State.core_modCore_self, hk]
  exact congrArg Thread.st (Tab.get_map ((s.locksEnded c).core c).th _ v.toNat v.isLt)

theorem State.mayReset_haltCore : (s.haltCore c).mayReset c = s.mayReset c := by
  obtain ⟨-, hl, -, -, hp, -⟩ := s.haltCore_frame c
  rw [State.mayReset, State.mayReset, hl, hp]

/-- A swept core has its reinstall to come and its debugger alone (R166, R189). -/
theorem State.resetCore_core : (s.resetCore c).core c = { reinst := installState s.fLife, attached := (s.core c).attached } := by
  have hst := congrArg Core.attached (State.core_standing (s.coreDrained_outer c) c)
  have hcore : ∀ q : State, ((q.coreSwept c s.fb.plink.down (installState s.fLife)).core c) =
      { reinst := installState s.fLife, attached := (q.core c).attached } := by
    intro q
    unfold State.coreSwept
    dsimp only
    split <;> exact State.core_modCore_self _ _ _
  have hsync : ∀ q : State, q.syncDstate.core c = q.core c := fun q => congrArg (fun k : Tab Core 16 => k.get c.toNat) q.syncDstate_cores
  rw [State.resetCore_eq, hsync, hcore]
  exact congrArg (fun b => ({ reinst := installState s.fLife, attached := b } : Core)) hst

/-- A reset of a core ends a self-test, and no other command. -/
theorem State.resetCore_runs : (s.resetCore c).fl.runs = s.abandonBist.fl.runs ∧ (s.resetCore c).fb.mir = s.fb.mir := by
  have hout := s.coreDrained_outer c
  have hswept : ∀ q : State, (q.coreSwept c s.fb.plink.down (installState s.fLife)).fl = q.fl := by
    intro q
    unfold State.coreSwept
    dsimp only
    split <;> rfl
  have hmir := congrArg (fun q : State => q.fb.mir) (s.resetCore_shell c)
  have hruns := congrArg (fun q : State => q.fl.runs) hout
  refine ⟨?_, hmir⟩
  rw [State.resetCore_eq, State.syncDstate_runs]
  generalize s.coreDrained c = q at hruns ⊢
  rw [hswept]
  exact hruns

/-- Without a stop under way no thread's stop completes a command. -/
theorem State.stopRuns_self (h : ∀ r ∈ s.fl.runs, ∀ k m, r.kind ≠ .threadStop k m true) : s.stopRuns = s := by
  refine List.foldlRecOn (motive := fun q : State => q = s) s.fl.runs _ rfl ?_
  rintro q rfl r hr
  split
  · next k m hk => exact absurd hk (h r hr k m)
  · rfl

/-- A CORE_RESET that has begun, its core not halted yet (R340). -/
def State.resetBegun (s : State) (sq : Nat) (d : Desc) : State :=
  (s.begin_ sq d).modRun s.fl.nextTag (fun x => { x with kind := .coreReset (d.p 0) false })

variable {s} {c} {sq : Nat} {d : Desc}

/-- It is the only command under way. -/
theorem State.resetBegun_runs (h : s.fl.runs = []) :
    (s.resetBegun sq d).fl.runs = [{ s.newRun sq d with kind := .coreReset (d.p 0) false }] := by
  rw [State.resetBegun, State.modRun_begin_runs, h] <;> rfl

theorem State.resetBegun_haltCore : ∃ g, (s.resetBegun sq d).haltCore c = (s.haltCore c).modFl g :=
  ⟨_, s.haltCore_modFl c (fun _ => (s.resetBegun sq d).fl)⟩

/-- In its turn it halts the core, and sweeps it when it may. -/
theorem State.resetBegun_runReset (h : s.fl.runs = []) (hc : c.toNat = d.p 0) : (s.resetBegun sq d).runReset s.fl.nextTag c =
    if !s.mayReset c || !((s.haltCore c).core c).quiescent then (s.resetBegun sq d).haltCore c
    else
      let s1 := (((s.resetBegun sq d).haltCore c).resetCore c).modRun s.fl.nextTag (fun r => { r with kind := .coreReset c.toNat true })
      if installState s.fLife then s1 else s1.finish s.fl.nextTag 0 [0] := by
  obtain ⟨g, hg⟩ := s.resetBegun_haltCore (c := c) (sq := sq) (d := d)
  have hturn : (s.resetBegun sq d).coreTurn s.fl.nextTag c.toNat = true := by
    rw [State.resetBegun, State.begin_coreTurn s sq d (fun x => { x with kind := .coreReset (d.p 0) false }) (fun _ => rfl),
      State.coreTurn, h] <;> rfl
  have hquiet : (((s.resetBegun sq d).haltCore c).core c).quiescent = ((s.haltCore c).core c).quiescent := by
    rw [hg] <;> rfl
  have hlife : ((s.resetBegun sq d).haltCore c).fLife = s.fLife := ((s.resetBegun sq d).haltCore_frame c).2.2.1
  have hreinst : (((((s.resetBegun sq d).haltCore c).resetCore c).modRun s.fl.nextTag
      (fun r => { r with kind := .coreReset c.toNat true })).core c).reinst = installState s.fLife := by
    have hcore := congrArg Core.reinst (((s.resetBegun sq d).haltCore c).resetCore_core c)
    rw [hlife] at hcore
    exact hcore
  unfold State.runReset
  dsimp only
  rw [hturn, State.mayReset_haltCore, hquiet, hreinst]
  rfl

/-- The sweep leaves the command alone with its reinstall to come. -/
theorem State.resetSwept_runs (h : s.fl.runs = []) (hc : c.toNat = d.p 0) :
    ((((s.resetBegun sq d).haltCore c).resetCore c).modRun s.fl.nextTag (fun r => { r with kind := .coreReset c.toNat true })).fl.runs =
      [{ s.newRun sq d with kind := .coreReset (d.p 0) true }] := by
  obtain ⟨-, -, -, hfl, -, -⟩ := (s.resetBegun sq d).haltCore_frame c
  have hruns : (((s.resetBegun sq d).haltCore c).resetCore c).fl.runs = [{ s.newRun sq d with kind := .coreReset (d.p 0) false }] := by
    rw [(State.resetCore_runs _ c).1, State.abandonBist]
    change List.filter _ ((s.resetBegun sq d).haltCore c).fl.runs = _
    rw [hfl, State.resetBegun_runs h] <;> rfl
  change List.map _ (((s.resetBegun sq d).haltCore c).resetCore c).fl.runs = _
  rw [hruns, List.map_singleton, hc]
  exact congrArg (fun r => [r]) (if_pos rfl)

end Reset

/-! ## The end of a reinstall (R189) -/

section Reinstall

variable (k : CoreId)

/-- No CORE_RESET of the core waits for its reinstall. -/
def State.noReset (s : State) : Prop := ∀ r ∈ s.fl.runs, r.kind ≠ .coreReset k.toNat true

/-- What the commands that go on keep: the cores' reinstalls and their failures, and that none waits for the reinstall of the core. -/
def State.ResetKept (s q : State) : Prop :=
  q.cores.map Core.standing = s.cores.map Core.standing ∧ (s.noReset k → q.noReset k)

theorem State.ResetKept.refl (s : State) : State.ResetKept k s s := ⟨rfl, fun h => h⟩

theorem State.ResetKept.trans {s q r : State} (h : State.ResetKept k s q) (h' : State.ResetKept k q r) : State.ResetKept k s r :=
  ⟨h'.1.trans h.1, fun hn => h'.2 (h.2 hn)⟩

theorem State.ResetKept.of_fl {s q : State} (hc : q.cores.map Core.standing = s.cores.map Core.standing) (hfl : q.fl = s.fl) :
    State.ResetKept k s q := ⟨hc, fun h => by unfold State.noReset; rwa [hfl]⟩

theorem State.ResetKept.ite {s q r : State} {p : Prop} [Decidable p] (hq : State.ResetKept k s q) (hr : State.ResetKept k s r) :
    State.ResetKept k s (if p then q else r) := by
  split
  · exact hq
  · exact hr

theorem State.ResetKept.foldl {α : Type} (f : State → α → State) (l : List α) (hf : ∀ q, ∀ a ∈ l, State.ResetKept k q (f q a)) (s : State) :
    State.ResetKept k s (l.foldl f s) :=
  List.foldlRecOn l f (motive := fun q => State.ResetKept k s q) (.refl k s) (fun q hq a ha => hq.trans k (hf q a ha))

theorem State.finish_resetKept (s : State) (t : Nat) (st : Byte) (res : List Byte) : State.ResetKept k s (s.finish t st res) := by
  obtain ⟨f, h⟩ := s.finish_frame t st res
  refine ⟨by rw [h] <;> rfl, fun hn r hr => hn r ?_⟩
  rw [State.finish_runs] at hr
  exact List.mem_of_mem_filter hr

theorem State.modRun_resetKept (s : State) (t : Nat) (f : Run → Run) (hf : ∀ r, (f r).kind ≠ .coreReset k.toNat true) :
    State.ResetKept k s (s.modRun t f) := by
  refine ⟨rfl, fun hn r hr => ?_⟩
  obtain ⟨r', hr', rfl⟩ := List.mem_map.1 hr
  split
  · exact hf r'
  · exact hn r' hr'

theorem State.modTh_resetKept (s : State) (c : CoreId) (t : ThId) (f : Thread → Thread) : State.ResetKept k s (s.modTh c t f) :=
  .of_fl k (congrArg State.cores (s.modTh_outer c t f)) rfl

theorem State.fetchLine_resetKept (s : State) (c : CoreId) (t : ThId) : State.ResetKept k s (s.fetchLine c t) :=
  .of_fl k (congrArg State.cores (s.fetchLine_outer c t)) (s.fetchLine_fl c t).1

theorem State.stopRuns_resetKept (s : State) : State.ResetKept k s s.stopRuns := by
  refine State.ResetKept.foldl k _ _ (fun q r _ => ?_) s
  split
  · dsimp only
    split
    · exact State.finish_resetKept k _ _ _ _
    · exact .refl k q
  · exact .refl k q

theorem State.tryStart_resetKept (s : State) (tag : Nat) (c : CoreId) (t : ThId) (mode pc : Nat) :
    State.ResetKept k s (s.tryStart tag c t mode pc) := by
  have hend : ∀ (q : State) st, State.ResetKept k q (q.finish tag st) := fun q st => State.finish_resetKept k q _ _ _
  unfold State.tryStart
  refine .ite k (.refl k s) (.ite k (hend s _) (.ite k (hend s _) (.ite k (hend s _) (.ite k (hend s _) ?_))))
  refine .ite k (.ite k (hend s _) ?_) (.ite k (hend s _) (.ite k (.refl k s) ?_))
  · exact ((State.modTh_resetKept k s _ _ _).trans k (State.fetchLine_resetKept k _ _ _)).trans k (hend _ _)
  · exact ((State.modTh_resetKept k s _ _ _).trans k (State.fetchLine_resetKept k _ _ _)).trans k (hend _ _)

theorem State.tryStop_resetKept (s : State) (tag c mask : Nat) : State.ResetKept k s (s.tryStop tag c mask) := by
  unfold State.tryStop
  split
  · exact .refl k s
  · have hasked : State.ResetKept k s (s.stopAsked c mask) := by
      refine State.ResetKept.foldl k _ _ (fun q i _ => ?_) s
      split
      · exact State.modTh_resetKept k q _ _ _
      · exact .refl k q
    exact (hasked.trans k (State.modRun_resetKept k _ _ _ (fun _ h => by injection h))).trans k (State.stopRuns_resetKept k _)

theorem State.putSeg_resetKept (s : State) (g : ImgSeg) : State.ResetKept k s (s.putSeg g) := by
  refine .of_fl k ?_ (s.putSeg_frame g).1
  unfold State.putSeg
  split
  · rfl
  · rfl
  · refine List.foldlRecOn (motive := fun q : State => q.cores.map Core.standing = s.cores.map Core.standing) (List.range 16) _ rfl ?_
    intro q hq i _
    split
    · exact (Tab.map_modify q.cores _ _ Core.standing rfl).trans hq
    · exact hq

theorem State.putImage_resetKept (s : State) (b : List Byte) : State.ResetKept k s (s.putImage b) := by
  have hinval : State.ResetKept k s s.invalAll := by
    refine .of_fl k ?_ rfl
    change (s.cores.map Core.inval).map Core.standing = s.cores.map Core.standing
    rw [Vector.map_map] <;> rfl
  unfold State.putImage
  split
  · exact hinval.trans k (State.ResetKept.foldl k _ _ (fun q g _ => State.putSeg_resetKept k q g) _)
  · exact hinval

theorem State.tryImage_resetKept (s : State) (tag : Nat) (b : List Byte) : State.ResetKept k s (s.tryImage tag b) := by
  unfold State.tryImage
  split
  · exact .refl k s
  · exact (State.modRun_resetKept k _ _ _ (fun _ h => by injection h)).trans k (State.putImage_resetKept k _ _)

/-- The commands that go on, where no CORE_RESET waits for its core. -/
theorem State.startRuns_resetKept (s : State) (h : ∀ r ∈ s.fl.runs, ∀ j, r.kind ≠ .coreReset j false) : State.ResetKept k s s.startRuns := by
  refine State.ResetKept.foldl k _ _ (fun q r hr => ?_) s
  split
  · exact State.tryStart_resetKept k q _ _ _ _ _
  · exact State.tryStop_resetKept k q _ _ _
  · unfold State.tryQuery
    split
    · exact .refl k q
    · exact State.finish_resetKept k _ _ _ _
  · exact State.tryImage_resetKept k q _ _
  · next j hj => exact absurd hj (h r hr j)
  · exact .refl k q

/-- The completions of the CORE_RESETs that wait for the reinstall (R340). -/
def State.endReset (res : List Byte) (q : State) (r : Run) : State :=
  match r.kind with
  | .coreReset j true => if j = k.toNat then q.finish r.tag 0 res else q
  | _ => q

theorem State.endReset_kept (res : List Byte) (q : State) (r : Run) : State.ResetKept k q (State.endReset k res q r) ∧
    (∀ x ∈ (State.endReset k res q r).fl.runs, x ∈ q.fl.runs) ∧
    (r.kind = .coreReset k.toNat true → r ∉ (State.endReset k res q r).fl.runs) := by
  have hself : State.ResetKept k q q ∧ (∀ x ∈ q.fl.runs, x ∈ q.fl.runs) := ⟨.refl k q, fun _ h => h⟩
  unfold State.endReset
  split
  · next j hj =>
    split
    · refine ⟨State.finish_resetKept k _ _ _ _, fun x hx => ?_, fun _ hr => ?_⟩
      · rw [State.finish_runs] at hx
        exact List.mem_of_mem_filter hx
      · rw [State.finish_runs] at hr
        exact absurd rfl (of_decide_eq_true (List.mem_filter.1 hr).2)
    · next hne => exact ⟨hself.1, hself.2, fun h => absurd (by rw [hj] at h; injection h) hne⟩
  · next hne => exact ⟨hself.1, hself.2, fun h => absurd h (hne k.toNat)⟩

/-- They leave none of them. -/
theorem State.foldl_endReset (res : List Byte) : ∀ (l : List Run) (q : State),
    (l.foldl (State.endReset k res) q).cores.map Core.standing = q.cores.map Core.standing ∧
    (∀ x ∈ (l.foldl (State.endReset k res) q).fl.runs, x ∈ q.fl.runs ∧ (x ∈ l → x.kind ≠ .coreReset k.toNat true)) := by
  intro l
  induction l with
  | nil => exact fun q => ⟨rfl, fun x hx => ⟨hx, fun h => absurd h List.not_mem_nil⟩⟩
  | cons r l ih =>
    intro q
    obtain ⟨hkept, hsub, hgone⟩ := State.endReset_kept k res q r
    obtain ⟨hcores, hruns⟩ := ih (State.endReset k res q r)
    refine ⟨hcores.trans hkept.1, fun x hx => ⟨hsub x (hruns x hx).1, fun hmem hkind => ?_⟩⟩
    rcases List.mem_cons.1 hmem with rfl | htail
    · exact hgone hkind (hruns x hx).1
    · exact (hruns x hx).2 htail hkind

end Reinstall

/-- A reinstall ends the wait for it, and without a bundle fails for a disabled core alone. -/
theorem State.reinstall_core (s : State) (c : CoreId) (k : Core) : (s.reinstall c k).reinst = false ∧
    (s.img.instPatch = [] → s.img.instOpen = [] → (s.reinstall c k).rfail = (k.rfail || !s.coreEnabled c)) := by
  refine ⟨?_, fun hp ho => ?_⟩
  · unfold State.reinstall
    dsimp only
    split_ifs <;> rfl
  · unfold State.reinstall
    rw [hp, ho] <;> rfl

end Sys2Proof.Machine

namespace Sys2Proof

open Machine

/-- Settles O53: a command of threads acts on its own threads and completes as it began; a reset of a core keeps what the sweep
leaves. -/
theorem threadCommands : Obligations.ThreadCommands := by
  unfold Obligations.ThreadCommands
  intro s sq d t c th u turn ends
  refine ⟨?start, ?stop, ?reset, ?reinstall⟩
  case start =>
    intro hb hc hth hp6 hlen hturn hbusy hbist hlive hload hvalid hfail hstopped
    have hcn : c.toNat = d.p 0 := by rw [BitVec.toNat_ofNat, Nat.mod_eq_of_lt hc]
    have hmay : ∀ k, ((s.begin_ sq.toNat d).modRun t (fun x => { x with kind := k })).MayStart t c th := fun k =>
      { turn := by rw [hcn, State.begin_coreTurn s sq.toNat d (fun x => { x with kind := k }) (fun _ => rfl)]; exact hturn
        idle := by rw [State.begun_coreBusy s sq.toNat d (fun x => { x with kind := k }) (fun _ => rfl)]; exact hbusy
        free := hbist, live := hlive, loaded := hload, sound := hfail, image := hvalid, stopped := hstopped }
    have hexec : ∀ m, d.p 2 = m → m ≤ 2 → exec (.threadStart sq) s = .next
        (((s.begin_ sq.toNat d).modRun t (fun x => { x with kind := .threadStart (d.p 0) (d.p 1) m (d.pn 4 3) })).tryStart t c th m (d.pn 4 3)) := by
      intro m hm hle
      refine congrArg Host.Outcome.next ((command_of_begins _ hb rfl (by simp [hc, hth, hp6, hm, hle]) (decide_eq_true hlen)).trans ?_)
      rw [hm]
    refine ⟨fun h0 hfresh => ?_, fun hmode hidle e he hent => ?_⟩
    · have hrun := hexec 0 h0 (by decide)
      have hgo : ((s.begin_ sq.toNat d).modRun t (fun x => { x with kind := .threadStart (d.p 0) (d.p 1) 0 (d.pn 4 3) })).tryStart t c th 0 (d.pn 4 3) =
          (((s.begin_ sq.toNat d).modRun t (fun x => { x with kind := .threadStart (d.p 0) (d.p 1) 0 (d.pn 4 3) })).goneOn c th).finish t 0 :=
        (State.tryStart_of_may (hmay _) _ _).trans ((if_pos rfl).trans (if_neg (fun h => Bool.false_ne_true (hfresh.symm.trans h))))
      rw [hgo] at hrun
      have hend := State.begun_finish_fl s sq.toNat d _ (State.goneOn_fl (q := (s.begin_ sq.toNat d).modRun t
        (fun x => { x with kind := .threadStart (d.p 0) (d.p 1) 0 (d.pn 4 3) })) (c := c) (t := th)).1
        (congrArg Fire.mir State.goneOn_fl.2) 0 []
      refine ⟨_, hrun, hend, ?_⟩
      rw [State.finish_th]
      exact State.goneOn_th
    · subst he
      have hm : d.p 2 ≠ 0 ∧ d.p 2 ≤ 2 := by omega
      have hrun := hexec (d.p 2) rfl hm.2
      have hgo := (State.tryStart_of_may (hmay (.threadStart (d.p 0) (d.p 1) (d.p 2) (d.pn 4 3))) (d.p 2) (d.pn 4 3)).trans
        ((if_neg hm.1).trans ((if_neg (fun h => hent h.1 (Option.isNone_iff_eq_none.1 h.2))).trans
          (if_neg (fun h => Bool.false_ne_true (((congrArg (! ·) hidle).symm.trans h))))))
      rw [hgo] at hrun
      intro at_
      have hend := State.begun_finish_fl s sq.toNat d _ (State.startThread_fl (q := (s.begin_ sq.toNat d).modRun t
        (fun x => { x with kind := .threadStart (d.p 0) (d.p 1) (d.p 2) (d.pn 4 3) })) (c := c) (t := th) at_ (s.img.entry c th)).1
        (congrArg Fire.mir (State.startThread_fl at_ (s.img.entry c th)).2) 0 []
      obtain ⟨b, w, st, hself, hst⟩ := State.startThread_th (q := (s.begin_ sq.toNat d).modRun t
        (fun x => { x with kind := .threadStart (d.p 0) (d.p 1) (d.p 2) (d.pn 4 3) })) (c := c) (t := th) at_ (s.img.entry c th)
      have hth : ∀ v : Thread, v = { u.startAt at_ (s.img.entry c th) with buf := b, want := w, st := st } →
          v.pc = BitVec.ofNat 20 at_ ∧ v.w = 0 ∧ v.rsd = 0 ∧ v.pk = 0 ∧ (∀ i, i < 8 → (v.arms.get i).en = false) ∧
            v.status &&& 0xFC0 = 0x840 ∧ (v.st = .ready ∨ v.st = .blocked) ∧
            (∀ b, s.img.entry c th = some b → v.dsbase = BitVec.ofNat 24 (fld b 5 3) &&& 0xFFFFF8 ∧
              v.dslimit = BitVec.ofNat 24 (fld b 8 3) &&& 0xFFFFF8) := by
        rintro v rfl
        refine ⟨rfl, rfl, rfl, rfl, fun i hi => u.startAt_arms at_ (s.img.entry c th) i hi,
          u.startAt_status at_ (s.img.entry c th), hst, fun b hb => ?_⟩
        rw [hb]
        exact ⟨rfl, rfl⟩
      exact ⟨_, hrun, hend, hth _ ((State.finish_th _ _ _ _ _ _).trans hself)⟩
  case stop =>
    intro hb hc hlen hturn
    have hexec : exec (.threadStop sq) s = .next ((s.stopBegun sq.toNat d).stopRuns) := by
      refine congrArg Host.Outcome.next ((command_of_begins _ hb rfl (decide_eq_true hc) (decide_eq_true hlen)).trans ?_)
      refine if_neg ?_
      rw [State.begin_coreTurn s sq.toNat d (fun x => { x with kind := .threadStop (d.p 0) (d.p 1) false }) (fun _ => rfl)]
      exact fun h => Bool.false_ne_true ((congrArg (! ·) hturn).symm.trans h)
    obtain ⟨f, hf⟩ := (s.stopBegun sq.toNat d).stopRuns_frame
    have hth : ∀ v : ThId, ((s.stopBegun sq.toNat d).stopRuns).th c v =
        if (d.p 1).testBit v.toNat then (s.th c v).askStop else s.th c v := by
      intro v
      rw [hf]
      exact State.stopAsked_th ((s.begin_ sq.toNat d).modRun t (fun x => { x with kind := .threadStop (d.p 0) (d.p 1) false })) (d.p 0) (d.p 1) v
    refine ⟨_, hexec, fun v hv hst hfr => ?_, fun v hv => ?_, fun hdone hruns => ?_⟩
    · rw [hth v, if_pos hv, Thread.askStop, if_neg (by simp [hst, hfr])]
    · rw [hth v, if_neg (by rw [hv]; decide)]
    · obtain ⟨hfl, hone⟩ := s.stopBegun_fl sq.toNat d
      have hst : ∀ i, i < 8 → (((s.stopBegun sq.toNat d).cores.get (d.p 0)).th.get i).st = ((s.core c).th.get i).st := by
        intro i hi
        have hv : (BitVec.ofNat 3 i : ThId).toNat = i := by rw [BitVec.toNat_ofNat, Nat.mod_eq_of_lt hi]
        have h := State.stopAsked_th ((s.begin_ sq.toNat d).modRun t (fun x => { x with kind := .threadStop (d.p 0) (d.p 1) false }))
          (d.p 0) (d.p 1) (BitVec.ofNat 3 i)
        simp only [State.th, State.core, hv, BitVec.toNat_ofNat, Nat.mod_eq_of_lt hc] at h
        have hc' : (s.core c).th.get i = (s.cores.get (d.p 0)).th.get i := by rw [State.core, BitVec.toNat_ofNat, Nat.mod_eq_of_lt hc]
        rw [hc']
        refine (congrArg Thread.st h).trans ?_
        split
        · exact Thread.askStop_st _
        · rfl
      obtain ⟨hsame, hmask⟩ := Core.stopsDone_congr hst (d.p 1)
      have hend : (s.stopBegun sq.toNat d).stopRuns =
          (s.stopBegun sq.toNat d).finish t 0 [(s.core c).stoppedMask &&& BitVec.ofNat 8 (d.p 1)] := by
        unfold State.stopRuns
        rw [hone hruns, List.foldl_cons, List.foldl_nil]
        dsimp only
        rw [hsame, hdone, hmask, if_pos rfl] <;> rfl
      rw [hend]
      exact State.begun_finish_fl s sq.toNat d (.threadStop (d.p 0) (d.p 1) true) hfl
        (congrArg Fire.mir (State.stopAsked_frame _ _ _).2) _ _
  case reset =>
    intro hb hc hlen hruns
    have hcn : c.toNat = d.p 0 := by rw [BitVec.toNat_ofNat, Nat.mod_eq_of_lt hc]
    have hexec : exec (.coreReset sq) s = .next (((s.resetBegun sq.toNat d).runReset t c).stopRuns) :=
      congrArg Host.Outcome.next (command_of_begins _ hb rfl (decide_eq_true hc) (decide_eq_true hlen))
    rw [State.resetBegun_runReset hruns hcn] at hexec
    refine ⟨fun hmay hquiet => ?_, fun hlive hbusy => ?_⟩
    · rw [hmay, hquiet, if_neg (by decide)] at hexec
      obtain ⟨hatt, -, hlife, -⟩ := (s.resetBegun sq.toNat d).haltCore_frame c
      have hswept := State.resetSwept_runs (sq := sq.toNat) hruns hcn
      have hcore := State.resetCore_core ((s.resetBegun sq.toNat d).haltCore c) c
      rw [hlife, hatt] at hcore
      generalize hq : ((s.resetBegun sq.toNat d).haltCore c).resetCore c = q at hexec hswept hcore
      have hstop : ∀ q' : State, q'.stopRuns.core c = q'.core c := fun q' => by
        obtain ⟨f, hf⟩ := q'.stopRuns_frame
        rw [hf] <;> rfl
      refine ⟨_, hexec, ?_, fun hi => ?_, fun hi => ?_⟩
      · rw [hstop]
        dsimp only
        split
        · exact hcore
        · obtain ⟨f, hf⟩ := (q.modRun s.fl.nextTag (fun r => { r with kind := .coreReset c.toNat true })).finish_frame s.fl.nextTag 0 [0]
          rw [hf]
          exact hcore
      · rw [if_pos hi, State.stopRuns_self _ (by rw [hswept]; simp)]
        exact ⟨_, by rw [hswept]; exact List.mem_singleton.2 rfl, rfl, rfl, rfl, rfl⟩
      · rw [if_neg (by rw [hi]; decide)]
        have hnone : ((q.modRun s.fl.nextTag (fun r => { r with kind := .coreReset c.toNat true })).finish s.fl.nextTag 0 [0]).fl.runs = [] := by
          rw [State.finish_runs, hswept]
          exact List.filter_cons_of_neg (by simp [State.newRun])
        rw [State.stopRuns_self _ (by rw [hnone]; simp), hnone]
    · rw [hbusy, Bool.not_false, Bool.or_true, if_pos rfl] at hexec
      obtain ⟨g, hg⟩ := s.resetBegun_haltCore (c := c) (sq := sq.toNat) (d := d)
      obtain ⟨-, -, -, hfl, -, -⟩ := (s.resetBegun sq.toNat d).haltCore_frame c
      have hone : ((s.resetBegun sq.toNat d).haltCore c).fl.runs = [{ s.newRun sq.toNat d with kind := .coreReset (d.p 0) false }] := by
        rw [hfl, State.resetBegun_runs hruns]
      rw [State.stopRuns_self _ (by rw [hone]; simp)] at hexec
      refine ⟨_, hexec, ⟨_, by rw [hone]; exact List.mem_singleton.2 rfl, rfl, rfl, rfl, rfl⟩, fun v => ?_⟩
      rw [hg]
      exact s.haltCore_stopped c hlive v
  case reinstall =>
    intro k hre hon hwait
    obtain ⟨hin, hfail⟩ := s.reinstall_core k (s.core k)
    have hself : (s.modCore k (s.reinstall k)).core k = s.reinstall k (s.core k) := State.core_modCore_self _ _ _
    have hexec : exec (.bundleReinstallDone k) s = .next ((s.fl.runs.foldl
        (State.endReset k [if ((s.modCore k (s.reinstall k)).core k).rfail then 1 else 0]) (s.modCore k (s.reinstall k))).startRuns) :=
      congrArg Host.Outcome.next (if_neg (by rw [hre, hon]; decide))
    obtain ⟨hcores, hruns⟩ := State.foldl_endReset k [if ((s.modCore k (s.reinstall k)).core k).rfail then 1 else 0] s.fl.runs
      (s.modCore k (s.reinstall k))
    generalize s.fl.runs.foldl (State.endReset k [if ((s.modCore k (s.reinstall k)).core k).rfail then 1 else 0])
      (s.modCore k (s.reinstall k)) = q at hexec hcores hruns
    obtain ⟨hkept, hnone⟩ := q.startRuns_resetKept k (fun r hr j => hwait r j (hruns r hr).1)
    have hget : ∀ r : State, (r.core k).standing = Tab.get (r.cores.map Core.standing) k.toNat := fun r =>
      (Tab.get_map r.cores Core.standing k.toNat k.isLt).symm
    have hstand : (q.startRuns.core k).standing = (s.reinstall k (s.core k)).standing := by
      rw [hget, hkept, hcores, ← hget, hself]
    refine ⟨_, hexec, (congrArg Core.reinst hstand).trans hin, fun hp ho => (congrArg Core.rfail hstand).trans (hfail hp ho),
      hnone (fun r hr => (hruns r hr).2 (hruns r hr).1)⟩

end Sys2Proof
end

section
/-! What the vault's requests, its journal and the cords leave of the device: everything but the vault, the Seal engine, the logs that
the Pilot holds, and the Flue. -/

namespace Sys2Proof.Machine

/-- The device without its vault and Seal engine, the logs that wait in the Pilot, and the Flue. -/
def State.offVault (s : State) : State :=
  { s with fl := {}, hs := { s.hs with vault := {}, se := {} }, pil := { s.pil with logQ := [] } }

section Frames

variable (s : State)

theorem State.foldl_offVault {α : Type} (f : State → α → State) (h : ∀ q a, (f q a).offVault = q.offVault) (l : List α) :
    (l.foldl f s).offVault = s.offVault :=
  List.foldlRecOn l f (motive := fun q => q.offVault = s.offVault) rfl (fun q hq a _ => (h q a).trans hq)

@[simp] theorem State.modVault_offVault (f : Vault → Vault) : (s.modVault f).offVault = s.offVault := rfl
@[simp] theorem State.modSeal_offVault (f : SealSt → SealSt) : (s.modSeal f).offVault = s.offVault := rfl
@[simp] theorem State.modFl_offVault (f : Flue → Flue) : (s.modFl f).offVault = s.offVault := rfl

@[simp] theorem State.submit_offVault (k : CKind) (tag : Option Nat) : (s.submit k tag).offVault = s.offVault := by
  obtain ⟨v, h⟩ := s.submit_vault k tag
  rw [h] <;> rfl

@[simp] theorem State.syncDstate_offVault : s.syncDstate.offVault = s.offVault := by
  unfold State.syncDstate
  split <;> rfl

@[simp] theorem State.finish_offVault (t : Nat) (st : Byte) (res : List Byte) : (s.finish t st res).offVault = s.offVault := by
  obtain ⟨f, h⟩ := s.finish_frame t st res
  rw [h] <;> rfl

@[simp] theorem State.pilotNext_offVault (n : Nat) : (s.pilotNext n).offVault = s.offVault := by
  obtain ⟨v, q, h⟩ := State.pilotNext_frame n s
  rw [h] <;> rfl

@[simp] theorem State.reindex_offVault : s.reindex.offVault = s.offVault :=
  State.foldl_offVault s _ (fun q c => by split <;> simp) _

@[simp] theorem State.trySwitch_offVault : s.trySwitch.offVault = s.offVault := by
  unfold State.trySwitch
  dsimp only
  split <;> simp

/-! ## The journal and the cords -/

theorem Hearth.jputH_vault (h : Hearth) (r : JRec) (hd : Heads) : ∃ v, h.jputH r hd = { h with vault := v } := by
  unfold Hearth.jputH
  dsimp only
  split <;> exact ⟨_, rfl⟩

@[simp] theorem State.jput_offVault (f : Hearth → JRec) : (s.modHs (fun h => h.jput (f h))).offVault = s.offVault := by
  obtain ⟨v, h⟩ := Hearth.jputH_vault s.hs (f s.hs) s.hs.vault.jhd
  have hput : s.modHs (fun h => h.jput (f h)) = s.modVault (fun _ => v) := congrArg (fun x => ({ s with hs := x } : State)) h
  rw [hput] <;> rfl

@[simp] theorem State.closeCord_offVault (r : CReason) : (s.closeCord r).offVault = s.offVault := by
  unfold State.closeCord
  dsimp only
  rw [State.syncDstate_offVault, State.submit_offVault] <;> rfl

/-- A leaf that waited enters the open cord. -/
theorem State.leafEnters_offVault (l : Leaf) (f : SealSt → SealSt) :
    ((s.modHs (fun h => h.jput (h.leafRec .leaf l true))).modSeal f).offVault = s.offVault :=
  s.jput_offVault (fun h => h.leafRec .leaf l true)

@[simp] theorem State.pump_offVault : ∀ (n : Nat) (s : State), (s.pump n).offVault = s.offVault := by
  intro n
  induction n with
  | zero => exact fun _ => rfl
  | succ n ih =>
    intro s
    have hleaf : ∀ l f, (((s.modHs (fun h => h.jput (h.leafRec .leaf l true))).modSeal f).pump n).offVault = s.offVault :=
      fun l f => (ih _).trans (s.leafEnters_offVault l f)
    unfold State.pump
    dsimp only
    split
    · split
      · rw [ih, State.closeCord_offVault]
      · split
        · split
          · exact hleaf _ _
          · rfl
        · rfl
    · split
      · rw [ih] <;> rfl
      · split
        · split
          · exact hleaf _ _
          · rfl
        · rfl

@[simp] theorem State.cords_offVault : s.cords.offVault = s.offVault := State.pump_offVault _ s

end Frames

end Sys2Proof.Machine
end

section
/-! The resets (section 14.2). -/

namespace Sys2Proof.Machine

/-! ## HOST resets -/

section Host

variable (s : State)

/-- What a start of the link changes: whether the Flue is ready to train it, and the start step that says so. -/
theorem State.linkStart_frame : ∃ f p, s.linkStart = (s.modFl (fun _ => f)).modPw (fun _ => p) ∧ f.runs = s.fl.runs ∧
    p.life = s.pw.life ∧ p.hostWait = s.pw.hostWait ∧ p.perst = s.pw.perst ∧ (s.pw.perst = true → f = s.fl) := by
  unfold State.linkStart
  split
  · next h =>
    refine ⟨_, _, rfl, rfl, rfl, rfl, rfl, fun hp => ?_⟩
    rw [hp, Bool.not_true, Bool.false_and] at h
    exact absurd h Bool.false_ne_true
  · exact ⟨s.fl, s.pw, rfl, rfl, rfl, rfl, rfl, fun _ => rfl⟩

theorem State.linkStart_of_free (hp : s.pw.perst = false) (hon : s.fireOn = true) :
    s.linkStart = (s.modFl (fun f => { f with linkReady := true })).modPw (fun p => { p with start := { p.start with s11 := true } }) :=
  if_pos (by rw [hp, hon] <;> rfl)

/-- A HOST reset clears the Firebox, the Flue and the images at once; a core that still owes the Pilot its state waits (R166, R382). -/
theorem State.beginHost_left : (s.beginHost.fb.prog = [] ∧ s.beginHost.fb.shared = [] ∧ s.beginHost.fb.ember = [] ∧
      s.beginHost.fl.runs = [] ∧ s.beginHost.img = {} ∧ s.beginHost.pw.life = .starting) ∧
    s.beginHost.pw.hostWait = true ∧ s.beginHost.pil.ph = s.pil.ph ∧ s.beginHost.hs.vault = s.hs.vault ∧ s.beginHost.hs.otp = s.hs.otp ∧
    (∀ c : CoreId, s.beginHost.core c = if s.mayReset c then {} else s.core c) ∧ s.beginHost.pw.perst = s.pw.perst ∧
    (s.pw.perst = true → s.beginHost.fl.linkReady = false) := by
  have hcore : ∀ c : CoreId, (s.resetFire .host).core c = if s.mayReset c then {} else s.core c := by
    intro c
    have hid : BitVec.ofNat 4 c.toNat = c := BitVec.eq_of_toNat_eq (by simp)
    have hget : (s.resetFire .host).core c = if s.keepsCore .host c.toNat then s.cores.get c.toNat else {} := by
      change Tab.get (Vector.ofFn _) c.toNat = _
      simp [Tab.get, c.isLt]
    rw [hget, State.keepsCore, hid]
    cases s.mayReset c <;> rfl
  unfold State.beginHost
  dsimp only
  generalize (if (s.pw.start.kind = .host || (s.pw.start.s7 && s.pw.start.s8)) = true then
    ({ kind := .host, s1 := true, s2 := true, s7 := true } : Start)
    else { kind := s.pw.start.kind, s1 := true, s2 := true, s7 := s.pw.start.s7, s8 := s.pw.start.s8 }) = new
  obtain ⟨f, p, hq, hruns, hlife, hwait, hperst, hsame⟩ := State.linkStart_frame
    ((s.resetFire .host).modPw (fun p => { p with life := .starting, start := new, hostWait := true, plan := none }))
  rw [hq]
  obtain ⟨m, hm⟩ := State.syncMirror_frame ((((s.resetFire .host).modPw
    (fun p => { p with life := .starting, start := new, hostWait := true, plan := none })).modFl (fun _ => f)).modPw (fun _ => p))
  rw [hm]
  refine ⟨⟨rfl, rfl, rfl, hruns, rfl, hlife⟩, hwait, rfl, rfl, rfl, hcore, hperst, fun hp => ?_⟩
  exact congrArg Flue.linkReady (hsame hp)

end Host

end Sys2Proof.Machine

namespace Sys2Proof

open Machine

/-- Settles O41: each reset sweeps what its kind names; a HOST reset waits for the vault and for the locked cores. -/
theorem resetKinds : Obligations.ResetKinds := by
  unfold Obligations.ResetKinds
  intro s swept host
  refine ⟨?cold, ?warm, ?perst, ?key, ?noKey, ?begins, ?waitsVault, ?waitsCore, ?rise⟩
  case cold => exact ⟨_, rfl, ⟨rfl, rfl, rfl, rfl, rfl, rfl⟩, rfl, rfl, rfl, rfl, rfl, rfl, rfl, rfl⟩
  case warm =>
    intro hlife
    have hrun : exec .mainRailsRestored s = .next s.warmStart := by
      rcases hlife with h | h
      all_goals
        change Host.Outcome.next (match s.pw.life with | .standby | .vaultSafe => s.warmStart | .starting => _ | .pfail => _ | .off => _ | .running => _) = _
        rw [h]
    exact ⟨_, hrun, ⟨rfl, rfl, rfl, rfl, rfl, rfl⟩, rfl, rfl, rfl, rfl, rfl, rfl, rfl⟩
  case perst =>
    intro hp hlife
    have hrun : exec .perstNFall s = .next
        ((s.modPw (fun p => { p with perst := true })).modFl (fun f => { f with linkReady := false })).beginHost := by
      refine congrArg Host.Outcome.next ((if_neg (by simp [hp, hlife])).trans ?_)
      change (match s.pw.life with | .running => _ | .pfail => _ | .starting => _ | .vaultSafe => _ | .off | .standby => _) = _
      rw [hlife]
    obtain ⟨hswept, hwait, hph, hv, hotp, hcore, hperst, hlink⟩ :=
      State.beginHost_left ((s.modPw (fun p => { p with perst := true })).modFl (fun f => { f with linkReady := false }))
    have hnorm := congrArg Otp.norm hotp
    exact ⟨_, hrun, ⟨hswept, hwait, hph, hv, hnorm, hcore⟩, hperst, hlink rfl⟩
  case key =>
    intro hbar hlife
    have hrun : exec (.rstCtlWrite 0x5AFE0316) s = .next
        (s.modHs (fun h => { h with otp := { h.otp with busy := none, genWait := none } })).beginHost := by
      refine congrArg Host.Outcome.next ((if_pos hbar).trans ((if_pos rfl).trans ?_))
      change (match s.pw.life with | .running => _ | .pfail => _ | .starting => _ | .vaultSafe => _ | .off | .standby => _) = _
      rw [hlife]
    obtain ⟨hswept, hwait, hph, hv, hotp, hcore, -, -⟩ :=
      State.beginHost_left (s.modHs (fun h => { h with otp := { h.otp with busy := none, genWait := none } }))
    have hnorm := congrArg Otp.norm hotp
    have hbusy := congrArg Otp.busy hotp
    exact ⟨_, hrun, ⟨hswept, hwait, hph, hv, hnorm, hcore⟩, hbusy⟩
  case noKey =>
    intro v hv
    have hself : s.rstCtl v = s := if_neg hv
    refine congrArg Host.Outcome.next ?_
    rw [hself, ite_self]
  case begins =>
    intro hwait hlife hdone hmay
    have hsent : s.locksSent = true := List.all_eq_true.2 (fun i _ => hmay _)
    have hvault : (s.vaultOn && !s.hs.vault.adm.isEmpty) = false := by
      rcases hdone with h | h <;> simp [h]
    obtain ⟨s1, hs1⟩ : ∃ q : State, q = (({ s with cores := Tab.fill 16 {}, pil := s.pil.putLockups 0 } : State).resetHearth true).modPw
      (fun p => { p with hostWait := false }) := ⟨_, rfl⟩
    have hrun : exec .hostResetBegin s = .next (if s1.vaultOn then (s1.pilotNext 4).reindex.trySwitch.cords else s1).syncDstate := by
      refine congrArg Host.Outcome.next ((if_neg ?_).trans (by rw [hs1]))
      rw [hwait, hvault, hsent, decide_eq_false (not_not.2 hlife)]
      decide
    have hframe : (if s1.vaultOn then (s1.pilotNext 4).reindex.trySwitch.cords else s1).syncDstate.offVault = s1.offVault := by
      rw [State.syncDstate_offVault]
      split <;> simp
    have hcores := congrArg State.cores hframe
    have hpw := congrArg State.pw hframe
    have hph := congrArg (fun q : State => q.pil.ph) hframe
    have hdmp := congrArg (fun q : State => q.pil.dmp) hframe
    have hotp := congrArg (fun q : State => q.hs.otp.norm) hframe
    subst hs1
    exact ⟨_, hrun, hcores, congrArg Power.hostWait hpw, (congrArg Power.life hpw).trans hlife, hph, hdmp, hotp⟩
  case waitsVault =>
    intro _ hon hadm
    refine congrArg Host.Outcome.next (if_pos ?_)
    simp [hon, hadm]
  case waitsCore =>
    intro c hc
    have hsent : s.locksSent = false := List.all_eq_false.2 ⟨c.toNat, List.mem_range.2 c.isLt, by
      rw [show BitVec.ofNat 4 c.toNat = c from BitVec.eq_of_toNat_eq (by simp), hc]
      decide⟩
    refine congrArg Host.Outcome.next (if_pos ?_)
    simp [hsent]
  case rise =>
    intro hp hlife
    have hrun : exec .perstNRise s = .next
        ({ (s.modPw (fun p => { p with perst := false })) with pil := { s.pil with wakePin := true } } : State).linkStart := by
      refine congrArg Host.Outcome.next ((if_neg (by simp [hp, hlife])).trans (congrArg State.linkStart ?_))
      exact if_neg (by rw [hlife] <;> decide)
    rw [State.linkStart_of_free _ rfl (by
      change (match s.pw.life with | .running => true | .starting => _ | _ => false) = true
      rw [hlife])] at hrun
    exact ⟨_, hrun, rfl, rfl, rfl⟩

end Sys2Proof
end

section
/-! What the write stream and an admission leave: the stream its commits but for how far they are, the Seal engine and the device, an
admission all but the vault, the ledger, the slot of its log and what the Pilot remembers of its checkpoint. -/

namespace Sys2Proof.Machine

/-! ## The write stream (R261, R262) -/

/-- A commit without how far its write is. -/
def Commit.still (c : Commit) : Commit := { c with begun := false, pos := 0 }

/-- What the stream leaves of the vault: all but its lines and their wear, the journal, the overwritten logs and seal records, and how far
the writes are. -/
def Vault.held (v : Vault) : Vault :=
  { v with adm := v.adm.map Commit.still, cur := none, sysAt := [], raw := [], wear := [], ueLines := [], recs := [], logs := [], seals := [],
           goneL := [], goneS := [], journal := [], jseq := 0, jSince := 0, jPos := 0, jhd := {}, jhd0 := {}, spares := 0, bad := [],
           retiring := [], fault := false }

/-- No admitted write but a log's own goes to its lines. -/
def Vault.apart (v : Vault) (l : VLog) : Prop := ∀ x ∈ v.adm, x.seq ≠ some l.seq → ∀ a ∈ l.at_, a ∉ x.at_

/-- What the stream leaves. -/
structure State.Streams (s q : State) : Prop where
  rest : q.offVault = s.offVault
  se : q.hs.se = s.hs.se
  held : q.hs.vault.held = s.hs.vault.held
  logs : ∀ l ∈ s.hs.vault.logs, s.hs.vault.apart l → l ∈ q.hs.vault.logs

section Stream

variable {s q r : State}

theorem State.Streams.refl (s : State) : s.Streams s := ⟨rfl, rfl, rfl, fun _ h _ => h⟩

theorem Vault.apart_of_held {v u : Vault} (h : u.held = v.held) {l : VLog} (ha : v.apart l) : u.apart l := by
  intro x hx hseq
  have hmem : x.still ∈ v.adm.map Commit.still := by
    have hadm : u.adm.map Commit.still = v.adm.map Commit.still := congrArg Vault.adm h
    rw [← hadm]
    exact List.mem_map_of_mem hx
  obtain ⟨y, hy, hyx⟩ := List.mem_map.1 hmem
  have hs := congrArg Commit.seq hyx
  have hat := congrArg Commit.at_ hyx
  change y.seq = x.seq at hs
  change y.at_ = x.at_ at hat
  rw [← hs] at hseq
  rw [← hat]
  exact ha y hy hseq

theorem State.Streams.trans (h : s.Streams q) (h' : q.Streams r) : s.Streams r :=
  ⟨h'.rest.trans h.rest, h'.se.trans h.se, h'.held.trans h.held,
    fun l hl ha => h'.logs l (h.logs l hl ha) (Vault.apart_of_held h.held ha)⟩

theorem State.Streams.of_vault (f : Vault → Vault) (hf : (f s.hs.vault).held = s.hs.vault.held) (hl : (f s.hs.vault).logs = s.hs.vault.logs) :
    s.Streams (s.modVault f) :=
  ⟨rfl, rfl, hf, fun l h _ => by change l ∈ (f s.hs.vault).logs; rwa [hl]⟩

theorem State.Streams.of_flue (f : Flue → Flue) : s.Streams (s.modFl f) := ⟨rfl, rfl, rfl, fun _ h _ => h⟩

theorem State.Streams.syncDstate (s : State) : s.Streams s.syncDstate := by
  unfold State.syncDstate
  split
  · exact .refl s
  · exact State.Streams.trans (.of_flue _) (.of_flue _)

theorem Vault.wearLine_left (v : Vault) (l : Nat) : (v.wearLine l).held = v.held ∧ (v.wearLine l).logs = v.logs := by
  unfold Vault.wearLine Vault.retire
  dsimp only
  split_ifs <;> exact ⟨rfl, rfl⟩

theorem Vault.putLine_left (v : Vault) (l : Nat) (b : List Byte) : (v.putLine l b).held = v.held ∧ (v.putLine l b).logs = v.logs :=
  v.wearLine_left l

theorem Hearth.jraw_left (h : Hearth) (r : JRec) (hd : Heads) : (h.jraw r hd).vault.held = h.vault.held ∧
    (h.jraw r hd).vault.logs = h.vault.logs := by
  unfold Hearth.jraw
  dsimp only
  obtain ⟨hh, hl⟩ := h.vault.putLine_left h.jLine ({ r with jseq := h.vault.jseq, line := h.jLine } : JRec).bytes
  generalize h.vault.putLine h.jLine ({ r with jseq := h.vault.jseq, line := h.jLine } : JRec).bytes = u at hh hl ⊢
  exact ⟨hh, hl⟩

theorem Hearth.jheads_left (h : Hearth) : h.jheads.vault.held = h.vault.held ∧ h.jheads.vault.logs = h.vault.logs :=
  h.jraw_left { ty := .heads, heads := some (h.vault.jhd, partFirst .prot + h.vault.relPos) } h.vault.jhd

theorem Hearth.jputH_left (h : Hearth) (r : JRec) (hd : Heads) : (h.jputH r hd).vault.held = h.vault.held ∧
    (h.jputH r hd).vault.logs = h.vault.logs := by
  have hraw := h.jraw_left r hd
  unfold Hearth.jputH
  dsimp only
  generalize h.jraw r hd = g at hraw ⊢
  split
  · exact ⟨g.jheads_left.1.trans hraw.1, g.jheads_left.2.trans hraw.2⟩
  · exact hraw

theorem State.Streams.jputH (s : State) (f : Hearth → JRec) (g : Hearth → Heads) : s.Streams (s.modHs (fun h => h.jputH (f h) (g h))) := by
  have hleft := s.hs.jputH_left (f s.hs) (g s.hs)
  obtain ⟨v, hv⟩ := s.hs.jputH_vault (f s.hs) (g s.hs)
  have hput : s.modHs (fun h => h.jputH (f h) (g h)) = s.modVault (fun _ => v) := congrArg (fun x => ({ s with hs := x } : State)) hv
  rw [hv] at hleft
  rw [hput]
  exact .of_vault (fun _ => v) hleft.1 hleft.2

theorem State.Streams.sysLines (s : State) (c : Commit) (n : Nat) : s.Streams (s.sysLines c n) := by
  unfold State.sysLines
  split
  · exact .of_vault _ rfl rfl
  · exact .refl s

theorem State.Streams.foldl {α : Type} (f : State → α → State) (h : ∀ q a, State.Streams q (f q a)) (l : List α) (s : State) :
    s.Streams (l.foldl f s) :=
  List.foldlRecOn l f (motive := fun q => s.Streams q) (.refl s) (fun q hq a _ => hq.trans (h q a))

theorem State.itemGone_fl (s : State) (b : Bool) (n : Nat) : ∃ f, s.itemGone b n = s.modFl f := by
  refine List.foldlRecOn (motive := fun q : State => ∃ f, q = s.modFl f) (List.range 4) _ ⟨_, rfl⟩ ?_
  rintro q ⟨f, rfl⟩ i _
  exact ⟨fun g => { f g with eqs := ((s.modFl f).moveMarks i).fl.eqs }, rfl⟩

/-- What a write overwrites is gone from the queues of the EQs too (R271). -/
theorem State.Streams.overwrite (s : State) (c : Commit) (hc : c ∈ s.hs.vault.adm) : s.Streams (s.overwrite c) := by
  have hgone : ∀ b (l : List Nat) (q : State), q.Streams (l.foldl (fun (q : State) n => q.itemGone b n) q) := fun b l q =>
    State.Streams.foldl _ (fun q n => by
      obtain ⟨f, hf⟩ := q.itemGone_fl b n
      rw [hf]
      exact .of_flue f) l q
  refine State.Streams.trans ?_ ((hgone false _ _).trans (hgone true _ _))
  refine ⟨rfl, rfl, rfl, fun l hl ha => List.mem_filter.2 ⟨hl, ?_⟩⟩
  by_cases hseq : c.seq = some l.seq
  · simp [hseq]
  · have hnone : (l.at_.any fun a => c.at_.contains a) = false := by
      rw [List.any_eq_false]
      intro a hmem hcon
      exact ha c hc hseq a hmem (List.contains_iff_mem.1 hcon)
    exact congrArg (fun x => !(x && decide (some l.seq ≠ c.seq))) hnone

theorem Vault.held_modAdm (v : Vault) (id : Nat) (f : Commit → Commit) (hf : ∀ c, (f c).still = c.still) :
    (v.modAdm id f).held = v.held := by
  have hadm : (v.adm.map (fun c => if c.id = id then f c else c)).map Commit.still = v.adm.map Commit.still := by
    rw [List.map_map]
    refine List.map_congr_left (fun c _ => ?_)
    dsimp only [Function.comp_apply]
    split
    · exact hf c
    · rfl
  exact congrArg (fun l => ({ v.held with adm := l } : Vault)) hadm

/-- A write is marked as begun and takes the stream. -/
theorem State.Streams.begins (s : State) (id : Nat) :
    s.Streams (s.modVault (fun v => { (v.modAdm id (fun x => { x with begun := true })) with cur := some id })) :=
  .of_vault _ (Vault.held_modAdm s.hs.vault id (fun x => { x with begun := true }) (fun _ => rfl)) rfl

/-- A write begins. -/
theorem State.Streams.beginWrite (s : State) (c : Commit) (hc : c ∈ s.hs.vault.adm) : s.Streams (s.beginWrite c) := by
  unfold State.beginWrite
  dsimp only
  refine State.Streams.trans ?_ (.syncDstate _)
  refine State.Streams.trans (((State.Streams.overwrite s c hc).trans (.sysLines _ c 1)).trans (.jputH _ (fun h => h.jOf .intent c) _))
    (.begins _ c.id)

theorem State.nextWrite_mem {c : Commit} (h : s.nextWrite = some c) : c ∈ s.hs.vault.adm := by
  have hmem := List.mem_of_mem_head? (Option.mem_def.2 h)
  obtain ⟨k, -, hk⟩ := List.mem_filterMap.1 hmem
  exact List.mem_of_find?_eq_some hk

theorem State.Streams.grab (s : State) : s.Streams s.grab := by
  have hcur : ∀ n, s.Streams (s.modVault (fun v => { v with cur := n })) := fun n => .of_vault _ rfl rfl
  have hpick : s.Streams (match s.nextWrite with
      | some c => if c.begun then s.modVault (fun v => { v with cur := some c.id }) else s.beginWrite c
      | none => s.modVault (fun v => { v with cur := none })) := by
    cases h : s.nextWrite with
    | none => exact hcur none
    | some c =>
      dsimp only
      split
      · exact hcur _
      · exact .beginWrite s c (State.nextWrite_mem h)
  unfold State.grab
  dsimp only
  split
  · split
    · exact hpick
    · exact .refl s
  · exact hpick

theorem State.Streams.writeLine (s : State) (c : Commit) (i : Nat) : s.Streams (s.writeLine c i) := by
  unfold State.writeLine
  dsimp only
  split
  · exact .of_vault _ (Vault.putLine_left _ _ _).1 (Vault.putLine_left _ _ _).2
  · exact .of_vault _ (Vault.wearLine_left _ _).1 (Vault.wearLine_left _ _).2

theorem State.Streams.lineStep (s : State) : s.Streams s.lineStep := by
  unfold State.lineStep
  split
  · next c _ =>
    split
    · refine State.Streams.trans ?_ (.grab _)
      refine State.Streams.trans ((State.Streams.writeLine s c c.pos).trans (.sysLines _ c 1)) (.of_vault _ ?_ rfl)
      exact Vault.held_modAdm _ c.id (fun x => { x with pos := x.pos + 1 }) (fun _ => rfl)
    · exact .refl s
  · exact .refl s

theorem State.Streams.runStream : ∀ (n : Nat) (s : State), s.Streams (s.runStream n) := by
  intro n
  induction n with
  | zero => exact .refl
  | succ n ih =>
    intro s
    unfold State.runStream
    split
    · split
      · exact (State.Streams.lineStep s).trans (ih _)
      · exact .refl s
    · exact .refl s

theorem State.Streams.streamed (s : State) : s.Streams s.streamed := (State.Streams.grab s).trans (.runStream _ _)

/-- The admitted commits stay, in their order. -/
theorem State.Streams.ids (h : s.Streams q) : q.hs.vault.adm.map (fun c => c.id) = s.hs.vault.adm.map (fun c => c.id) := by
  have hadm : q.hs.vault.adm.map Commit.still = s.hs.vault.adm.map Commit.still := congrArg Vault.adm h.held
  have hid := congrArg (List.map Commit.id) hadm
  rw [List.map_map, List.map_map] at hid
  exact hid

end Stream

end Sys2Proof.Machine
end

section
/-! What an admission leaves: all but the vault, the ledger, the slot of its log, what the Pilot remembers of its checkpoint and the Flue. -/

namespace Sys2Proof.Machine

/-- The device without its vault, the ledger, the log slots, what the Pilot remembers of its checkpoints and the logs that wait in it, and
the Flue. -/
def State.offAdm (s : State) : State :=
  { s with fl := {}, hs := { s.hs with vault := {}, se := {}, slots := Tab.fill 64 {} }
           pil := { s.pil with logQ := [], dmp := { s.pil.dmp with rsv := 0 }, ph := { s.pil.ph.withCk 0 0 false with odoRefused := 0 } } }

/-- What the admission of a commit leaves. -/
structure State.Admits (s : State) (c : Commit) (q : State) : Prop where
  rest : q.offAdm = s.offAdm
  rsv : q.pil.dmp.rsv = s.pil.dmp.rsv ∨ q.pil.dmp.rsv = s.pil.dmp.rsv + c.cost
  ids : ∀ k, k ∈ s.hs.vault.adm.map (fun c => c.id) → k ∈ q.hs.vault.adm.map (fun c => c.id)
  wait : q.hs.vault.wait = s.hs.vault.wait.filter (fun x => x.id ≠ c.id)
  slots : (∀ i, c.kind ≠ .slot i) → q.hs.slots = s.hs.slots

section Admission

variable {s q r : State} {c : Commit}

theorem State.offAdm_of_offVault (h : q.offVault = s.offVault) : q.offAdm = s.offAdm := by
  have hadm : ∀ x : State, x.offAdm = x.offVault.offAdm := fun _ => rfl
  rw [hadm, h, ← hadm]

/-- What only changes the Flue, or the vault but for its queues, may follow. -/
theorem State.Admits.then (h : s.Admits c q) (hrest : r.offVault = q.offVault) (hadm : r.hs.vault.adm.map (fun c => c.id) = q.hs.vault.adm.map (fun c => c.id))
    (hwait : r.hs.vault.wait = q.hs.vault.wait) : s.Admits c r where
  rest := (State.offAdm_of_offVault hrest).trans h.rest
  rsv := by
    have hr := congrArg (fun x : State => x.pil.dmp.rsv) hrest
    change r.pil.dmp.rsv = q.pil.dmp.rsv at hr
    rw [hr]
    exact h.rsv
  ids := fun k hk => by rw [hadm]; exact h.ids k hk
  wait := hwait.trans h.wait
  slots := fun hk => by
    have hs := congrArg (fun x : State => x.hs.slots) hrest
    exact Eq.trans hs (h.slots hk)

theorem State.Admits.streams (h : s.Admits c q) (hq : q.Streams r) : s.Admits c r := by
  have hwait := congrArg Vault.wait hq.held
  exact h.then hq.rest hq.ids hwait

theorem State.Admits.syncDstate (h : s.Admits c q) : s.Admits c q.syncDstate := h.streams (.syncDstate q)

theorem Commit.mem_ids_append {l : List Commit} {k : Nat} (x : Commit) (h : k ∈ l.map (fun c => c.id)) : k ∈ (l ++ [x]).map (fun c => c.id) := by
  rw [List.map_append]
  exact List.mem_append_left _ h

/-- The ledger takes a commit that has been placed. -/
theorem State.Admits.placed (s : State) (c x : Commit) (v : Vault) (g : Vault → Vault) (hx : x.id = c.id ∧ x.cost = c.cost)
    (hv : v.adm = s.hs.vault.adm ∧ v.wait = s.hs.vault.wait) (hg : ∀ u, (g u).adm = u.adm ∧ (g u).wait = u.wait) :
    s.Admits c (((s.modVault (fun _ => v)).take x).modVault g) := by
  obtain ⟨hid, hcost⟩ := hx
  refine ⟨rfl, Or.inr (congrArg (s.pil.dmp.rsv + ·) hcost), fun k hk => ?_, ?_, fun _ => rfl⟩
  · rw [← hv.1] at hk
    change k ∈ (g _).adm.map (fun c => c.id)
    rw [(hg _).1]
    exact Commit.mem_ids_append x hk
  · change (g _).wait = _
    rw [(hg _).2, ← hid, ← hv.2] <;> rfl

theorem State.Admits.modSlot (h : s.Admits c q) (i : Nat) (f : LogSlot → LogSlot) (hk : c.kind = .slot i) : s.Admits c (q.modSlot i f) :=
  ⟨h.rest, h.rsv, h.ids, h.wait, fun hn => absurd hk (hn i)⟩

theorem State.Admits.denied (h : s.Admits c q) (f : Flue → Flue) : s.Admits c ((q.modFl f).deviceEvent) := h.then rfl rfl rfl

theorem State.Admits.admitLog (s : State) (c : Commit) (h : Hdr) (payload : List Byte) (fl : BitVec 16) (slot : Option Nat)
    (hslot : ∀ i, slot = some i → c.kind = .slot i) : s.Admits c (s.admitLog c h payload fl slot) := by
  unfold State.admitLog
  dsimp only
  refine State.Admits.syncDstate ?_
  cases slot with
  | none =>
    split
    · refine State.Admits.denied ?_ _
      exact .placed s c _ _ _ ⟨rfl, rfl⟩ ⟨rfl, rfl⟩ (fun _ => ⟨rfl, rfl⟩)
    · exact .placed s c _ _ _ ⟨rfl, rfl⟩ ⟨rfl, rfl⟩ (fun _ => ⟨rfl, rfl⟩)
  | some i =>
    split
    · refine State.Admits.denied (State.Admits.modSlot ?_ i _ (hslot i rfl)) _
      exact .placed s c _ _ _ ⟨rfl, rfl⟩ ⟨rfl, rfl⟩ (fun _ => ⟨rfl, rfl⟩)
    · refine State.Admits.modSlot ?_ i _ (hslot i rfl)
      exact .placed s c _ _ _ ⟨rfl, rfl⟩ ⟨rfl, rfl⟩ (fun _ => ⟨rfl, rfl⟩)

theorem State.Admits.admitSeal (s : State) (c : Commit) (no : Nat) : s.Admits c (s.admitSeal c no) :=
  ⟨rfl, Or.inr rfl, fun _ hk => Commit.mem_ids_append _ hk, rfl, fun _ => rfl⟩

theorem State.Admits.admitRec (s : State) (c : Commit) : s.Admits c (s.admitRec c) :=
  ⟨rfl, Or.inr rfl, fun _ hk => Commit.mem_ids_append _ hk, rfl, fun _ => rfl⟩

theorem State.Admits.refuseOdo (s : State) (c : Commit) (cls : Nat) : s.Admits c (s.refuseOdo c cls) := by
  have hun : s.Admits c (s.unwait c) := ⟨rfl, Or.inl rfl, fun _ hk => hk, rfl, fun _ => rfl⟩
  unfold State.refuseOdo
  dsimp only
  split
  · exact ⟨rfl, Or.inl rfl, fun _ hk => hk, rfl, fun _ => rfl⟩
  · split
    · next t _ =>
      obtain ⟨f, hf⟩ := (s.unwait c).finish_frame t 0x16 []
      rw [hf]
      exact hun.then rfl rfl rfl
    · exact hun

theorem State.Admits.admission (s : State) (c : Commit) : s.Admits c (s.admission c) := by
  unfold State.admission
  split
  · next i hk =>
    refine State.Admits.admitLog s c _ _ _ _ (fun j hj => ?_)
    rw [hk, Option.some.inj hj]
  · dsimp only
    split
    · exact .refuseOdo s c _
    · next h0 p0 pilot _ _ =>
      obtain ⟨h, p⟩ := s.pil.ph.fresh h0 p0 pilot
      have hlog := State.Admits.admitLog s c h p h.flags none (fun i hi => nomatch hi)
      refine ⟨?_, hlog.rsv, hlog.ids, hlog.wait, hlog.slots⟩
      refine Eq.trans ?_ hlog.rest
      generalize s.admitLog c h p h.flags none = q
      unfold State.modPh State.offAdm
      dsimp only
      split <;> rfl
  · exact .admitSeal s c _
  · exact (State.Admits.admitRec s c).then rfl (by dsimp only [State.modVault, State.modHs]; split <;> rfl)
      (by dsimp only [State.modVault, State.modHs]; split <;> rfl)
  · exact .admitRec s c

theorem State.Admits.takeIn (s : State) (c : Commit) : s.Admits c (s.takeIn c) :=
  (State.Admits.admission s c).streams (.grab _)

end Admission

end Sys2Proof.Machine
end

section
/-! Power failure and standby (section 10.8, R389). -/

namespace Sys2Proof.Machine

/-! ## Requests -/

/-- The vault without its waiting requests. -/
def Vault.queued (v : Vault) : Vault := { v with wait := [], nextId := 0 }

/-- A commit is a checkpoint of the Pilot. -/
def Commit.isCheckpoint (c : Commit) : Prop := ∃ h p, c.kind = .hw h p true ∧ h.cls = 0x80

section Requests

variable (s : State)

theorem State.submit_queued (k : CKind) (tag : Option Nat) : (s.submit k tag).hs.vault.queued = s.hs.vault.queued ∧
    ∀ x ∈ (s.submit k tag).hs.vault.wait, x ∈ s.hs.vault.wait ∨ x.kind = k := by
  unfold State.submit
  split
  · exact ⟨rfl, fun x hx => Or.inl hx⟩
  · refine ⟨rfl, fun x hx => ?_⟩
    rcases List.mem_append.1 hx with h | h
    · exact Or.inl h
    · rw [List.mem_singleton.1 h]
      exact Or.inr rfl

theorem State.pilotNext_queued : ∀ (n : Nat) (s : State), (s.pilotNext n).hs.vault.queued = s.hs.vault.queued ∧
    ∀ x ∈ (s.pilotNext n).hs.vault.wait, x ∈ s.hs.vault.wait ∨ ∃ h p, (h, p) ∈ s.pil.logQ ∧ x.kind = .hw h p true := by
  intro n
  induction n with
  | zero => exact fun s => ⟨rfl, fun x hx => Or.inl hx⟩
  | succ n ih =>
    intro s
    unfold State.pilotNext
    split
    · next h p rest hq =>
      split
      · obtain ⟨hv, hw⟩ := ih (({ s with pil := { s.pil with logQ := rest } } : State).submit (.hw h p true))
        obtain ⟨hv', hw'⟩ := State.submit_queued ({ s with pil := { s.pil with logQ := rest } } : State) (.hw h p true) none
        obtain ⟨v, hsub⟩ := State.submit_vault ({ s with pil := { s.pil with logQ := rest } } : State) (.hw h p true) none
        refine ⟨hv.trans hv', fun x hx => ?_⟩
        rcases hw x hx with hin | ⟨h2, p2, hmem, hk⟩
        · rcases hw' x hin with hin' | hk
          · exact Or.inl hin'
          · exact Or.inr ⟨h, p, by rw [hq]; exact List.mem_cons_self .., hk⟩
        · rw [hsub] at hmem
          exact Or.inr ⟨h2, p2, by rw [hq]; exact List.mem_cons_of_mem _ hmem, hk⟩
      · exact ⟨rfl, fun x hx => Or.inl hx⟩
    · exact ⟨rfl, fun x hx => Or.inl hx⟩

/-- A checkpoint of a Pilot that holds no log waits, if at all, alone. -/
theorem State.checkpoint_queued (reason : Nat) (hq : s.pil.logQ = []) :
    (s.checkpoint reason).hs.vault.queued = s.hs.vault.queued ∧
    ∀ x ∈ (s.checkpoint reason).hs.vault.wait, x ∈ s.hs.vault.wait ∨ x.isCheckpoint := by
  unfold State.checkpoint
  split
  · obtain ⟨hv, hw⟩ := State.pilotNext_queued (s.pil.logQ.length + 1)
      ({ s with pil := { s.pil with logQ := s.pil.logQ ++ [(s.pil.ph.logHdr 0x80, s.pil.ph.ckPayload reason)] } } : State)
    refine ⟨hv, fun x hx => (hw x hx).imp_right ?_⟩
    rintro ⟨h, p, hmem, hk⟩
    rw [hq] at hmem
    obtain ⟨rfl, rfl⟩ := Prod.mk.inj (List.mem_singleton.1 hmem)
    exact ⟨_, _, hk, rfl⟩
  · exact ⟨rfl, fun x hx => Or.inl hx⟩

end Requests

/-! ## The power-fail sequence (R281) -/

/-- What the judging of the last checkpoint leaves. -/
theorem State.judgeLast_left (s : State) (hw : ∀ x ∈ s.hs.vault.wait, x.isCheckpoint) : s.judgeLast.offAdm = s.offAdm ∧
    (∀ k, k ∈ s.hs.vault.adm.map (fun c => c.id) → k ∈ s.judgeLast.hs.vault.adm.map (fun c => c.id)) ∧
    (∀ x ∈ s.judgeLast.hs.vault.wait, x.isCheckpoint) ∧ s.judgeLast.hs.slots = s.hs.slots := by
  have hself : s.offAdm = s.offAdm ∧ (∀ k, k ∈ s.hs.vault.adm.map (fun c => c.id) → k ∈ s.hs.vault.adm.map (fun c => c.id)) ∧
      (∀ x ∈ s.hs.vault.wait, x.isCheckpoint) ∧ s.hs.slots = s.hs.slots := ⟨rfl, fun _ h => h, hw, rfl⟩
  unfold State.judgeLast
  dsimp only
  split
  · next c l hc =>
    split
    · obtain ⟨hrest, -, hids, hwait, hslots⟩ := State.Admits.takeIn s c
      obtain ⟨h, p, hk, -⟩ := hw c (by rw [hc]; exact List.mem_cons_self ..)
      refine ⟨hrest, hids, fun x hx => ?_, hslots (fun i => by rw [hk]; nofun)⟩
      rw [hwait] at hx
      exact hw x (List.mem_of_mem_filter hx)
    · exact hself
  · exact hself

/-- The state in which the last checkpoint is written: nothing waits, and the open logs are lost. -/
def State.lastGasp (s : State) : State :=
  ({ ((s.loseNotes.modVault (fun v => { v with wait := [] })).loseLogs) with
      pil := { ((s.loseNotes.modVault (fun v => { v with wait := [] })).loseLogs).pil with logQ := [] } } : State).modDmp
    (fun d => { d with pfWarn := true })

/-- The rest of the sequence: what runs is stopped. -/
def State.cutOff (q : State) : State :=
  { ((((q.modSeal (fun e => { e with run := .idle })).modFb (fun f => { f with copies := [], relock := none })).modFl
      (fun f => { f with runs := [] })).modHs (fun h => { h with life := none, chal := { h.chal with waitGet := [] } })).modPw
      (fun p => { p with life := .pfail, plan := none }) with bist := {} }

theorem State.powerFail_eq (s : State) : s.powerFail = ((s.lastGasp.checkpoint 5).judgeLast).cutOff := rfl

/-- What a power failure leaves. -/
theorem State.powerFail_left (s : State) : s.powerFail.pw.life = .pfail ∧ s.powerFail.pw.plan = none ∧ s.powerFail.pil.dmp.pfWarn = true ∧
    (∀ x, x ∈ s.powerFail.hs.vault.wait → x.isCheckpoint) ∧
    (∀ c, c ∈ s.hs.vault.adm → ∃ x, x ∈ s.powerFail.hs.vault.adm ∧ x.id = c.id) ∧ s.powerFail.fl.runs = [] ∧ s.powerFail.fb.copies = [] ∧
    s.powerFail.hs.slots = s.loseLogs.hs.slots := by
  obtain ⟨hv, hw⟩ := s.lastGasp.checkpoint_queued 5 rfl
  have hck : ∀ x ∈ (s.lastGasp.checkpoint 5).hs.vault.wait, x.isCheckpoint := fun x hx =>
    (hw x hx).resolve_left List.not_mem_nil
  obtain ⟨hrest, hids, hwait, hslots⟩ := (s.lastGasp.checkpoint 5).judgeLast_left hck
  obtain ⟨v, q, o, t, a, hframe⟩ := s.lastGasp.checkpoint_frame 5
  have hwarn := congrArg (fun q : State => q.pil.dmp.pfWarn) hrest
  have hadm := congrArg Vault.adm hv
  rw [s.powerFail_eq]
  generalize s.lastGasp.checkpoint 5 = r at hw hck hrest hids hwait hslots hframe hwarn hadm ⊢
  generalize r.judgeLast = r' at hrest hids hwait hslots hwarn ⊢
  refine ⟨rfl, rfl, ?_, hwait, fun c hc => ?_, rfl, rfl, hslots.trans ?_⟩
  · refine Eq.trans hwarn ?_
    rw [hframe] <;> rfl
  · have hmem : c.id ∈ r.hs.vault.adm.map (fun c => c.id) := by
      change r.hs.vault.adm = s.hs.vault.adm at hadm
      rw [hadm]
      exact List.mem_map_of_mem hc
    obtain ⟨x, hx, hid⟩ := List.mem_map.1 (hids _ hmem)
    exact ⟨x, hx, hid⟩
  · rw [hframe] <;> rfl

/-- An open or committing log is lost, another stays (R281). -/
theorem State.loseLogs_slot (s : State) {i : Nat} (hi : i < 64) : s.loseLogs.hs.slots.get i =
    if (s.hs.slots.get i).state = .open_ ∨ (s.hs.slots.get i).state = .committing then
      { gen := (s.hs.slots.get i).gen, freed := (s.hs.slots.get i).freed } else s.hs.slots.get i :=
  Tab.get_map s.hs.slots (fun l : LogSlot => if l.state = .open_ ∨ l.state = .committing then
    ({ gen := l.gen, freed := l.freed } : LogSlot) else l) i hi

theorem Phase.enterStandby_left (p : Phase) : p.enterStandby.course = p.course ∧ p.enterStandby.odo = p.odo := by
  unfold Phase.enterStandby
  dsimp only
  split <;> exact ⟨rfl, rfl⟩

/-- SHUTDOWN is the newest journal record (R281). -/
theorem Hearth.shutdown_last (h : Hearth) : ∃ r, h.shutdown.vault.journal.getLast? = some r ∧ r.ty = .shutdown :=
  ⟨{ ({ ty := .shutdown } : JRec) with jseq := h.vault.jseq, line := h.jLine }, List.getLast?_concat .., rfl⟩

end Sys2Proof.Machine

namespace Sys2Proof

open Machine

/-- Settles O40: a power failure keeps what is admitted and lets its own checkpoint alone wait. -/
theorem powerLoss : Obligations.PowerLoss := by
  unfold Obligations.PowerLoss
  intro s
  refine ⟨?warning, ?unarmed, ?safe, ?planned, ?standby, rfl⟩
  case warning =>
    intro cause hcause
    have hpw : ∀ q : State, q.hs = s.hs → exec (.powerFailWarning cause) s = .next q.powerFail → ∃ s',
        exec (.powerFailWarning cause) s = .next s' ∧ s'.pw.life = .pfail ∧ s'.pw.plan = none ∧ s'.pil.dmp.pfWarn = true ∧
        (∀ x, x ∈ s'.hs.vault.wait → ∃ h p, x.kind = .hw h p true ∧ h.cls = 0x80) ∧
        (∀ c, c ∈ s.hs.vault.adm → ∃ x, x ∈ s'.hs.vault.adm ∧ x.id = c.id) ∧ s'.fl.runs = [] ∧ s'.fb.copies = [] ∧
        (∀ i, i < 64 → let l := s.hs.slots.get i
          (l.state = .open_ ∨ l.state = .committing → (s'.hs.slots.get i).state = .invalid ∧ (s'.hs.slots.get i).gen = l.gen) ∧
          (l.state ≠ .open_ → l.state ≠ .committing → s'.hs.slots.get i = l)) := by
      intro q hhs hrun
      obtain ⟨hlife, hplan, hwarn, hwait, hadm, hruns, hcopies, hslots⟩ := q.powerFail_left
      rw [hhs] at hadm
      refine ⟨_, hrun, hlife, hplan, hwarn, hwait, hadm, hruns, hcopies, fun i hi => ?_⟩
      rw [hslots, q.loseLogs_slot hi, hhs]
      refine ⟨fun h => ?_, fun h1 h2 => if_neg (not_or.2 ⟨h1, h2⟩)⟩
      rw [if_pos h]
      exact ⟨rfl, rfl⟩
    refine hpw (if cause = .rail then s.modPw (fun p => { p with rails := false }) else s) (by split <;> rfl) ?_
    refine congrArg Host.Outcome.next ?_
    dsimp only
    rcases hcause with ⟨hlife, h⟩ | ⟨hlife, h⟩
    · rw [hlife]
      exact if_pos (by simpa using h)
    · rw [hlife]
      exact if_pos (by simpa using h)
  case unarmed =>
    intro hlife harmed
    refine congrArg Host.Outcome.next ?_
    dsimp only
    rcases hlife with h | h
    · rw [h]
      exact if_neg (by rw [harmed]; decide)
    · rw [h, harmed]
      exact if_neg (by simp)
  case safe =>
    intro hlife hwarm hadm
    have hrun : exec .vaultSafe s = .next ((if s.vaultOn then s.modHs Hearth.shutdown else s).resetFlue.modPw
        (fun p => { p with life := .vaultSafe, plan := none, hostWait := false })) := by
      refine congrArg Host.Outcome.next ((if_neg ?_).trans ?_)
      · simp [hlife, hadm]
      · have hplan : (decide (s.pw.life = .running) && decide (s.pw.plan = some 4) && s.hs.vault.wait.isEmpty) = false := by simp [hlife]
        dsimp only
        rw [hplan, if_neg Bool.false_ne_true]
        refine if_neg ?_
        split <;> exact fun h => Bool.false_ne_true (hwarm.symm.trans h)
    refine ⟨_, hrun, rfl, fun hon => ?_⟩
    rw [if_pos hon]
    exact s.hs.shutdown_last
  case planned =>
    intro hlife hplan hwarm hwait hadm
    have hplanned : (decide (s.pw.life = .running) && decide (s.pw.plan = some 4) && s.hs.vault.wait.isEmpty) = true := by
      simp [hlife, hplan, hwait]
    have hrun : exec .vaultSafe s = .next (((if s.vaultOn then s.modHs Hearth.shutdown else s).modWk (fun w => { w with ready := true })).resetFlue.modPw
        (fun p => { p with life := .vaultSafe, plan := none, hostWait := false })) := by
      refine congrArg Host.Outcome.next ((if_neg ?_).trans ?_)
      · rw [hplanned, hadm]
        simp
      · dsimp only
        rw [hplanned, if_pos rfl]
        refine if_neg ?_
        split <;> exact fun h => Bool.false_ne_true (hwarm.symm.trans h)
    exact ⟨_, hrun, rfl, rfl⟩
  case standby =>
    intro hlife
    obtain ⟨hcourse, hodo⟩ := s.pil.ph.enterStandby_left
    exact ⟨_, congrArg Host.Outcome.next (if_pos (hlife.imp_right Or.inl)), rfl, rfl, rfl, hcourse, hodo, rfl⟩

end Sys2Proof
end

section
/-! The Damper (section 10.7). -/

namespace Sys2Proof.Machine

/-- What judging leaves, and what it grants: the ledger stays, or stays within the energy with the reserve (R278). -/
structure State.Judged (s q : State) : Prop where
  rest : q.offAdm = s.offAdm
  rsv : q.pil.dmp.rsv = s.pil.dmp.rsv ∨ q.pil.dmp.rsv + s.pil.dmp.reserve ≤ s.pil.dmp.avail
  ids : ∀ k, k ∈ s.hs.vault.adm.map (fun c => c.id) → k ∈ q.hs.vault.adm.map (fun c => c.id)

section Judging

variable {s q r : State}

theorem State.Judged.refl (s : State) : s.Judged s := ⟨rfl, Or.inl rfl, fun _ h => h⟩

theorem State.Judged.trans (h : s.Judged q) (h' : q.Judged r) : s.Judged r where
  rest := h'.rest.trans h.rest
  rsv := by
    have hres := congrArg (fun x : State => x.pil.dmp.reserve) h.rest
    have hav := congrArg (fun x : State => x.pil.dmp.avail) h.rest
    change q.pil.dmp.reserve = s.pil.dmp.reserve at hres
    change q.pil.dmp.avail = s.pil.dmp.avail at hav
    have h1 := h.rsv
    have h2 := h'.rsv
    rw [hres, hav] at h2
    omega
  ids := fun k hk => h'.ids k (h.ids k hk)

/-- A commit that the energy covers is admitted. -/
theorem State.Judged.takeIn (s : State) (c : Commit) (h : s.pil.dmp.rsv + c.cost + s.pil.dmp.reserve ≤ s.pil.dmp.avail) :
    s.Judged (s.takeIn c) := by
  obtain ⟨hrest, hrsv, hids, -, -⟩ := State.Admits.takeIn s c
  refine ⟨hrest, hrsv.imp_right (fun hr => ?_), hids⟩
  rw [hr]
  exact h

theorem State.Judged.judgeClass : ∀ (l : List Commit) (s : State), s.Judged (s.judgeClass l).1 := by
  intro l
  induction l with
  | nil => exact .refl
  | cons c l ih =>
    intro s
    unfold State.judgeClass
    dsimp only
    split
    · exact .refl s
    · split
      · exact .refl s
      · next h =>
        rw [Bool.or_eq_true, not_or] at h
        have hle : s.pil.dmp.rsv + c.cost + s.pil.dmp.reserve ≤ s.pil.dmp.avail := by
          have hlt := h.2
          rw [decide_eq_true_eq] at hlt
          omega
        exact (State.Judged.takeIn s c hle).trans (ih _)

theorem State.Judged.judgeAll (s : State) : s.Judged s.judgeAll := by
  unfold State.judgeAll
  dsimp only
  split
  · exact .judgeClass _ s
  · split
    · exact (State.Judged.judgeClass _ s).trans (.judgeClass _ _)
    · exact ((State.Judged.judgeClass _ s).trans (.judgeClass _ _)).trans (.judgeClass _ _)

/-- Where nothing may be admitted judging changes nothing. -/
theorem State.judgeClass_of_barred (h : s.mayAdmit = false) (l : List Commit) : (s.judgeClass l).1 = s := by
  cases l with
  | nil => rfl
  | cons c l =>
    unfold State.judgeClass
    dsimp only
    split
    · rfl
    · rw [h]
      exact congrArg Prod.fst (if_pos rfl)

theorem State.judgeAll_of_barred (h : s.mayAdmit = false) : s.judgeAll = s := by
  have hself := State.judgeClass_of_barred h
  unfold State.judgeAll
  dsimp only
  split
  · exact hself _
  · rw [hself]
    split
    · exact hself _
    · rw [hself, hself]

theorem State.mayAdmit_of_unready (h : ¬(s.pil.dmp.huValid = true ∧ s.pil.dmp.hu.c ≠ 0 ∧ s.pil.dmp.armed = true ∧ s.plinkUp = true ∧
    s.hearthUp = true ∧ s.vaultOn = true)) : s.mayAdmit = false := by
  rw [Bool.eq_false_iff]
  intro hmay
  refine h ?_
  simp only [State.mayAdmit, State.vaultTakes, Bool.and_eq_true, decide_eq_true_eq] at hmay
  obtain ⟨⟨⟨⟨⟨⟨⟨⟨⟨⟨⟨hon, -⟩, -⟩, hvalid⟩, hc⟩, harmed⟩, hplink⟩, hhearth⟩, -⟩, -⟩, -⟩, -⟩ := hmay
  exact ⟨hvalid, hc, harmed, hplink, hhearth, hon⟩

/-- The start of a key pair changes neither the ledger nor the vault. -/
theorem State.startKeys_left (s : State) : s.startKeys.pil = s.pil ∧ s.startKeys.hs.vault = s.hs.vault := by
  unfold State.startKeys
  dsimp only
  split <;> exact ⟨rfl, rfl⟩

end Judging

end Sys2Proof.Machine

namespace Sys2Proof

open Machine

/-- Settles O37: what a measurement admits stays within the energy that it has found. -/
theorem damperGrants : Obligations.DamperGrants := by
  unfold Obligations.DamperGrants
  intro s hclk d adm v c energy
  refine ⟨fun code t r hq => ?_, fun hwarn => ?_, fun hwarn => ?_⟩
  · have hrun : exec (.holdSenseConversion code) s = .next
        { ((s.modCap (fun c => { c with adcq := r })).modDmp (fun d => d.conversion code)) with
          bist := s.bist.conversion s.pil.dmp.hu.scale t code } := by
      refine congrArg Host.Outcome.next ?_
      rw [hq]
      exact if_neg (by rw [hclk]; decide)
    refine ⟨_, hrun, rfl, rfl, ?_⟩
    change (d.armed || (d.huValid && decide (d.hu.vfail < code.toNat * d.hu.scale / 1000))) = true ↔ _
    rw [Bool.or_eq_true, Bool.and_eq_true, decide_eq_true_eq]
  · have hrun : exec .damperMeasurement s = .next ((s.modDmp Damper.measure).modDmp (fun d => { d with rsvM := d.rsv })) :=
      congrArg Host.Outcome.next ((if_neg (by rw [hclk]; decide)).trans (if_pos hwarn))
    exact ⟨_, hrun, rfl, rfl, rfl, rfl, rfl⟩
  · obtain ⟨s1, hs1⟩ : ∃ q : State, q = s.modDmp Damper.measure := ⟨_, rfl⟩
    obtain ⟨s3, hs3⟩ : ∃ q : State, q = s1.judgeAll.modDmp (fun d => { d with rsvM := d.rsv }) := ⟨_, rfl⟩
    have hrun : exec .damperMeasurement s = .next (if s3.hs.vault.adm.length = s.hs.vault.adm.length then s3 else s3.startKeys) := by
      rw [hs3, hs1]
      exact congrArg Host.Outcome.next ((if_neg (by rw [hclk]; decide)).trans (if_neg (fun h => Bool.false_ne_true (hwarn.symm.trans h))))
    have hpil : (if s3.hs.vault.adm.length = s.hs.vault.adm.length then s3 else s3.startKeys).pil = s3.pil := by
      split
      · rfl
      · exact s3.startKeys_left.1
    have hvault : (if s3.hs.vault.adm.length = s.hs.vault.adm.length then s3 else s3.startKeys).hs.vault = s3.hs.vault := by
      split
      · rfl
      · exact s3.startKeys_left.2
    obtain ⟨hrest, hrsv, hids⟩ := State.Judged.judgeAll s1
    have hv := congrArg (fun x : State => x.pil.dmp.v) hrest
    have hav := congrArg (fun x : State => x.pil.dmp.avail) hrest
    refine ⟨_, hrun, ?_⟩
    rw [hpil, hvault, hs3]
    refine ⟨hv.trans (by rw [hs1] <;> rfl), hav.trans (by rw [hs1] <;> rfl), rfl, ?_, fun k hk => ?_, fun hun => ?_⟩
    · refine hrsv.imp (fun h => h.trans (by rw [hs1] <;> rfl)) (fun h => ?_)
      change s1.judgeAll.pil.dmp.rsv + _ ≤ s1.judgeAll.pil.dmp.avail
      change s1.judgeAll.pil.dmp.avail = s1.pil.dmp.avail at hav
      rw [hav]
      rw [hs1] at h ⊢
      exact h
    · change k ∈ List.map (fun c : Commit => c.id) _
      rw [← hs3, hvault, hs3]
      exact hids k (by rw [hs1]; exact hk)
    · have hself : s1.judgeAll = s1 := State.judgeAll_of_barred (State.mayAdmit_of_unready (by rw [hs1]; exact hun))
      rw [hself, hs1]
      exact ⟨rfl, rfl⟩

end Sys2Proof
end

section
/-! The start sequence (section 14.1). -/

namespace Sys2Proof.Machine

/-! ## Lane frames (R362) -/

/-- A frame as the OTP controller sends it reads as its GEN and its payload. -/
theorem goodFrame_laneFrame (lane n : Nat) (hl : lane < 16) (gen : Byte) (pay : List W32) (hn : pay.length = n) (hn' : n < 256) :
    goodFrame lane n (laneFrame lane gen pay) = some (gen, pay) := by
  have hg := gen.isLt
  have hbound : 0xB4 + lane * 2 ^ 8 + gen.toNat * 2 ^ 12 + pay.length * 2 ^ 20 < 2 ^ 32 := by omega
  have hval : (BitVec.ofNat 32 (0xB4 + lane * 2 ^ 8 + gen.toNat * 2 ^ 12 + pay.length * 2 ^ 20)).toNat =
      0xB4 + lane * 2 ^ 8 + gen.toNat * 2 ^ 12 + pay.length * 2 ^ 20 := by
    rw [BitVec.toNat_ofNat]
    exact Nat.mod_eq_of_lt hbound
  have hf : ∀ lo k, fieldN (BitVec.ofNat 32 (0xB4 + lane * 2 ^ 8 + gen.toNat * 2 ^ 12 + pay.length * 2 ^ 20)) lo k =
      ((0xB4 + lane * 2 ^ 8 + gen.toNat * 2 ^ 12 + pay.length * 2 ^ 20) / 2 ^ lo) % 2 ^ k := fun lo k => by rw [fieldN, hval]
  have htake : (pay ++ [crc32 (((BitVec.ofNat 32 (0xB4 + lane * 2 ^ 8 + gen.toNat * 2 ^ 12 + pay.length * 2 ^ 20) :: pay).map
      (fun w => leBytes 4 w.toNat)).flatten)]).take n = pay := by
    rw [← hn, List.take_left]
  unfold laneFrame goodFrame
  dsimp only [List.cons_append]
  rw [htake, hf, hf, hf, hf, if_pos]
  · refine congrArg some (Prod.ext ?_ rfl)
    refine BitVec.eq_of_toNat_eq ?_
    rw [BitVec.toNat_ofNat]
    dsimp only
    omega
  · refine ⟨?_, ?_, ?_, ?_, List.getLast?_concat ..⟩
    · rw [List.length_append, hn] <;> rfl
    all_goals omega

/-! ## Steps that end in others (R369, R377, R384) -/

section Steps

variable (s : State)

theorem Hearth.openSecrets_left (h : Hearth) : ∃ e, h.openSecrets = { h with se := e } := by
  unfold Hearth.openSecrets
  split
  · split
    · exact ⟨_, rfl⟩
    · exact ⟨h.se, rfl⟩
  · exact ⟨h.se, rfl⟩

/-- S6 follows S3 and S5. -/
theorem State.deriveWhenReady_left : s.deriveWhenReady.pw = { s.pw with start := { s.pw.start with s6 := s.pw.start.s6 || (s.pw.start.s3 && s.pw.start.s5) } } ∧
    s.deriveWhenReady.hs.otp = s.hs.otp ∧ s.deriveWhenReady.pil = s.pil ∧
    (s.pw.start.s3 = true → s.pw.start.s5 = true → s.pw.start.s6 = false → s.deriveWhenReady.hs.keys = s.hs.otp.deriveKeys) := by
  unfold State.deriveWhenReady
  dsimp only
  split
  · next h =>
    rw [Bool.and_eq_true, Bool.and_eq_true] at h
    obtain ⟨⟨h3, h5⟩, -⟩ := h
    obtain ⟨e, he⟩ := Hearth.openSecrets_left { s.hs with keys := s.hs.otp.deriveKeys }
    have hopen : s.modHs (fun h => ({ h with keys := h.otp.deriveKeys } : Hearth).openSecrets) =
        { s with hs := { s.hs with keys := s.hs.otp.deriveKeys, se := e } } := congrArg (fun x => ({ s with hs := x } : State)) he
    have hsix : (s.pw.start.s6 || (s.pw.start.s3 && s.pw.start.s5)) = true := by rw [h3, h5, Bool.and_self, Bool.or_true]
    rw [hopen, hsix]
    generalize s.hs.otp.deriveKeys = keys
    exact ⟨rfl, rfl, rfl, fun _ _ _ => rfl⟩
  · next h =>
    have hsix : (s.pw.start.s6 || (s.pw.start.s3 && s.pw.start.s5)) = s.pw.start.s6 := by
      cases h3 : s.pw.start.s3 <;> cases h5 : s.pw.start.s5 <;> cases h6 : s.pw.start.s6 <;> simp_all
    rw [hsix]
    exact ⟨rfl, rfl, rfl, fun h3 h5 h6 => absurd (by rw [h3, h5, h6]; rfl) h⟩

theorem State.bootWhenReady_left : s.bootWhenReady.pw = s.pw ∧ s.bootWhenReady.hs = s.hs := by
  unfold State.bootWhenReady
  dsimp only
  split
  · split
    · next c _ =>
      obtain ⟨f, h, -⟩ := (s.modTh (BitVec.ofNat 4 c) 0 Thread.boot).fetchLine_frame (BitVec.ofNat 4 c) 0
      rw [h]
      exact ⟨rfl, rfl⟩
    · exact ⟨rfl, rfl⟩
  · exact ⟨rfl, rfl⟩

theorem Otp.pulses_done (bits : Nat → BitVec 39) (o : FuseShot) (t : Otp) (l : List Nat) :
    (l.foldl (fun (u : Otp) w => u.pulse w (bits w) o) t).done = t.done :=
  List.foldlRecOn l _ (motive := fun u : Otp => u.done = t.done) rfl (fun _ h _ _ => h)

theorem Otp.startRead_left (t : Otp) (o : FuseShot) : (t.startRead o).done = true ∧
    (o.vfuse = false → (t.startRead o).norm = t.norm ∧ (t.startRead o).strict = t.strict) := by
  unfold Otp.startRead
  dsimp only
  split
  · next h => exact ⟨Otp.pulses_done _ o _ _, fun hv => absurd (hv.symm.trans h) Bool.false_ne_true⟩
  · exact ⟨rfl, fun _ => ⟨rfl, rfl⟩⟩

/-- PLCLK starts at the capture side. -/
theorem State.captureStart_left : s.captureStart.pw = s.pw ∧ s.captureStart.pil.ph = s.pil.ph := by
  unfold State.captureStart
  dsimp only
  exact List.foldlRecOn (List.range 4) _ (motive := fun q : State => q.pw = s.pw ∧ q.pil.ph = s.pil.ph) ⟨rfl, rfl⟩ (fun _ h _ _ => h)

/-- The lanes' users take what they hold; the lanes themselves see no frame in it. -/
theorem State.adoptLanes_left : s.adoptLanes.hs.lanes.f = s.hs.lanes.f ∧ s.adoptLanes.hs.lanes.p = s.hs.lanes.p := by
  unfold State.adoptLanes
  dsimp only
  split <;> split <;> exact ⟨rfl, rfl⟩

theorem State.rightsFrom_lanes (old : State) : (s.rightsFrom old).hs.lanes = s.hs.lanes := by
  unfold State.rightsFrom
  split
  · rfl
  · have h := congrArg (fun q : State => q.hs.lanes) s.endRights_shell
    exact h

/-! ## Recovery (R268) -/

/-- The vault without what closing a cord changes. -/
def Vault.corded (v : Vault) : Vault := { v with logs := [], fault := false, wait := [], nextId := 0 }

theorem State.submit_corded (k : CKind) (tag : Option Nat) : (s.submit k tag).hs.vault.corded = s.hs.vault.corded ∧
    (s.submit k tag).hs.se = s.hs.se := by
  unfold State.submit
  split <;> exact ⟨rfl, rfl⟩

theorem State.syncDstate_hs : s.syncDstate.hs = s.hs := by
  unfold State.syncDstate
  split <;> rfl

theorem State.closeCord_corded (r : CReason) : (s.closeCord r).hs.vault.corded = s.hs.vault.corded ∧
    (s.closeCord r).hs.se.waiting = s.hs.se.waiting := by
  unfold State.closeCord
  dsimp only
  rw [State.syncDstate_hs]
  obtain ⟨h, h'⟩ := State.submit_corded _ _ _
  exact ⟨h.trans rfl, (congrArg SealSt.waiting h').trans rfl⟩

/-- Where no leaf waits, cords are closed and leave no journal record. -/
theorem State.pump_corded : ∀ (n : Nat) (s : State), s.hs.se.waiting = [] → (s.pump n).hs.vault.corded = s.hs.vault.corded := by
  intro n
  induction n with
  | zero => exact fun _ _ => rfl
  | succ n ih =>
    intro s hw
    unfold State.pump
    dsimp only
    split
    · next r _ =>
      split
      · obtain ⟨hv, hwait⟩ := s.closeCord_corded r
        exact (ih _ (hwait.trans hw)).trans hv
      · rw [hw]
    · split
      · exact ih _ hw
      · rw [hw]

theorem State.reindex_corded : s.reindex.hs.vault.corded = s.hs.vault.corded ∧ s.reindex.hs.se = s.hs.se := by
  refine List.foldlRecOn (motive := fun q : State => q.hs.vault.corded = s.hs.vault.corded ∧ q.hs.se = s.hs.se) s.hs.se.queue _ ⟨rfl, rfl⟩ ?_
  intro q hq c _
  split
  · exact hq
  · obtain ⟨h, h'⟩ := q.submit_corded (.index c.no) none
    exact ⟨h.trans hq.1, h'.trans hq.2⟩

theorem State.trySwitch_corded : s.trySwitch.hs.vault.corded = s.hs.vault.corded ∧ s.trySwitch.hs.se = s.hs.se := by
  unfold State.trySwitch
  dsimp only
  split
  · exact s.submit_corded _ _
  · exact ⟨rfl, rfl⟩

/-- What follows a recovery leaves the vault but for the cords of its logs and new requests. -/
theorem State.recovered_corded (hw : s.hs.se.waiting = []) :
    ((s.reindex.trySwitch.cords).syncDstate).hs.vault.corded = s.hs.vault.corded := by
  obtain ⟨h1, e1⟩ := s.reindex_corded
  obtain ⟨h2, e2⟩ := s.reindex.trySwitch_corded
  rw [State.syncDstate_hs]
  exact ((State.pump_corded _ _ ((congrArg SealSt.waiting (e2.trans e1)).trans hw)).trans h2).trans h1

/-- A torn commit counts. -/
theorem State.tearCommit_torn (c : Commit) : (s.tearCommit c).hs.vault.torn =
    if c.begun then satInc s.hs.vault.torn else s.hs.vault.torn := by
  have hleft := congrArg Vault.torn (s.hs.jputH_left (s.hs.jOf .torn c) s.hs.vault.jhd).1
  change (s.hs.jput (s.hs.jOf .torn c)).vault.torn = s.hs.vault.torn at hleft
  have hkind : ∀ q : State, (match c.kind with
      | .sealRec no => (q.modSeal (fun e => { e with queue := e.queue.map (fun (x : Cord) => if x.no = no then { x with released := false } else x) })).modVault
          (fun v => { v with seals := v.seals.filter (fun x => x.cord ≠ no || x.durable) })
      | _ => q).hs.vault.torn = q.hs.vault.torn := by
    intro q
    split <;> rfl
  refine (hkind _).trans ?_
  split
  · exact congrArg satInc hleft
  · rfl

theorem State.tearCommits_torn : s.tearCommits.hs.vault.torn =
    (s.hs.vault.adm.filter (·.begun)).foldl (fun n _ => satInc n) s.hs.vault.torn := by
  have h : ∀ (l : List Commit) (q : State), (l.foldl State.tearCommit q).hs.vault.torn =
      (l.filter (·.begun)).foldl (fun n _ => satInc n) q.hs.vault.torn := by
    intro l
    induction l with
    | nil => exact fun _ => rfl
    | cons c l ih =>
      intro q
      rw [List.foldl_cons, ih, State.tearCommit_torn, List.filter_cons]
      split <;> rfl
  exact h _ s

end Steps

/-! ## The Pilot's load (R378) -/

theorem satAdd_zero {w : Nat} (x : BitVec w) : satAdd x 0 = x := by
  refine BitVec.eq_of_toNat_eq ?_
  have := x.isLt
  rw [toNat_satAdd, Nat.add_zero, Nat.min_eq_right (by omega)]

/-- Where no tooth is pending the odometer keeps its value. -/
theorem Phase.applyPending_of_none (p : Phase) (hp : p.pending = 0) (hr : p.rem < 100000) :
    p.applyPending.odo = p.odo ∧ p.applyPending.rem = p.rem := by
  have hum : p.rem + p.pending.toNat * p.scale = p.rem := by
    rw [hp]
    exact Nat.zero_mul p.scale ▸ rfl
  unfold Phase.applyPending
  split
  · unfold Phase.addUm
    dsimp only
    rw [hum, Nat.div_eq_of_lt hr, Nat.mod_eq_of_lt hr, satAdd_zero]
    exact ⟨rfl, rfl⟩
  · exact ⟨rfl, rfl⟩

theorem Phase.applyPending_odoValid (p : Phase) : p.applyPending.odoValid = p.odoValid := by
  unfold Phase.applyPending
  split <;> rfl

theorem Phase.startLoad_odo (p : Phase) (cells : Tab Cell 16) (base rem : Nat) : (p.startLoad cells base rem).odoValid = true ∧
    (p.odoValid = false → p.pending = 0 → rem < 100000 →
      (p.startLoad cells base rem).odo = BitVec.ofNat 48 base ∧ (p.startLoad cells base rem).rem = rem) := by
  unfold Phase.startLoad
  dsimp only
  rw [Phase.applyPending_odoValid]
  refine ⟨?_, fun hv hp hr => ?_⟩
  · split
    · assumption
    · rfl
  · have hv' : (p.configure cells false).odoValid = false := hv
    rw [if_neg (fun h => Bool.false_ne_true (hv'.symm.trans h))]
    exact Phase.applyPending_of_none _ hp hr

end Sys2Proof.Machine
end

section
/-! The steps of the start (Table 14.1). -/

namespace Sys2Proof.Machine

theorem State.hearPilot_self (s : State) (h : s.pil.msgs = []) : s.hearPilot = s := by
  unfold State.hearPilot
  rw [h]
  have hpil : ({ s.pil with ph := s.pil.ph, msgs := [] } : Pilot) = s.pil := by rw [← h]
  exact congrArg (fun p : Pilot => ({ s with pil := p } : State)) hpil

/-- The Pilot's load from here: the configuration and the base, the mirror and the checkpoint (R378). -/
def State.pilotLoaded (s1 : State) (cells : Tab Cell 16) (base rem reason : Nat) : State :=
  (((s1.modPh (fun p => p.startLoad cells base rem)).syncMirror).checkpoint reason).modWk (fun w => { w with req := false })

theorem State.pilotLoaded_left (s1 : State) (cells : Tab Cell 16) (base rem reason : Nat) :
    (s1.pilotLoaded cells base rem reason).pw = s1.pw ∧
    (s1.pilotLoaded cells base rem reason).pil.ph.odoValid = (s1.pil.ph.startLoad cells base rem).odoValid ∧
    (s1.pilotLoaded cells base rem reason).pil.ph.odo = (s1.pil.ph.startLoad cells base rem).odo ∧
    (s1.pilotLoaded cells base rem reason).pil.ph.rem = (s1.pil.ph.startLoad cells base rem).rem := by
  unfold State.pilotLoaded
  obtain ⟨m, hm⟩ := (s1.modPh (fun p => p.startLoad cells base rem)).syncMirror_frame
  rw [hm]
  obtain ⟨v, q, o, t, a, hck⟩ := ((s1.modPh (fun p => p.startLoad cells base rem)).modFb (fun f => { f with mir := m })).checkpoint_frame reason
  rw [hck]
  exact ⟨rfl, rfl, rfl, rfl⟩

/-- The steps of a start may run once S2 is done. -/
theorem State.stepsRun_of (s : State) (hl : s.pw.life = .starting) (hw : s.pw.hostWait = false) (h2 : s.pw.start.s2 = true) : s.stepsRun = true := by
  rw [State.stepsRun, hl, hw, h2] <;> rfl

/-- A lane's user sees the words of a frame. -/
def State.frameSeen (s : State) (l : Lane) (words : List W32) : State :=
  match l with
  | .f => s.modHs (fun h => { h with lanes := { h.lanes with f := h.lanes.f.see (goodFrame 0 10 words) } })
  | .p => s.modHs (fun h => { h with lanes := { h.lanes with p := h.lanes.p.see (goodFrame 1 12 words) } })

/-- What is held is adopted, and S4 ends once both lanes are. -/
def State.frameTaken (s s1 : State) : State :=
  let s2 := s1.adoptLanes.rightsFrom s
  if s2.hs.lanes.coreMask.isSome && s2.hs.lanes.p.held.isSome && s2.pw.life = .starting && !s2.pw.start.s4 then
    (s2.modPw (fun p => { p with start := { p.start with s4 := true } })).bootWhenReady
  else s2

theorem State.frameTaken_lanes (s s1 : State) : (s.frameTaken s1).hs.lanes = s1.adoptLanes.hs.lanes := by
  have hr := s1.adoptLanes.rightsFrom_lanes s
  unfold State.frameTaken
  dsimp only
  generalize s1.adoptLanes.rightsFrom s = s2 at hr ⊢
  split
  · rw [(s2.modPw (fun p => { p with start := { p.start with s4 := true } })).bootWhenReady_left.2]
    exact hr
  · exact hr

/-- A frame in a start, after the start read. -/
theorem exec_fuseFrame {s : State} {l : Lane} (errs : List W32) (hlife : s.pw.life = .starting) (hwait : s.pw.hostWait = false)
    (h2 : s.pw.start.s2 = true) (h3 : s.pw.start.s3 = true) (hsent : s.sentFrame l ≠ []) :
    exec (.fuseFrame l errs) s = .next (s.frameTaken (s.frameSeen l (withErrors (s.sentFrame l) errs))) := by
  refine congrArg Host.Outcome.next ?_
  change (if (!_ || _) = true then s else s.frameTaken (s.frameSeen l (withErrors (s.sentFrame l) errs))) = _
  rw [hlife, s.stepsRun_of hlife hwait h2, h3, decide_eq_false hsent]
  refine if_neg ?_
  decide

/-- The lane's user after a frame. -/
theorem LaneUser.see_some (u : LaneUser) (x : Byte × List W32) : (u.see (some x)).lastGood = some x ∧
    (u.lastGood = some x → (u.see (some x)).held = some x) ∧
    (∀ y, u.lastGood ≠ some x → u.held = some y → (u.see (some x)).held = if y.1 = x.1 ∧ y.2 ≠ x.2 then none else some y) := by
  unfold LaneUser.see
  dsimp only
  split
  · next h => exact ⟨rfl, fun _ => rfl, fun y hn => absurd h hn⟩
  · next h =>
    refine ⟨?_, fun hx => absurd hx h, fun y _ hy => ?_⟩
    · split <;> rfl
    · rw [hy]

end Sys2Proof.Machine

namespace Sys2Proof

open Machine

/-- Settles O42: each start step that is due completes and leaves what its row of Table 14.1 says. -/
theorem startSteps : Obligations.StartSteps := by
  unfold Obligations.StartSteps
  refine ⟨fun gen pay => ⟨fun h => goodFrame_laneFrame 0 10 (by decide) gen pay h (by decide),
    fun h => goodFrame_laneFrame 1 12 (by decide) gen pay h (by decide)⟩, ?_⟩
  intro s st hlife hwait
  refine ⟨?lock, ?release, ?read, ?sweep, ?frame, ?recovery, ?pilot, ?rom⟩
  case lock =>
    intro h1
    have hrun : exec .pllLock s = .next ((s.modPh Phase.plclkStart).captureStart.modPw (fun p => { p with start := { p.start with s1 := true } })) :=
      congrArg Host.Outcome.next (if_pos (by rw [hlife, show s.pw.start.s1 = false from h1]; decide))
    obtain ⟨hpw, hph⟩ := (s.modPh Phase.plclkStart).captureStart_left
    refine ⟨_, hrun, ?_, ?_, fun i hi => ?_⟩
    · change ({ ((s.modPh Phase.plclkStart).captureStart).pw.start with s1 := true } : Start) = _
      rw [hpw] <;> rfl
    · exact congrArg Phase.crk hph
    · have hang := Tab.get_map s.pil.ph.ang
        (fun a : AngIn => ({ a with lastTr := none, lastTooth := none, tprev := none, stopped := true, pulse := none } : AngIn)) i hi
      have hstop := congrArg AngIn.stopped hang
      change ((((s.modPh Phase.plclkStart).captureStart).pil.ph).ang.get i).stopped = true
      rw [hph]
      exact hstop
  case release =>
    intro h1 h2 hrails
    have hrun : exec .resetRelease s = .next (s.modPw (fun p => { p with start := { p.start with s2 := true } })).linkStart.syncMirror :=
      congrArg Host.Outcome.next (if_pos (by rw [hlife, show s.pw.start.s1 = true from h1, show s.pw.start.s2 = false from h2, hrails]; decide))
    obtain ⟨m, hm⟩ := (s.modPw (fun p => { p with start := { p.start with s2 := true } })).linkStart.syncMirror_frame
    have hon : (s.modPw (fun p => { p with start := { p.start with s2 := true } })).fireOn = true := by
      change (match s.pw.life with | .running => true | .starting => true | _ => false) = true
      rw [hlife]
    refine ⟨_, hrun, ?_⟩
    rw [hm]
    cases hp : s.pw.perst with
    | true =>
      have hself : (s.modPw (fun p => { p with start := { p.start with s2 := true } })).linkStart =
          s.modPw (fun p => { p with start := { p.start with s2 := true } }) := if_neg (by
        rw [show (s.modPw (fun p => { p with start := { p.start with s2 := true } })).pw.perst = true from hp, Bool.not_true, Bool.false_and]
        exact Bool.false_ne_true)
      rw [hself, Bool.not_true, Bool.or_false]
      exact ⟨rfl, fun h => absurd h (by decide)⟩
    | false =>
      have hfree := State.linkStart_of_free (s.modPw (fun p => { p with start := { p.start with s2 := true } })) hp hon
      rw [hfree, Bool.not_false, Bool.or_true]
      exact ⟨rfl, fun _ => rfl⟩
  case read =>
    intro o h2 h3
    have hrun : exec (.otpStartReadDone o) s = .next ((((s.modHs (fun h => { h with otp := h.otp.startRead o })).laneSync.modPw
        (fun p => { p with start := { p.start with s3 := true } })).deriveWhenReady)) :=
      congrArg Host.Outcome.next (if_pos (by rw [s.stepsRun_of hlife hwait h2, show s.pw.start.s3 = false from h3]; rfl))
    obtain ⟨hpw, hotp, -, -⟩ := State.deriveWhenReady_left ((s.modHs (fun h => { h with otp := h.otp.startRead o })).laneSync.modPw
      (fun p => { p with start := { p.start with s3 := true } }))
    have hleft := s.hs.otp.startRead_left o
    refine ⟨_, hrun, (congrArg Power.start hpw).trans ?_, (congrArg Otp.done hotp).trans hleft.1, fun hv => ⟨?_, ?_⟩⟩
    · exact congrArg (fun b => ({ st with s3 := true, s6 := st.s6 || b } : Start)) (Bool.true_and st.s5)
    · exact (congrArg Otp.norm hotp).trans (hleft.2 hv).1
    · exact (congrArg Otp.strict hotp).trans (hleft.2 hv).2
  case sweep =>
    intro h2 h5
    have hrun : exec .sweepDone s = .next ((s.modPw (fun p => { p with start := { p.start with s5 := true } })).deriveWhenReady.bootWhenReady) :=
      congrArg Host.Outcome.next (if_pos (by rw [s.stepsRun_of hlife hwait h2, show s.pw.start.s5 = false from h5]; rfl))
    obtain ⟨hpw, -, -, hkeys⟩ := State.deriveWhenReady_left (s.modPw (fun p => { p with start := { p.start with s5 := true } }))
    obtain ⟨hpw', hhs'⟩ := (s.modPw (fun p => { p with start := { p.start with s5 := true } })).deriveWhenReady.bootWhenReady_left
    refine ⟨_, hrun, ?_, fun h3 h6 => ?_⟩
    · rw [hpw', hpw]
      exact congrArg (fun b => ({ st with s5 := true, s6 := st.s6 || b } : Start)) (Bool.and_true st.s3)
    · rw [hhs']
      exact hkeys h3 rfl h6
  case frame =>
    intro l errs x h2 h3 hsent hgood lane
    have hlane : lane (s.frameTaken (s.frameSeen l (withErrors (s.sentFrame l) errs))).hs = (lane s.hs).see (some x) := by
      obtain ⟨hf, hp⟩ := (s.frameSeen l (withErrors (s.sentFrame l) errs)).adoptLanes_left
      have hlanes := s.frameTaken_lanes (s.frameSeen l (withErrors (s.sentFrame l) errs))
      rw [← hgood]
      cases l with
      | f => exact (congrArg Lanes.f hlanes).trans hf
      | p => exact (congrArg Lanes.p hlanes).trans hp
    obtain ⟨hlast, hheld, hother⟩ := (lane s.hs).see_some x
    refine ⟨_, exec_fuseFrame errs hlife hwait h2 h3 hsent, ?_, fun h => ?_, fun y hn hy => ?_⟩
    · rw [hlane]; exact hlast
    · rw [hlane]; exact hheld h
    · rw [hlane]; exact hother y hn hy
  case recovery =>
    intro nb h3 h7 hkind
    obtain ⟨s1, hs1⟩ : ∃ q : State, q = (if nb then s.badNewest else s).tearCommits := ⟨_, rfl⟩
    obtain ⟨clean, hclean⟩ : ∃ b : Bool, b = (!nb && (match s.hs.vault.journal.getLast? with | some r => decide (r.ty = .shutdown) | none => true)) :=
      ⟨_, rfl⟩
    obtain ⟨s2, hs2⟩ : ∃ q : State, q = (s1.modVault (fun v =>
        { v with hd := v.jhd, wait := [], adm := [], cur := none, goneL := [], goneS := [], retiring := [],
                 spares := v.spares + v.retiring.length, unclean := !clean })).modHs Hearth.jheads := ⟨_, rfl⟩
    obtain ⟨s3, hs3⟩ : ∃ q : State, q = (((s2.modVault (fun v => { v with logs := v.logs.map s2.hs.se.unseal })).modSeal SealSt.recover).modPw
        (fun p => { p with start := { p.start with s7 := true } })) := ⟨_, rfl⟩
    have hrun : exec (.vaultRecovery nb) s = .next (s3.reindex.trySwitch.cords.syncDstate) := by
      rw [hs3, hs2, hs1, hclean]
      refine congrArg Host.Outcome.next (if_neg ?_)
      rw [State.startOn, hlife, hwait, show s.pw.start.s3 = true from h3, show s.pw.start.s7 = false from h7, decide_eq_true hkind]
      decide
    have hcorded : (s3.reindex.trySwitch.cords.syncDstate).hs.vault.corded = s3.hs.vault.corded := s3.recovered_corded (by rw [hs3]; rfl)
    have hpw : (s3.reindex.trySwitch.cords.syncDstate).pw = s3.pw := by
      have h : (s3.reindex.trySwitch.cords.syncDstate).offVault = s3.offVault := by simp
      have hpw := congrArg State.pw h
      exact hpw
    have hheads := Hearth.jheads_left (s1.modVault (fun v =>
        { v with hd := v.jhd, wait := [], adm := [], cur := none, goneL := [], goneS := [], retiring := [],
                 spares := v.spares + v.retiring.length, unclean := !clean })).hs
    have hv2 : s2.hs = (s1.modVault (fun v =>
        { v with hd := v.jhd, wait := [], adm := [], cur := none, goneL := [], goneS := [], retiring := [],
                 spares := v.spares + v.retiring.length, unclean := !clean })).hs.jheads := by rw [hs2] <;> rfl
    have hadm := congrArg Vault.adm hheads.1
    have htorn := congrArg Vault.torn hheads.1
    have hunclean := congrArg Vault.unclean hheads.1
    have hlast : ∃ r, s2.hs.vault.journal.getLast? = some r ∧ r.ty = .heads := by
      rw [hv2]
      exact ⟨_, List.getLast?_concat .., rfl⟩
    rw [← hv2] at hadm htorn hunclean
    have hv3 : s3.hs.vault.adm = s2.hs.vault.adm ∧ s3.hs.vault.torn = s2.hs.vault.torn ∧ s3.hs.vault.unclean = s2.hs.vault.unclean ∧
        s3.hs.vault.journal = s2.hs.vault.journal ∧ s3.pw.start.s7 = true := by
      rw [hs3]
      exact ⟨rfl, rfl, rfl, rfl, rfl⟩
    obtain ⟨hadm3, htorn3, hunclean3, hjournal3, hseven⟩ := hv3
    refine ⟨_, hrun, (congrArg (fun p : Power => p.start.s7) hpw).trans hseven, ?_, fun hnb => ?_, fun hnb => ?_, ?_⟩
    · have h := congrArg Vault.adm hcorded
      exact (h.trans hadm3).trans (List.map_eq_nil_iff.1 hadm)
    · have h := congrArg Vault.torn hcorded
      refine (h.trans htorn3).trans (htorn.trans ?_)
      rw [hs1, hnb]
      exact s.tearCommits_torn
    · have h := congrArg Vault.unclean hcorded
      refine (h.trans hunclean3).trans (hunclean.trans ?_)
      change (!clean) = true
      rw [hclean, hnb] <;> rfl
    · have h := congrArg Vault.journal hcorded
      rw [show (s3.reindex.trySwitch.cords.syncDstate).hs.vault.journal = s2.hs.vault.journal from h.trans hjournal3]
      exact hlast
  case pilot =>
    intro h7 h8 hkind
    obtain ⟨s1, hs1⟩ : ∃ q : State, q = s.modPw (fun p => { p with start := { p.start with s8 := true } }) := ⟨_, rfl⟩
    obtain ⟨s1', hs1'⟩ : ∃ q : State, q = if s1.plinkUp then s1.hearPilot else s1 := ⟨_, rfl⟩
    obtain ⟨cells, hcells⟩ : ∃ c : Tab Cell 16, c = match (if s.hs.vault.recSpoilt 0 then none else s.hs.vault.phaseRec) with
      | some l => Vector.ofFn (fun i => l.getD i.val 0)
      | none => s1'.pil.ph.cfg := ⟨_, rfl⟩
    have hrun : exec .pilotStartLoad s = .next (s1'.pilotLoaded cells s.hs.vault.odoBest s.hs.vault.remBest (if s.pil.wk.req then 4 else 6)) := by
      rw [hcells, hs1', hs1]
      refine congrArg Host.Outcome.next ((if_neg ?_).trans (if_neg hkind))
      rw [State.startOn, hlife, show s.pw.start.s7 = true from h7, show s.pw.start.s8 = false from h8]
      decide
    obtain ⟨hpw, hvalid, hodo, hrem⟩ := s1'.pilotLoaded_left cells s.hs.vault.odoBest s.hs.vault.remBest (if s.pil.wk.req then 4 else 6)
    have hload := s1'.pil.ph.startLoad_odo cells s.hs.vault.odoBest s.hs.vault.remBest
    refine ⟨_, hrun, ?_, hvalid.trans hload.1, fun hmsgs hodov hpend hbest => ?_⟩
    · rw [hpw, hs1', hs1]
      split <;> rfl
    · have hself : s1' = s1 := by
        rw [hs1']
        split
        · exact s1.hearPilot_self (by rw [hs1]; exact hmsgs)
        · rfl
      obtain ⟨h1, h2⟩ := hload.2 (by rw [hself, hs1]; exact hodov) (by rw [hself, hs1]; exact hpend) hbest
      exact ⟨hodo.trans h1, hrem.trans h2⟩
  case rom =>
    intro h2 h4 h5 h6 h7
    have hready : (decide (s.pw.life = .starting) && st.s2 && st.s4 && st.s5 && (!installState s.fLife || (st.s6 && (decide (st.kind = .host) || st.s7)))) = true := by
      rw [hlife, h2, h4, h5, h6, h7]
      simp
    have hends : ∀ q : State, q.bootEnds.syncDstate.pw = q.bootEnds.pw ∧ q.bootEnds.syncDstate.pil = q.bootEnds.pil := by
      intro q
      unfold State.syncDstate
      split <;> exact ⟨rfl, rfl⟩
    have hstep : ∃ q : State, exec .bootRom s = .next q.bootEnds ∨ exec .bootRom s = .next q.bootEnds.syncDstate := by
      have hun : exec .bootRom s = .next (match s.bootCore, s.pw.plan with
          | none, _ => s.bootEnds
          | some c, some _ => _
          | some c, none => _) := congrArg Host.Outcome.next (if_neg (by rw [hready]; decide))
      rw [hun]
      split
      · exact ⟨_, Or.inl rfl⟩
      · exact ⟨_, Or.inl rfl⟩
      · exact ⟨_, Or.inr rfl⟩
    obtain ⟨q, h | h⟩ := hstep
    · exact ⟨_, h, rfl, rfl, rfl⟩
    · refine ⟨_, h, ?_⟩
      rw [(hends q).1, (hends q).2]
      exact ⟨rfl, rfl, rfl⟩

end Sys2Proof
end

section
/-! What follows a durable commit leaves: the other commits and their credits, what the records hold, and every log that no other write
goes over. -/

namespace Sys2Proof.Machine

/-- What a record in the vault says of the cord time, the tokens, the marks and the image floor. -/
def Vault.recorded (v : Vault) : Nat × Option Nat × Tab Marks 4 × Nat := (v.cordMs, v.tokenMax, v.marks, v.svnImg)

/-- What follows a durable commit leaves. -/
structure State.Settles (s q : State) : Prop where
  adm : q.hs.vault.adm.map Commit.still = s.hs.vault.adm.map Commit.still
  rsv : q.pil.dmp.rsv = s.pil.dmp.rsv
  kept : q.hs.vault.recorded = s.hs.vault.recorded
  leaf : q.hs.se.nextLeaf = s.hs.se.nextLeaf
  logs : ∀ l ∈ s.hs.vault.logs, s.hs.vault.apart l →
    ∃ y ∈ q.hs.vault.logs, y.seq = l.seq ∧ y.at_ = l.at_ ∧ (l.durable = true → y.durable = true)

section Rules

variable {s q r : State}

theorem Vault.apart_of_adm {v u : Vault} (h : u.adm.map Commit.still = v.adm.map Commit.still) {l y : VLog} (hs : y.seq = l.seq)
    (hat : y.at_ = l.at_) (ha : v.apart l) : u.apart y := by
  intro x hx hseq
  have hmem : x.still ∈ v.adm.map Commit.still := by
    rw [← h]
    exact List.mem_map_of_mem hx
  obtain ⟨z, hz, hzx⟩ := List.mem_map.1 hmem
  have hzs := congrArg Commit.seq hzx
  have hza := congrArg Commit.at_ hzx
  change z.seq = x.seq at hzs
  change z.at_ = x.at_ at hza
  rw [hs, ← hzs] at hseq
  rw [hat, ← hza]
  exact ha z hz hseq

theorem State.Settles.refl (s : State) : s.Settles s := ⟨rfl, rfl, rfl, rfl, fun l h _ => ⟨l, h, rfl, rfl, id⟩⟩

theorem State.Settles.trans (h : s.Settles q) (h' : q.Settles r) : s.Settles r where
  adm := h'.adm.trans h.adm
  rsv := h'.rsv.trans h.rsv
  kept := h'.kept.trans h.kept
  leaf := h'.leaf.trans h.leaf
  logs := fun l hl ha => by
    obtain ⟨y, hy, hs, hat, hd⟩ := h.logs l hl ha
    obtain ⟨z, hz, hs', hat', hd'⟩ := h'.logs y hy (Vault.apart_of_adm h.adm hs hat ha)
    exact ⟨z, hz, hs'.trans hs, hat'.trans hat, fun h => hd' (hd h)⟩

theorem State.Settles.of_same (hv : q.hs.vault = s.hs.vault) (hse : q.hs.se = s.hs.se) (hd : q.pil.dmp = s.pil.dmp) : s.Settles q := by
  refine ⟨by rw [hv], by rw [hd], by rw [hv], by rw [hse], fun l hl _ => ⟨l, ?_, rfl, rfl, id⟩⟩
  rw [hv]
  exact hl

theorem State.Settles.after (h : q.Settles r) (hv : q.hs.vault = s.hs.vault) (hse : q.hs.se = s.hs.se) (hd : q.pil.dmp = s.pil.dmp) :
    s.Settles r := (State.Settles.of_same hv hse hd).trans h

theorem State.Settles.of_streams (h : s.Streams q) : s.Settles q where
  adm := by
    have hadm := congrArg Vault.adm h.held
    exact hadm
  rsv := by
    have hr := congrArg (fun x : State => x.pil.dmp.rsv) h.rest
    exact hr
  kept := by
    have hk := congrArg Vault.recorded h.held
    exact hk
  leaf := congrArg SealSt.nextLeaf h.se
  logs := fun l hl ha => ⟨l, h.logs l hl ha, rfl, rfl, id⟩

/-- The logs change one by one, or not at all. -/
theorem State.Settles.of_logs (f : VLog → VLog) (g : Vault → Vault) (hadm : (g s.hs.vault).adm = s.hs.vault.adm)
    (hkept : (g s.hs.vault).recorded = s.hs.vault.recorded) (hlogs : (g s.hs.vault).logs = s.hs.vault.logs.map f)
    (hf : ∀ l, (f l).seq = l.seq ∧ (f l).at_ = l.at_ ∧ (l.durable = true → (f l).durable = true)) : s.Settles (s.modVault g) where
  adm := congrArg (List.map Commit.still) hadm
  rsv := rfl
  kept := hkept
  leaf := rfl
  logs := fun l hl _ => ⟨f l, by
    change f l ∈ (g s.hs.vault).logs
    rw [hlogs]
    exact List.mem_map_of_mem hl, (hf l).1, (hf l).2.1, (hf l).2.2⟩

theorem State.Settles.of_vault (g : Vault → Vault) (hadm : (g s.hs.vault).adm = s.hs.vault.adm)
    (hkept : (g s.hs.vault).recorded = s.hs.vault.recorded) (hlogs : (g s.hs.vault).logs = s.hs.vault.logs) : s.Settles (s.modVault g) :=
  .of_logs id g hadm hkept (hlogs.trans (List.map_id _).symm) (fun _ => ⟨rfl, rfl, id⟩)

theorem State.Settles.modSeal (f : SealSt → SealSt) (hf : (f s.hs.se).nextLeaf = s.hs.se.nextLeaf) : s.Settles (s.modSeal f) :=
  ⟨rfl, rfl, rfl, hf, fun l hl _ => ⟨l, hl, rfl, rfl, id⟩⟩

end Rules

section Steps

variable (s : State)

theorem State.Settles.submit (k : CKind) (tag : Option Nat) : s.Settles (s.submit k tag) := by
  unfold State.submit
  split
  · exact .refl s
  · exact .of_vault _ rfl rfl rfl

theorem State.Settles.syncDstate : s.Settles s.syncDstate := .of_streams (.syncDstate s)

theorem State.Settles.finish (t : Nat) (st : Byte) (res : List Byte) : s.Settles (s.finish t st res) := by
  obtain ⟨f, h⟩ := s.finish_frame t st res
  rw [h]
  exact .of_same rfl rfl rfl

theorem State.Settles.pilotNext (n : Nat) : s.Settles (s.pilotNext n) := by
  have hq := (State.pilotNext_queued n s).1
  obtain ⟨v, l, h⟩ := State.pilotNext_frame n s
  rw [h] at hq ⊢
  have hadm := congrArg Vault.adm hq
  have hkept := congrArg Vault.recorded hq
  have hlogs := congrArg Vault.logs hq
  exact State.Settles.trans (.of_vault (fun _ => v) hadm hkept hlogs) (.of_same rfl rfl rfl)

theorem State.Settles.jput (f : Hearth → JRec) : s.Settles (s.modHs (fun h => h.jput (f h))) :=
  .of_streams (.jputH s f (fun h => h.vault.jhd))

/-! ## Cords -/

theorem State.Settles.closeCord (r : CReason) : s.Settles (s.closeCord r) := by
  unfold State.closeCord
  dsimp only
  refine State.Settles.trans (State.Settles.trans ?_ (.submit _ _ _)) (.syncDstate _)
  refine State.Settles.trans (State.Settles.modSeal _ ?_) (State.Settles.of_logs
    (fun l => if s.hs.se.openCord.any (fun x => x.seq = l.seq) then { l with cord := some s.hs.se.nextCord } else l) _ ?_ ?_ ?_ ?_)
  · rfl
  · rfl
  · rfl
  · rfl
  · intro l
    split <;> exact ⟨rfl, rfl, id⟩

theorem State.Settles.pump : ∀ (n : Nat) (s : State), s.Settles (s.pump n) := by
  intro n
  induction n with
  | zero => exact .refl
  | succ n ih =>
    intro s
    have hleaf : ∀ l rest, s.Settles (((s.modHs (fun h => h.jput (h.leafRec .leaf l true))).modSeal
        (fun e => { (e.enter l s.pil.ph.clk) with waiting := rest })).pump n) := fun l rest =>
      ((State.Settles.jput s _).trans (.modSeal _ rfl)).trans (ih _)
    unfold State.pump
    dsimp only
    split
    · split
      · exact (State.Settles.closeCord s _).trans (ih _)
      · split
        · split
          · exact hleaf _ _
          · exact .refl s
        · exact .refl s
    · split
      · exact (State.Settles.modSeal (s := s) _ rfl).trans (ih _)
      · split
        · split
          · exact hleaf _ _
          · exact .refl s
        · exact .refl s

theorem State.Settles.cords : s.Settles s.cords := .pump _ s

theorem State.Settles.leafIn (cid : Nat) (l : Leaf) : s.Settles (s.leafIn cid l) := by
  have hrec := State.Settles.jput s (fun h => { (h.leafRec .commit l (s.hs.se.canEnter && s.hs.se.waiting.isEmpty)) with cid := cid })
  unfold State.leafIn
  dsimp only
  generalize s.modHs (fun h => h.jput { (h.leafRec .commit l (s.hs.se.canEnter && s.hs.se.waiting.isEmpty)) with cid := cid }) = q at hrec ⊢
  split
  · exact (hrec.trans (.modSeal _ rfl)).trans (.cords _)
  · exact (hrec.trans (.modSeal _ rfl)).trans (.cords _)

/-! ## Logs -/

theorem State.Settles.freeSlot (i : Nat) (st : LState) : s.Settles (s.freeSlot i st) := by
  unfold State.freeSlot
  dsimp only
  split <;> exact .of_same rfl rfl rfl

theorem State.Settles.exportDurable (seq cls : Nat) : s.Settles (s.exportDurable seq cls) := by
  unfold State.exportDurable State.eqPush
  split
  · exact .refl s
  · split
    · dsimp only
      split_ifs <;> exact .of_same rfl rfl rfl
    · exact .refl s

theorem State.Settles.tellPilot (m : PilMsg) : s.Settles (s.tellPilot m) := by
  unfold State.tellPilot
  split <;> exact .of_same rfl rfl rfl

theorem State.Settles.applySetting (cls v : Nat) : s.Settles (s.applySetting cls v) := by
  unfold State.applySetting
  split
  · exact .tellPilot s _
  · split
    · exact State.Settles.trans (.of_vault _ rfl rfl rfl) (.tellPilot _ _)
    · exact .refl s

theorem State.Settles.chalReply (tag : Option Nat) (st : Byte) : s.Settles (s.chalReply tag st) := by
  unfold State.chalReply
  split
  · exact .finish s _ _ _
  · exact .of_same rfl rfl rfl

theorem State.Settles.getNonce (who : Option (Nat × BitVec 64)) : s.Settles (s.getNonce who) := by
  unfold State.getNonce
  dsimp only
  cases who with
  | none => split_ifs <;> exact .of_same rfl rfl rfl
  | some w =>
    split_ifs
    · exact .finish s _ _ _
    · exact .finish s _ _ _
    · exact .after (.finish _ _ _ _) rfl rfl rfl
    · exact .of_same rfl rfl rfl
    · exact .after (.finish _ _ _ _) rfl rfl rfl

theorem State.Settles.foldl {α : Type} (f : State → α → State) (h : ∀ q a, State.Settles q (f q a)) (l : List α) (s : State) :
    s.Settles (l.foldl f s) :=
  List.foldlRecOn l f (motive := fun q => s.Settles q) (.refl s) (fun q hq a _ => hq.trans (h q a))

theorem State.Settles.serveGets : s.Settles s.serveGets := by
  unfold State.serveGets
  refine State.Settles.after (State.Settles.foldl _ (fun q w => ?_) _ _) rfl rfl rfl
  split
  · exact .getNonce q none
  · split
    · exact .getNonce q _
    · exact .refl q

theorem State.Settles.chalDone : s.Settles s.chalDone := by
  unfold State.chalDone
  split
  · split
    · dsimp only
      have hreply : ∀ (q : State) t st, q.Settles (q.chalReply t st).serveGets := fun q t st =>
        (State.Settles.chalReply q t st).trans (.serveGets _)
      split <;> exact .after (hreply _ _ _) rfl rfl rfl
    · exact .refl s
  · exact .refl s

/-- What a durable log sets in motion, once it is marked. -/
def State.logFollows (s1 : State) (c : Commit) (l : VLog) : State :=
  let s2 := match l.slot with
    | some (i, g) =>
      if (s1.hs.slots.get i).gen = g && (s1.hs.slots.get i).state = LState.admitted then s1.freeSlot i .durable else s1
    | none => s1
  let s3 := (s2.leafIn c.id { seq := l.seq, cls := l.cls, flags := l.flags.setWidth 8, lh := l.lh }).exportDurable l.seq l.cls.toNat
  let s4 := s3.applySetting l.cls.toNat (leAt l.bytes 64 6)
  let s5 := match c.tag with
    | some t => s4.modRun t (fun r => match r.kind with | .service _ => { r with result := leBytes 6 l.seq } | _ => r)
    | none => s4
  if l.cls = 0x84 then s5.modHs (fun h => { h with life := h.life.map (fun x => { x with logSeq := some l.seq }) })
  else if l.cls = 0x85 then s5.chalDone
  else s5

theorem State.logDurable_eq (c : Commit) (l : VLog) : s.logDurable c l =
    (s.modVault (fun v => { v with logs := v.logs.map (fun x => if x.seq = l.seq then { x with durable := true } else x) })).logFollows c l := rfl

theorem State.Settles.logFollows (c : Commit) (l : VLog) : s.Settles (s.logFollows c l) := by
  have hslot : s.Settles (match l.slot with
      | some (i, g) =>
        if (s.hs.slots.get i).gen = g && (s.hs.slots.get i).state = LState.admitted then s.freeSlot i .durable else s
      | none => s) := by
    split
    · split
      · exact .freeSlot s _ _
      · exact .refl s
    · exact .refl s
  have htag : ∀ q : State, q.Settles (match c.tag with
      | some t => q.modRun t (fun r => match r.kind with | .service _ => { r with result := leBytes 6 l.seq } | _ => r)
      | none => q) := by
    intro q
    split
    · exact .of_same rfl rfl rfl
    · exact .refl q
  have hend : ∀ q : State, q.Settles (if l.cls = 0x84 then q.modHs (fun h => { h with life := h.life.map (fun x => { x with logSeq := some l.seq }) })
      else if l.cls = 0x85 then q.chalDone else q) := by
    intro q
    split
    · exact .of_same rfl rfl rfl
    · split
      · exact .chalDone q
      · exact .refl q
  exact ((((hslot.trans (.leafIn _ _ _)).trans (.exportDurable _ _ _)).trans (.applySetting _ _ _)).trans (htag _)).trans (hend _)

theorem State.Settles.keepSecrets (k : CKind) : s.Settles (s.keepSecrets k) := by
  have hsave : ∀ e, s.Settles (s.saveSecrets e) := fun e => by
    unfold State.saveSecrets
    refine .after (State.Settles.of_vault _ ?_ ?_ ?_) ?_ ?_ ?_ <;> rfl
  unfold State.keepSecrets
  dsimp only
  split
  · exact hsave _
  · exact hsave _
  · exact hsave _
  · exact hsave _
  · split
    · exact hsave _
    · exact .refl s
  · exact .refl s

/-- The steps of a command that waited for the commit. -/
theorem State.Settles.runStep (t : Nat) : s.Settles (s.runStep t) := by
  unfold State.runStep State.releaseStage
  split
  · exact .refl s
  · split
    · exact .after (.submit _ _ _) rfl rfl rfl
    · split
      · exact .after (.submit _ _ _) rfl rfl rfl
      · exact .after (.finish _ _ _ _) rfl rfl rfl
      · exact .of_same rfl rfl rfl
      · exact .finish s _ _ _

end Steps

end Sys2Proof.Machine
end

section
/-! Durable commits and the upkeep of the vault (sections 10.5 and 10.6). -/

namespace Sys2Proof.Machine

/-! ## A durable commit (R265 steps 5 and 6) -/

/-- The commit has left the admitted ones and its credits are back. -/
def State.committed (s : State) (c : Commit) : State :=
  ((s.sysLines c 1).modVault (fun v => { (v.keepRec c) with adm := v.adm.filter (fun x => x.id ≠ c.id), cur := none })).giveBack c

/-- What its effect then sets in motion. -/
def State.commitFollows (s : State) (c : Commit) (s2 : State) : State :=
  let s3 := if c.fromPilot then
      let q := (s2.setEv 0x1181).pilotNext 4
      if s.pil.dmp.pfWarn then q.judgeLast else q
    else s2
  (match c.tag with | some t => s3.runStep t | none => s3).grab.syncDstate

theorem State.commitDone_eq (s : State) (c : Commit) : s.commitDone c = s.commitFollows c
    (match (s.committed c).hs.vault.logs.find? (fun l => some l.seq = c.seq) with
      | some l => (s.committed c).logDurable c l
      | none => (((s.committed c).modHs (fun h => h.jput (h.jOf .commit c))).kindDone c.kind).keepSecrets c.kind) := rfl

section Durable

variable (s : State) (c : Commit)

theorem Vault.keepRec_left (v : Vault) : ∃ l, v.keepRec c = { v with recs := l } := by
  unfold Vault.keepRec
  split
  · exact ⟨_, rfl⟩
  · exact ⟨v.recs, rfl⟩

/-- What the COMMIT record itself changes. -/
theorem State.committed_left : (s.committed c).hs.vault.adm = s.hs.vault.adm.filter (fun x => x.id ≠ c.id) ∧
    (s.committed c).hs.vault.logs = s.hs.vault.logs ∧ (s.committed c).hs.vault.recorded = s.hs.vault.recorded ∧
    (s.committed c).pil.dmp.rsv = if s.fb.hearth.down then s.pil.dmp.rsv else s.pil.dmp.rsv - c.cost := by
  have hlines : ∃ l, s.sysLines c 1 = s.modVault (fun v => { v with sysAt := l }) := by
    unfold State.sysLines
    split
    · exact ⟨_, rfl⟩
    · exact ⟨s.hs.vault.sysAt, rfl⟩
  obtain ⟨l, hl⟩ := hlines
  obtain ⟨recs, hrec⟩ := Vault.keepRec_left c ({ s.hs.vault with sysAt := l } : Vault)
  have hput : (s.sysLines c 1).modVault (fun v => { (v.keepRec c) with adm := v.adm.filter (fun x => x.id ≠ c.id), cur := none }) =
      s.modVault (fun v => { v with sysAt := l, recs := recs, adm := v.adm.filter (fun x => x.id ≠ c.id), cur := none }) := by
    rw [hl]
    exact congrArg (fun u : Vault => s.modVault (fun v => { u with adm := v.adm.filter (fun x => x.id ≠ c.id), cur := none })) hrec
  unfold State.committed State.giveBack
  rw [hput]
  split
  · next h => exact ⟨rfl, rfl, rfl, (if_pos h).symm⟩
  · next h => exact ⟨rfl, rfl, rfl, (if_neg h).symm⟩

/-- The effect of a commit that is no log leaves the other commits and their credits. -/
theorem State.kindDone_left (k : CKind) : (s.kindDone k).hs.vault.adm.map Commit.still = s.hs.vault.adm.map Commit.still ∧
    (s.kindDone k).pil.dmp.rsv = s.pil.dmp.rsv := by
  have hof : ∀ {q r : State}, r.Settles q → r.hs.vault.adm = s.hs.vault.adm → r.pil.dmp = s.pil.dmp →
      q.hs.vault.adm.map Commit.still = s.hs.vault.adm.map Commit.still ∧ q.pil.dmp.rsv = s.pil.dmp.rsv := by
    intro q r h hadm hdmp
    rw [← hadm, ← hdmp]
    exact ⟨h.adm, h.rsv⟩
  unfold State.kindDone
  split
  · exact ⟨rfl, rfl⟩
  · exact ⟨rfl, rfl⟩
  · exact ⟨rfl, rfl⟩
  · unfold State.applyPhase
    exact hof (.tellPilot _ _) rfl rfl
  · exact ⟨rfl, rfl⟩
  · exact ⟨rfl, rfl⟩
  · exact ⟨rfl, rfl⟩
  · exact ⟨rfl, rfl⟩
  · refine ⟨?_, rfl⟩
    dsimp only [State.modVault, State.modHs]
    split_ifs <;> rfl
  · exact ⟨rfl, rfl⟩
  · refine ⟨?_, rfl⟩
    dsimp only [State.modVault, State.modHs, State.setEv, State.putEv, State.modFb]
    split <;> rfl
  · refine ⟨?_, rfl⟩
    dsimp only [State.modVault, State.modHs, Vault.putSlotRec]
    split <;> rfl
  · refine ⟨?_, rfl⟩
    dsimp only [State.modVault, State.modHs]
    split <;> rfl
  · exact ⟨rfl, rfl⟩
  · exact hof (.cords _) rfl rfl
  · exact ⟨rfl, rfl⟩
  · exact ⟨rfl, rfl⟩
  · unfold State.trySwitch
    dsimp only
    split
    · exact hof (.submit _ _ _) rfl rfl
    · exact ⟨rfl, rfl⟩
  · exact ⟨rfl, rfl⟩
  · exact ⟨rfl, rfl⟩

/-- What follows settles all else, where no checkpoint of a power failure is judged in it. -/
theorem State.Settles.commitFollows (s2 : State) (h : s.pil.dmp.pfWarn = false ∨ c.fromPilot = false) : s2.Settles (s.commitFollows c s2) := by
  have hpilot : s2.Settles (if c.fromPilot then
      let q := (s2.setEv 0x1181).pilotNext 4
      if s.pil.dmp.pfWarn then q.judgeLast else q
    else s2) := by
    rcases h with hwarn | hno
    · rw [hwarn]
      split
      · exact .after (.pilotNext _ 4) rfl rfl rfl
      · exact .refl s2
    · rw [hno]
      exact .refl s2
  unfold State.commitFollows
  refine hpilot.trans ?_
  generalize (if c.fromPilot then
      let q := (s2.setEv 0x1181).pilotNext 4
      if s.pil.dmp.pfWarn then q.judgeLast else q
    else s2) = s3
  have hstep : s3.Settles (match c.tag with | some t => s3.runStep t | none => s3) := by
    split
    · exact .runStep s3 _
    · exact .refl s3
  exact (hstep.trans (.of_streams (.grab _))).trans (.syncDstate _)

theorem Commit.ids_of_still {l m : List Commit} (h : l.map Commit.still = m.map Commit.still) : l.map (fun c => c.id) = m.map (fun c => c.id) := by
  have hid := congrArg (List.map Commit.id) h
  rw [List.map_map, List.map_map] at hid
  exact hid

/-- The other admitted commits stay, and the credits of this one are back. -/
theorem State.commitDone_ledger (h : s.pil.dmp.pfWarn = false ∨ c.fromPilot = false) :
    (s.commitDone c).hs.vault.adm.map (fun x => x.id) = (s.hs.vault.adm.map (fun x => x.id)).filter (fun i => i ≠ c.id) ∧
    (s.commitDone c).pil.dmp.rsv = if s.fb.hearth.down then s.pil.dmp.rsv else s.pil.dmp.rsv - c.cost := by
  obtain ⟨hadm, -, -, hrsv⟩ := s.committed_left c
  rw [s.commitDone_eq]
  have heffect : ∀ s2, s2 = (match (s.committed c).hs.vault.logs.find? (fun l => some l.seq = c.seq) with
      | some l => (s.committed c).logDurable c l
      | none => (((s.committed c).modHs (fun h => h.jput (h.jOf .commit c))).kindDone c.kind).keepSecrets c.kind) →
      s2.hs.vault.adm.map Commit.still = (s.committed c).hs.vault.adm.map Commit.still ∧ s2.pil.dmp.rsv = (s.committed c).pil.dmp.rsv := by
    rintro s2 rfl
    split
    · next l _ =>
      rw [State.logDurable_eq]
      have hl := State.Settles.logFollows ((s.committed c).modVault (fun v =>
        { v with logs := v.logs.map (fun x => if x.seq = l.seq then { x with durable := true } else x) })) c l
      exact ⟨hl.adm, hl.rsv⟩
    · have hj := State.Settles.jput (s.committed c) (fun h => h.jOf .commit c)
      obtain ⟨hk, hkr⟩ := State.kindDone_left ((s.committed c).modHs (fun h => h.jput (h.jOf .commit c))) c.kind
      have hs := State.Settles.keepSecrets (((s.committed c).modHs (fun h => h.jput (h.jOf .commit c))).kindDone c.kind) c.kind
      exact ⟨(hs.adm.trans hk).trans hj.adm, (hs.rsv.trans hkr).trans hj.rsv⟩
  generalize (match (s.committed c).hs.vault.logs.find? (fun l => some l.seq = c.seq) with
      | some l => (s.committed c).logDurable c l
      | none => (((s.committed c).modHs (fun h => h.jput (h.jOf .commit c))).kindDone c.kind).keepSecrets c.kind) = s2 at heffect ⊢
  obtain ⟨hstill, hr⟩ := heffect s2 rfl
  have hf := State.Settles.commitFollows s c s2 h
  refine ⟨?_, (hf.rsv.trans hr).trans hrsv⟩
  rw [Commit.ids_of_still (hf.adm.trans hstill), hadm, List.filter_map]
  rfl

/-- A log is durable, where no other write goes over it. -/
theorem State.commitDone_log (h : s.pil.dmp.pfWarn = false ∨ c.fromPilot = false) {l : VLog} (hl : l ∈ s.hs.vault.logs)
    (hseq : c.seq = some l.seq) (ha : s.hs.vault.apart l) : ∃ y, y ∈ (s.commitDone c).hs.vault.logs ∧ y.seq = l.seq ∧ y.durable = true := by
  obtain ⟨hadm, hlogs, -, -⟩ := s.committed_left c
  rw [← hlogs] at hl
  obtain ⟨l0, hfind⟩ : ∃ l0, (s.committed c).hs.vault.logs.find? (fun x => some x.seq = c.seq) = some l0 := by
    rw [← Option.isSome_iff_exists, List.find?_isSome]
    exact ⟨l, hl, decide_eq_true hseq.symm⟩
  have hl0 : l0.seq = l.seq := by
    have h0 := List.find?_some hfind
    rw [decide_eq_true_eq, hseq] at h0
    exact Option.some.inj h0
  rw [s.commitDone_eq, hfind]
  dsimp only
  rw [State.logDurable_eq]
  have hf := (State.Settles.logFollows ((s.committed c).modVault (fun v =>
    { v with logs := v.logs.map (fun x => if x.seq = l0.seq then { x with durable := true } else x) })) c l0).trans
    (State.Settles.commitFollows s c _ h)
  obtain ⟨y, hy, hs, -, hd⟩ := hf.logs { l with durable := true } (by
      refine List.mem_map.2 ⟨l, hl, ?_⟩
      rw [if_pos hl0.symm]) (fun x hx => by
      change x ∈ (s.committed c).hs.vault.adm at hx
      rw [hadm] at hx
      exact ha x (List.mem_of_mem_filter hx))
  exact ⟨y, hy, hs, hd rfl⟩

/-- A record's value is the recorded one. -/
theorem State.commitDone_record (h : s.pil.dmp.pfWarn = false ∨ c.fromPilot = false) (hseq : c.seq = none) :
    ∃ q : State, q.hs.vault.recorded = s.hs.vault.recorded ∧ (s.commitDone c).hs.vault.recorded = (q.kindDone c.kind).hs.vault.recorded ∧
      (s.commitDone c).hs.se.nextLeaf = (q.kindDone c.kind).hs.se.nextLeaf := by
  obtain ⟨-, -, hrec, -⟩ := s.committed_left c
  have hfind : (s.committed c).hs.vault.logs.find? (fun x => some x.seq = c.seq) = none :=
    List.find?_eq_none.2 (fun x _ => by rw [hseq]; simp)
  have hj := State.Settles.jput (s.committed c) (fun h => h.jOf .commit c)
  refine ⟨_, hj.kept.trans hrec, ?_⟩
  rw [s.commitDone_eq, hfind]
  dsimp only
  have hs := (State.Settles.keepSecrets (((s.committed c).modHs (fun h => h.jput (h.jOf .commit c))).kindDone c.kind) c.kind).trans
    (State.Settles.commitFollows s c _ h)
  exact ⟨hs.kept, hs.leaf⟩

end Durable

/-- Going on in other lines leaves the bad and the retiring blocks. -/
theorem State.skipBad_left (s : State) (b : Nat) : (s.skipBad b).hs.vault.bad = s.hs.vault.bad ∧
    (s.skipBad b).hs.vault.retiring = s.hs.vault.retiring := by
  unfold State.skipBad
  dsimp only
  split
  · exact ⟨rfl, rfl⟩
  · refine List.foldlRecOn (motive := fun q : State => q.hs.vault.bad = s.hs.vault.bad ∧ q.hs.vault.retiring = s.hs.vault.retiring) _ _
      ⟨rfl, rfl⟩ ?_
    intro q hq c _
    split
    · exact hq
    · exact hq

end Sys2Proof.Machine

namespace Sys2Proof

open Machine

/-- Settles O38: a durable commit leaves the others as they are, and its own effect stands. -/
theorem vaultCommits : Obligations.VaultCommits := by
  unfold Obligations.VaultCommits
  intro s hon v ids
  refine ⟨?next, ?durable, ?retire, ?copied, ?scrub⟩
  case next =>
    intro c horder hfind hfirst
    have hnone : ∀ k, (∀ x, x ∈ v.adm → x.cls ≠ k) → v.adm.find? (fun x => x.cls = k) = none := fun k hk =>
      List.find?_eq_none.2 (fun x hx => by rw [decide_eq_true_eq]; exact hk x hx)
    unfold State.nextWrite
    rw [horder]
    rcases hfirst with hsys | ⟨hno, hprot | hno'⟩
    · rw [hsys] at hfind
      rw [List.filterMap_cons, hfind] <;> rfl
    · rw [hprot] at hfind
      rw [List.filterMap_cons, hnone _ hno, List.filterMap_cons, hfind] <;> rfl
    · rw [List.filterMap_cons, hnone _ hno, List.filterMap_cons, hnone _ hno']
      have hcls : c.cls = .rolling := by
        have hc := List.mem_of_find?_eq_some hfind
        cases hk : c.cls with
        | system => exact absurd hk (hno c hc)
        | prot => exact absurd hk (hno' c hc)
        | rolling => rfl
      rw [hcls] at hfind
      rw [List.filterMap_cons, hfind] <;> rfl
  case durable =>
    intro k c hcur
    have hst := State.Streams.streamed s
    have hwarn := congrArg (fun q : State => q.pil.dmp.pfWarn) hst.rest
    have hrsv := congrArg (fun q : State => q.pil.dmp.rsv) hst.rest
    have hdown := congrArg (fun q : State => q.fb.hearth.down) hst.rest
    have hsvn := congrArg Vault.svnImg hst.held
    have hexec : exec (.commitDurable k) s = .next (if s.vaultOn && c.cls = k then s.streamed.commitDone c else s) := by
      refine congrArg Host.Outcome.next ?_
      change (match s.streamed.hs.vault.curWrite with | some c => _ | none => s) = _
      rw [hcur]
    refine ⟨fun hk => ?_, fun hk hwarn' => ?_⟩
    · rw [hexec, if_neg (by simp [hk])]
    · rw [if_pos (by simp [hk, hon])] at hexec
      have h : s.streamed.pil.dmp.pfWarn = false ∨ c.fromPilot = false := hwarn'.imp_left (fun hw => hwarn.trans hw)
      obtain ⟨hids, hr⟩ := s.streamed.commitDone_ledger c h
      refine ⟨_, hexec, ?_, ?_, fun l hl hseq hap => ?_, fun hseq => ?_⟩
      · rw [hst.ids] at hids
        exact hids
      · rw [hr]
        change (if s.streamed.fb.hearth.down = true then s.streamed.pil.dmp.rsv else s.streamed.pil.dmp.rsv - c.cost) = _
        change s.streamed.fb.hearth.down = s.fb.hearth.down at hdown
        change s.streamed.pil.dmp.rsv = s.pil.dmp.rsv at hrsv
        rw [hdown, hrsv]
      · exact s.streamed.commitDone_log c h (hst.logs l hl hap) hseq (Vault.apart_of_held hst.held hap)
      · obtain ⟨q, hq, hrec, hleaf⟩ := s.streamed.commitDone_record c h hseq
        refine ⟨fun ms hk => ?_, fun id hk => ?_, fun n m hn hk => ?_, fun n hk => ?_, fun leaf hk => ?_⟩
        · rw [hk] at hrec
          exact congrArg (fun x => x.1) hrec
        · rw [hk] at hrec
          exact congrArg (fun x => x.2.1) hrec
        · rw [hk] at hrec
          have hm := congrArg (fun x => x.2.2.1) hrec
          exact (congrArg (fun t : Tab Marks 4 => t.get n) hm).trans (Tab.get_set_self _ _ _ hn)
        · rw [hk] at hrec
          have hm := congrArg (fun x => x.2.2.2) hrec
          have hold := congrArg (fun x => x.2.2.2) hq
          change q.hs.vault.svnImg = s.streamed.hs.vault.svnImg at hold
          change s.streamed.hs.vault.svnImg = s.hs.vault.svnImg at hsvn
          refine hm.trans ?_
          change max q.hs.vault.svnImg n = _
          rw [hold, hsvn]
        · rw [hk] at hleaf
          exact hleaf
  case retire =>
    intro b hre hbad
    have hrun : exec (.blockRetire b) s = .next ((s.modVault (fun v => v.retire b.toNat)).skipBad b.toNat) :=
      congrArg Host.Outcome.next (if_neg (by rw [hon]; decide))
    obtain ⟨hb, hr⟩ := State.skipBad_left (s.modVault (fun v => v.retire b.toNat)) b.toNat
    have hnot : ¬ (v.retiring.contains b.toNat || v.bad.contains b.toNat) = true := by rw [hre, hbad]; decide
    refine ⟨_, hrun, fun hs => ?_, fun hs => ?_⟩
    · have hret : v.retire b.toNat = { v with spares := v.spares - 1, retiring := v.retiring ++ [b.toNat] } := (if_neg hnot).trans (if_pos hs)
      have hself : (s.modVault (fun v => v.retire b.toNat)).skipBad b.toNat = s.modVault (fun v => v.retire b.toNat) := by
        refine if_pos ?_
        change (!(v.retire b.toNat).bad.contains b.toNat) = true
        rw [hret]
        change (!v.bad.contains b.toNat) = true
        rw [hbad] <;> rfl
      rw [hself]
      change (v.retire b.toNat).spares = _ ∧ (v.retire b.toNat).retiring = _ ∧ (v.retire b.toNat).bad = _
      rw [hret]
      exact ⟨rfl, rfl, rfl⟩
    · have hret : v.retire b.toNat = 
          { v with bad := v.bad ++ [b.toNat], journal := v.journal.filter (fun r => r.line / 32 ≠ b.toNat),
                   recs := v.recs.filter (fun r => r.line / 32 ≠ b.toNat) } := (if_neg hnot).trans (if_neg (by omega))
      rw [hb, hr]
      change (v.retire b.toNat).bad = _ ∧ (v.retire b.toNat).retiring = _
      rw [hret]
      exact ⟨rfl, rfl⟩
  case copied =>
    intro b hre
    refine ⟨_, congrArg Host.Outcome.next (if_neg (by rw [hon, hre]; decide)), ?_, rfl⟩
    change (v.retiring.filter (· ≠ b.toNat)).contains b.toNat = false
    simp
  case scrub =>
    intro line errs hwarn
    have hrun : errs ≠ 0 → exec (.vaultScrub line errs) s = .next (if errs.toNat ≤ 3 then s.submit (.rewrite line.toNat)
        else s.modVault (fun v =>
          { v with ue := satInc v.ue,
                   ueLines := if v.ueLines.contains line.toNat then v.ueLines else v.ueLines ++ [line.toNat] })) := fun he =>
      congrArg Host.Outcome.next (if_neg (by rw [hon, hwarn, decide_eq_false he]; decide))
    have hne : 1 ≤ errs.toNat → errs ≠ 0 := by
      rintro h rfl
      exact absurd h (by decide)
    refine ⟨fun he => ?_, fun h1 h3 h4 h7 => ?_, fun h4 => ?_⟩
    · exact congrArg Host.Outcome.next (if_pos (by rw [decide_eq_true he, Bool.or_true]))
    · have hr := hrun (hne h1)
      rw [if_pos h3] at hr
      exact ⟨_, hr, State.submit_queues s _ none h4 h7⟩
    · have hr := hrun (hne (by omega))
      rw [if_neg (by omega)] at hr
      refine ⟨_, hr, rfl, ?_, rfl⟩
      change line.toNat ∈ (if v.ueLines.contains line.toNat then v.ueLines else v.ueLines ++ [line.toNat])
      split
      · next h => exact List.contains_iff_mem.1 h
      · exact List.mem_append_right _ (List.mem_singleton.2 rfl)

end Sys2Proof
end

section
/-! Cords, seals and trees (sections 9.5 to 9.8). -/

namespace Sys2Proof.Machine

/-! ## What closing cords keeps -/

/-- What closing due cords and entering leaves keeps: the signing, the queued cords, the seals, the logs' seals and the requests. -/
structure State.Pumps (s q : State) : Prop where
  run : q.hs.se.run = s.hs.se.run
  stays : ∀ c ∈ s.hs.se.queue, c ∈ q.hs.se.queue
  queue : ∀ c ∈ q.hs.se.queue, c ∈ s.hs.se.queue ∨ s.hs.se.nextCord ≤ c.no
  next : s.hs.se.nextCord ≤ q.hs.se.nextCord
  seals : q.hs.vault.seals = s.hs.vault.seals
  logs : ∀ y ∈ q.hs.vault.logs, ∃ l ∈ s.hs.vault.logs, y.seq = l.seq ∧ y.sealed = l.sealed
  wait : ∀ x ∈ s.hs.vault.wait, x ∈ q.hs.vault.wait

section Pump

variable {s q r : State}

theorem State.Pumps.refl (s : State) : s.Pumps s :=
  ⟨rfl, fun _ h => h, fun _ h => Or.inl h, le_rfl, rfl, fun y h => ⟨y, h, rfl, rfl⟩, fun _ h => h⟩

theorem State.Pumps.trans (h : s.Pumps q) (h' : q.Pumps r) : s.Pumps r where
  run := h'.run.trans h.run
  stays := fun c hc => h'.stays c (h.stays c hc)
  queue := fun c hc => (h'.queue c hc).elim (h.queue c) (fun hn => Or.inr (h.next.trans hn))
  next := h.next.trans h'.next
  seals := h'.seals.trans h.seals
  logs := fun y hy => by
    obtain ⟨l, hl, hs, hd⟩ := h'.logs y hy
    obtain ⟨m, hm, hs', hd'⟩ := h.logs l hl
    exact ⟨m, hm, hs.trans hs', hd.trans hd'⟩
  wait := fun x hx => h'.wait x (h.wait x hx)

theorem State.Pumps.of_hs (hse : q.hs.se = s.hs.se) (hseals : q.hs.vault.seals = s.hs.vault.seals)
    (hlogs : q.hs.vault.logs = s.hs.vault.logs) (hwait : ∀ x ∈ s.hs.vault.wait, x ∈ q.hs.vault.wait) : s.Pumps q := by
  refine ⟨by rw [hse], fun c hc => by rwa [hse], fun c hc => Or.inl (by rwa [hse] at hc), by rw [hse], hseals, fun y hy => ?_, hwait⟩
  rw [hlogs] at hy
  exact ⟨y, hy, rfl, rfl⟩

/-- A change of the Seal engine that neither signs nor closes. -/
theorem State.Pumps.modSeal (s : State) (f : SealSt → SealSt) (hrun : (f s.hs.se).run = s.hs.se.run)
    (hqueue : (f s.hs.se).queue = s.hs.se.queue) (hnext : (f s.hs.se).nextCord = s.hs.se.nextCord) : s.Pumps (s.modSeal f) := by
  refine ⟨hrun, fun c hc => ?_, fun c hc => Or.inl ?_, hnext.ge, rfl, fun y hy => ⟨y, hy, rfl, rfl⟩, fun _ h => h⟩
  · change c ∈ (f s.hs.se).queue
    rwa [hqueue]
  · change c ∈ (f s.hs.se).queue at hc
    rwa [hqueue] at hc

theorem State.Pumps.submit (s : State) (k : CKind) (tag : Option Nat) : s.Pumps (s.submit k tag) := by
  unfold State.submit
  split
  · exact .refl s
  · exact .of_hs rfl rfl rfl (fun x hx => List.mem_append_left _ hx)

theorem State.Pumps.syncDstate (s : State) : s.Pumps s.syncDstate :=
  .of_hs (congrArg Hearth.se s.syncDstate_hs) (by rw [State.syncDstate_hs]) (by rw [State.syncDstate_hs]) (fun x hx => by rwa [State.syncDstate_hs])

theorem Vault.putLine_seals (v : Vault) (l : Nat) (b : List Byte) : (v.putLine l b).seals = v.seals := by
  unfold Vault.putLine Vault.wearLine Vault.retire
  dsimp only
  split_ifs <;> rfl

theorem Hearth.jraw_seals (h : Hearth) (r : JRec) (hd : Heads) : (h.jraw r hd).vault.seals = h.vault.seals := by
  unfold Hearth.jraw
  exact h.vault.putLine_seals h.jLine ({ r with jseq := h.vault.jseq, line := h.jLine } : JRec).bytes

theorem Hearth.jheads_seals (h : Hearth) : h.jheads.vault.seals = h.vault.seals :=
  h.jraw_seals { ty := .heads, heads := some (h.vault.jhd, partFirst .prot + h.vault.relPos) } h.vault.jhd

theorem Hearth.jputH_seals (h : Hearth) (r : JRec) (hd : Heads) : (h.jputH r hd).vault.seals = h.vault.seals := by
  have hraw := h.jraw_seals r hd
  unfold Hearth.jputH
  dsimp only
  generalize h.jraw r hd = g at hraw ⊢
  split
  · exact g.jheads_seals.trans hraw
  · exact hraw

theorem State.Pumps.jput (s : State) (f : Hearth → JRec) : s.Pumps (s.modHs (fun h => h.jput (f h))) := by
  have hleft := s.hs.jputH_left (f s.hs) s.hs.vault.jhd
  have hwait := congrArg Vault.wait hleft.1
  obtain ⟨v, hv⟩ := s.hs.jputH_vault (f s.hs) s.hs.vault.jhd
  have hse := congrArg Hearth.se hv
  exact .of_hs hse (s.hs.jputH_seals (f s.hs) s.hs.vault.jhd) hleft.2 (fun x hx => hwait.symm ▸ hx)

/-- A cord closes. -/
theorem State.Pumps.closeCord (s : State) (r : CReason) : s.Pumps (s.closeCord r) := by
  unfold State.closeCord
  dsimp only
  refine State.Pumps.trans (State.Pumps.trans ?_ (.submit _ _ _)) (.syncDstate _)
  refine ⟨rfl, fun c hc => List.mem_append_left _ hc, fun c hc => ?_, Nat.le_succ _, rfl, fun y hy => ?_, fun _ h => h⟩
  · rcases List.mem_append.1 hc with h | h
    · exact Or.inl h
    · rw [List.mem_singleton.1 h]
      exact Or.inr le_rfl
  · obtain ⟨l, hl, rfl⟩ := List.mem_map.1 hy
    refine ⟨l, hl, ?_⟩
    split <;> exact ⟨rfl, rfl⟩

theorem State.Pumps.enter (s : State) (l : Leaf) (now : Nat) (rest : List Leaf) :
    s.Pumps ((s.modHs (fun h => h.jput (h.leafRec .leaf l true))).modSeal (fun e => { (e.enter l now) with waiting := rest })) :=
  (State.Pumps.jput s _).trans (.modSeal _ _ rfl rfl rfl)

theorem State.Pumps.pump : ∀ (n : Nat) (s : State), s.Pumps (s.pump n) := by
  intro n
  induction n with
  | zero => exact .refl
  | succ n ih =>
    intro s
    have hleaf : ∀ l now rest, s.Pumps (((s.modHs (fun h => h.jput (h.leafRec .leaf l true))).modSeal
        (fun e => { (e.enter l now) with waiting := rest })).pump n) := fun l now rest => (State.Pumps.enter s l now rest).trans (ih _)
    unfold State.pump
    dsimp only
    split
    · split
      · exact (State.Pumps.closeCord s _).trans (ih _)
      · split
        · split
          · exact hleaf _ _ _
          · exact .refl s
        · exact .refl s
    · split
      · exact (State.Pumps.modSeal s _ rfl rfl rfl).trans (ih _)
      · split
        · split
          · exact hleaf _ _ _
          · exact .refl s
        · exact .refl s

theorem State.Pumps.cords (s : State) : s.Pumps s.cords := .pump _ s

theorem State.Pumps.trySwitch (s : State) : s.Pumps s.trySwitch := by
  unfold State.trySwitch
  dsimp only
  split
  · exact .submit s _ _
  · exact .refl s

theorem State.eqPush_hs (s : State) (n : Nat) (b : Bool) (i : Item) : (s.eqPush n b i).hs = s.hs := by
  unfold State.eqPush
  dsimp only
  split_ifs <;> rfl

theorem State.exportSeal_hs (s : State) (no : Nat) (l : List Leaf) : (s.exportSeal no l).hs = s.hs := by
  have hone : ∀ m : List Leaf, (m.foldl (fun (q : State) l =>
      match q.eqFor (selBit l.cls.toNat) with
      | some n => q.eqPush n true (.pair l.seq no)
      | none => q) s).hs = s.hs := by
    intro m
    refine List.foldlRecOn (motive := fun q : State => q.hs = s.hs) m _ rfl ?_
    intro q hq l _
    split
    · exact (State.eqPush_hs _ _ _ _).trans hq
    · exact hq
  unfold State.exportSeal
  dsimp only
  split
  · split
    · exact hone _
    · exact (State.eqPush_hs _ _ _ _).trans (hone _)
  · exact hone _

end Pump

/-! ## A cord that is due (R241, R242) -/

/-- A cord that is due and finds the queue full stays due. -/
theorem State.pump_due : ∀ (n : Nat) (s : State) (r : CReason), s.hs.se.due = some r → 4 ≤ s.hs.se.queue.length →
    (s.pump n).hs.se.due = some r ∧ (s.pump n).hs.se.queue = s.hs.se.queue := by
  intro n
  induction n with
  | zero => exact fun s r hd _ => ⟨hd, rfl⟩
  | succ n ih =>
    intro s r hd hq
    have hfull : ¬ (decide (s.hs.se.queue.length < 4) && !s.pil.dmp.pfWarn) = true := by
      rw [decide_eq_false (by omega)]
      exact Bool.false_ne_true
    unfold State.pump
    dsimp only
    rw [hd]
    dsimp only
    rw [if_neg hfull]
    split
    · next l rest _ =>
      split
      · obtain ⟨v, hv⟩ := s.hs.jputH_vault (s.hs.leafRec .leaf l true) s.hs.vault.jhd
        have hse := congrArg Hearth.se hv
        change (s.hs.jput (s.hs.leafRec .leaf l true)).se = s.hs.se at hse
        have hdue : (((s.modHs (fun h => h.jput (h.leafRec .leaf l true))).modSeal
            (fun e => { (e.enter l s.pil.ph.clk) with waiting := rest })).hs.se).due = some r := by
          change (match (s.hs.jput (s.hs.leafRec .leaf l true)).se.due with | some r => some r | none => _) = some r
          rw [hse, hd]
        have hqueue : (((s.modHs (fun h => h.jput (h.leafRec .leaf l true))).modSeal
            (fun e => { (e.enter l s.pil.ph.clk) with waiting := rest })).hs.se).queue = s.hs.se.queue := by
          have hq' := congrArg SealSt.queue hse
          exact hq'
        obtain ⟨h1, h2⟩ := ih _ r hdue (by rw [hqueue]; exact hq)
        exact ⟨h1, h2.trans hqueue⟩
      · exact ⟨hd, rfl⟩
    · exact ⟨hd, rfl⟩

/-- A cord that is due and finds room closes. -/
theorem State.pump_closes (n : Nat) (s : State) (r : CReason) (hd : s.hs.se.due = some r) (hq : s.hs.se.queue.length < 4)
    (hwarn : s.pil.dmp.pfWarn = false) : ∃ c, c ∈ (s.pump (n + 1)).hs.se.queue ∧ c.no = s.hs.se.nextCord ∧ c.leaves = s.hs.se.openCord ∧
      c.reason = r := by
  have hclose : s.pump (n + 1) = (s.closeCord r).pump n := by
    rw [State.pump]
    dsimp only
    rw [hd]
    exact if_pos (by rw [hwarn, decide_eq_true hq]; rfl)
  have hmem : ∃ c, c ∈ (s.closeCord r).hs.se.queue ∧ c.no = s.hs.se.nextCord ∧ c.leaves = s.hs.se.openCord ∧ c.reason = r := by
    unfold State.closeCord
    dsimp only
    rw [State.syncDstate_hs, (State.submit_corded _ _ _).2]
    exact ⟨_, List.mem_append_right _ (List.mem_singleton.2 rfl), rfl, rfl, rfl⟩
  obtain ⟨c, hc, h⟩ := hmem
  rw [hclose]
  exact ⟨c, (State.Pumps.pump n _).stays c hc, h⟩

/-! ## A seal is released (R249, R260) -/

/-- The logs of a released cord are sealed; the Seal engine, the seals and the requests stay. -/
theorem State.markSealed_left (s : State) (c : Cord) : (s.markSealed c).hs.se = s.hs.se ∧ (s.markSealed c).hs.vault.seals = s.hs.vault.seals ∧
    (s.markSealed c).hs.vault.wait = s.hs.vault.wait ∧ (s.markSealed c).life = s.life ∧
    (∀ l f, l ∈ (s.markSealed c).hs.vault.logs → f ∈ c.leaves → f.seq = l.seq → l.sealed = true) := by
  obtain ⟨s1, hs1⟩ : ∃ q : State, q = s.modVault (fun v =>
    { v with logs := v.logs.map (fun l => if c.leaves.any (fun f => f.seq = l.seq) then { l with sealed := true, cord := some c.no } else l) }) := ⟨_, rfl⟩
  have hsealed : ∀ l f, l ∈ s1.hs.vault.logs → f ∈ c.leaves → f.seq = l.seq → l.sealed = true := by
    intro l f hl hf hseq
    rw [hs1] at hl
    obtain ⟨m, -, rfl⟩ := List.mem_map.1 hl
    split
    · rfl
    · next h =>
      rw [if_neg h] at hseq
      exact absurd (List.any_eq_true.2 ⟨f, hf, decide_eq_true hseq⟩) h
  have hmark : (s.markSealed c).hs.se = s1.hs.se ∧ (s.markSealed c).hs.vault = s1.hs.vault ∧ (s.markSealed c).hs.otp = s1.hs.otp := by
    rw [hs1]
    refine List.foldlRecOn (motive := fun q : State => q.hs.se = s.hs.se ∧ q.hs.vault = _ ∧ q.hs.otp = s.hs.otp) _ _ ⟨rfl, rfl, rfl⟩ ?_
    intro q hq l _
    split
    · dsimp only
      split
      · exact hq
      · exact hq
    · exact hq
  obtain ⟨hse, hv, hotp⟩ := hmark
  have hlife : (s.markSealed c).life = s1.life := congrArg (fun o : Otp => lifeOf o.thermo) hotp
  rw [hse, hv, hlife]
  subst hs1
  exact ⟨rfl, rfl, rfl, rfl, hsealed⟩

/-! ## Trees and keys (R252, R370) -/

theorem State.submit_queues_of_vault {s q : State} (k : CKind) (tag : Option Nat) (hv : q.hs.vault = s.hs.vault) (h4 : q.life ≠ 4)
    (h7 : q.life ≠ 7) : Queues s (q.submit k tag) k := by
  have h := q.submit_queues k tag h4 h7
  unfold Queues at h ⊢
  rwa [hv] at h

/-- The next bottom tree is built and signed. -/
def State.treeSigned (s : State) : State :=
  s.modSeal (fun x =>
    { x with nextPub := treePub s.hs.se.w8 s.hs.se.seedN s.hs.se.iN
             nextTopSig := treeSign s.hs.se.w8 s.hs.se.topSeed s.hs.se.topI (s.hs.se.tree + 1) (treePub s.hs.se.w8 s.hs.se.seedN s.hs.se.iN) })

/-- The top tree and bottom tree 0 are built, the latter signed by the former. -/
def State.keysSigned (s : State) : State :=
  s.modSeal (fun x =>
    { x with curPub := treePub s.hs.se.w8 s.hs.se.seed s.hs.se.i
             curTopSig := treeSign x.w8 x.topSeed x.topI 0 (treePub s.hs.se.w8 s.hs.se.seed s.hs.se.i)
             pub := [0, 0, 0, 2] ++ treePub s.hs.se.w8 s.hs.se.topSeed s.hs.se.topI })

theorem State.keysSigned_pubs (s : State) : s.keysSigned.hs.se.pub = [0, 0, 0, 2] ++ treePub s.hs.se.w8 s.hs.se.topSeed s.hs.se.topI ∧
    s.keysSigned.hs.se.curPub = treePub s.hs.se.w8 s.hs.se.seed s.hs.se.i := by
  unfold State.keysSigned
  generalize treePub s.hs.se.w8 s.hs.se.topSeed s.hs.se.topI = top
  generalize treePub s.hs.se.w8 s.hs.se.seed s.hs.se.i = bot
  exact ⟨rfl, rfl⟩

end Sys2Proof.Machine

namespace Sys2Proof

open Machine

/-- Settles O39: a due cord closes where there is room, and a reserved leaf signs the next cord and no other. -/
theorem sealCycle : Obligations.SealCycle := by
  unfold Obligations.SealCycle
  intro s e
  have hlives : s.sealOn = true → s.life ≠ 4 ∧ s.life ≠ 7 := by
    intro h
    simp only [State.sealOn, Bool.and_eq_true, decide_eq_true_eq] at h
    exact ⟨h.1.2, h.2⟩
  refine ⟨?timer, ?start, ?idle, ?release, ?tree, ?keys⟩
  case timer =>
    intro n hon hwarn htimer hle hopen hdue
    obtain ⟨s1, hs1⟩ : ∃ q : State, q = s.modSeal (fun e => { e with timer := none, due := match e.due with | some r => some r | none => some .timer }) :=
      ⟨_, rfl⟩
    have hrun : exec .cordTimer s = .next s1.cords.syncDstate := by
      rw [hs1]
      refine congrArg Host.Outcome.next ?_
      change (match e.timer with | none => s | some k => _) = _
      rw [htimer]
      refine if_neg ?_
      rw [hon, hwarn, decide_eq_false (by omega)]
      simp [show s.hs.se.openCord ≠ [] from hopen]
    have hdue1 : s1.hs.se.due = some .timer := by
      rw [hs1]
      change (match e.due with | some r => some r | none => some CReason.timer) = _
      rw [hdue]
    have hse : s1.hs.se.queue = e.queue ∧ s1.hs.se.nextCord = e.nextCord ∧ s1.hs.se.openCord = e.openCord ∧ s1.pil.dmp.pfWarn = false := by
      rw [hs1]
      exact ⟨rfl, rfl, rfl, hwarn⟩
    obtain ⟨hqueue, hnext, hop, hw⟩ := hse
    refine ⟨_, hrun, fun hlt => ?_, fun hge => ?_⟩
    · rw [State.syncDstate_hs, ← hnext, ← hop]
      exact State.pump_closes _ s1 .timer hdue1 (by rw [hqueue]; exact hlt) hw
    · rw [State.syncDstate_hs, ← hqueue]
      exact State.pump_due _ s1 .timer hdue1 (by rw [hqueue]; exact hge)
  case start =>
    intro c hc hon hidle htree hnone
    obtain ⟨h4, h7⟩ := hlives hon
    have hrun : exec .sealStart s = .next ((s.modSeal (fun e => { e with run := .reserving e.nextLeaf })).submit (.reserve e.nextLeaf)) := by
      refine congrArg Host.Outcome.next ?_
      change (match e.nextCord? with | none => s | some _ => _) = _
      rw [hc]
      have hrel : s.hs.se.queue.any (·.released) = false := List.any_eq_false.2 (fun x hx => by rw [hnone x hx]; decide)
      refine (if_neg ?_).trans (if_neg (not_not.2 htree))
      rw [hon, hrel, decide_eq_false (not_not.2 hidle)]
      decide
    have hq : Queues s ((s.modSeal (fun e => { e with run := .reserving e.nextLeaf })).submit (.reserve e.nextLeaf)) (.reserve e.nextLeaf) :=
      State.submit_queues_of_vault _ none rfl h4 h7
    exact ⟨_, hrun, (State.submit_corded _ _ _).2, hq⟩
  case idle =>
    intro hrun
    refine congrArg Host.Outcome.next ?_
    dsimp only
    split
    · next q c hq _ => exact absurd hq (hrun q)
    · rfl
  case release =>
    intro q c hrunning hc hon hwarn
    obtain ⟨s1, hs1⟩ : ∃ x : State, x = s.modSeal (fun e =>
      { e with run := .idle, queue := e.queue.map (fun (x : Cord) => if x.no = c.no then { x with released := true } else x),
               seed := if decide (q % 2 ^ 20 = 2 ^ 20 - 1) then [] else e.seed, i := if decide (q % 2 ^ 20 = 2 ^ 20 - 1) then [] else e.i }) := ⟨_, rfl⟩
    obtain ⟨vs, hvs⟩ : ∃ x : VSeal, x = { cord := c.no, count := c.leaves.length, sealBytes := e.sealBytes c q, leaves := c.leaves, part := .rolling } :=
      ⟨_, rfl⟩
    obtain ⟨s2, hs2⟩ : ∃ x : State, x = (s1.modVault (fun v => { v with seals := v.seals ++ [vs] })).markSealed c := ⟨_, rfl⟩
    have hrun : exec .sealRelease s = .next ((((s2.submit (.sealRec c.no)).exportSeal c.no c.leaves).trySwitch).cords).syncDstate := by
      rw [hs2, hvs, hs1]
      refine congrArg Host.Outcome.next ?_
      change (match e.run, e.nextCord? with | .reserved q, some c => _ | _, _ => s) = _
      rw [hrunning, hc]
      exact if_neg (by rw [hon, hwarn]; decide)
    obtain ⟨hse, hseals, -, hlife, hsealed⟩ := (s1.modVault (fun v => { v with seals := v.seals ++ [vs] })).markSealed_left c
    rw [← hs2] at hse hseals hlife hsealed
    have hsub := State.Pumps.submit s2 (.sealRec c.no) none
    have hexp : (s2.submit (.sealRec c.no)).Pumps ((s2.submit (.sealRec c.no)).exportSeal c.no c.leaves) :=
      .of_hs (by rw [State.exportSeal_hs]) (by rw [State.exportSeal_hs]) (by rw [State.exportSeal_hs]) (fun x hx => by rwa [State.exportSeal_hs])
    have hend := ((hexp.trans (.trySwitch _)).trans (.cords _)).trans (.syncDstate _)
    have hall := hsub.trans hend
    generalize ((((s2.submit (.sealRec c.no)).exportSeal c.no c.leaves).trySwitch).cords).syncDstate = s' at hrun hend hall
    refine ⟨_, hrun, ?_, ⟨vs, ?_, ?_⟩, fun l f hl hf hseq => ?_, fun x hx hno hlt => ?_, fun h4 h7 => ?_⟩
    · rw [hall.run, hse, hs1] <;> rfl
    · rw [hall.seals, hseals]
      exact List.mem_append_right _ (List.mem_singleton.2 rfl)
    · rw [hvs]
      exact ⟨rfl, rfl, rfl, rfl⟩
    · obtain ⟨m, hm, hs, hd⟩ := hall.logs l hl
      rw [hd]
      exact hsealed m f hm hf (hseq.trans hs)
    · have hbound : s2.hs.se.nextCord = e.nextCord := by rw [hse, hs1] <;> rfl
      have hqueue : s2.hs.se.queue = e.queue.map (fun (x : Cord) => if x.no = c.no then { x with released := true } else x) := by
        rw [hse, hs1] <;> rfl
      rcases hall.queue x hx with h | h
      · rw [hqueue] at h
        obtain ⟨y, -, rfl⟩ := List.mem_map.1 h
        split
        · rfl
        · next hne =>
          rw [if_neg hne] at hno
          exact absurd hno hne
      · omega
    · have hl : s2.life = s.life := by rw [hlife, hs1] <;> rfl
      obtain ⟨x, hwait, hk, -⟩ := s2.submit_queues (.sealRec c.no) none (by rw [hl]; exact h4) (by rw [hl]; exact h7)
      exact ⟨x, hend.wait x (by rw [hwait]; exact List.mem_append_right _ (List.mem_singleton.2 rfl)), hk⟩
  case tree =>
    intro hon hthrot hbuild hready hpub
    obtain ⟨h4, h7⟩ := hlives hon
    have hrun : exec .treeBuildDone s = .next (s.treeSigned.submit .treeReady) := by
      refine congrArg Host.Outcome.next (if_neg ?_)
      rw [hon, hthrot, show s.hs.se.building = true from hbuild, show s.hs.se.nextReady = false from hready,
        show s.hs.se.nextPub = [] from hpub]
      decide
    have hse := (s.treeSigned.submit_corded .treeReady none).2
    exact ⟨_, hrun, congrArg SealSt.nextPub hse, State.submit_queues_of_vault .treeReady none rfl h4 h7⟩
  case keys =>
    intro hon hthrot hwarn h4 h7 hkey
    refine ⟨fun hdone hpub => ?_, ?_⟩
    · have hrun : exec .keypairCreated s = .next (s.keysSigned.submit .keyPair) := by
        refine congrArg Host.Outcome.next (if_neg ?_)
        rw [hon, hthrot, hwarn, show s.hs.se.keyRun = true from hkey, show s.hs.se.keyDone = false from hdone, show s.hs.se.pub = [] from hpub]
        decide
      have hse := (s.keysSigned.submit_corded .keyPair none).2
      obtain ⟨hpubs, hcur⟩ := s.keysSigned_pubs
      exact ⟨_, hrun, (congrArg SealSt.pub hse).trans hpubs, (congrArg SealSt.curPub hse).trans hcur,
        State.submit_queues_of_vault .keyPair none rfl h4 h7⟩
    · have hrun : exec .buildProgressSave s = .next (s.submit (.progress (e.built + 4096))) :=
        congrArg Host.Outcome.next (if_neg (by
          rw [hon, hthrot, hwarn, show s.hs.se.keyRun = true from hkey]
          simp))
      exact ⟨_, hrun, (State.submit_corded _ _ _).2, State.submit_queues _ _ _ h4 h7⟩

end Sys2Proof
end

section
/-! Issue boundaries, wake-ups and lockup reports (R67, R145 to R155, R161 to R165, R413). -/

namespace Sys2Proof.Machine

section Boundaries

variable (s : State) (c : CoreId) (t : ThId)

theorem State.stopRuns_cores : s.stopRuns.cores = s.cores := by
  obtain ⟨f, hf⟩ := s.stopRuns_frame
  rw [hf]
  rfl

theorem State.th_of_cores {s q : State} (h : s.cores = q.cores) (c : CoreId) (t : ThId) : s.th c t = q.th c t :=
  congrArg (fun v : Tab Core 16 => (v.get c.toNat).th.get t.toNat) h

/-- A thread that leaves its work for good, and the line fills whose turn comes with it. -/
theorem State.left_th (f : Thread → Thread) :
    (s.modCore c (fun k => ((k.modTh t f).unask (.thread t)).fillTurns)).th c t = f (s.th c t) := by
  rw [State.th, State.core_modCore_self]
  exact Core.th_modTh_self (s.core c) t f

/-- The entry of the level that is pending (R151, R152). -/
def State.eventInfo : EntryInfo :=
  { kind := .event, vec := 23 + s.pendLevel c (s.th c t), arm := s.pendArm c (s.th c t), pushPc := (s.th c t).pc,
    saddr := (s.th c t).pc, mask := some (s.pendLevel c (s.th c t)) }

theorem execEventEntry_of_pending (hat : s.atIssue c t = true) (hstop : (s.th c t).stopReq = false)
    (hhalt : (s.th c t).haltReq = false) (hstep : (s.th c t).step ≠ some true)
    (hp : ((s.th c t).status.extractLsb' 7 3).toNat < s.pendLevel c (s.th c t)) :
    exec (.eventEntry c t) s = .next (s.enter c t (s.eventInfo c t)) := by
  refine congrArg Host.Outcome.next (if_pos ?_)
  rw [hat, hstop, hhalt, maskOf_eq, decide_eq_true hp]
  simpa using hstep

theorem execStopTakesEffect_th (hat : s.atIssue c t = true) (hstop : (s.th c t).stopReq = true) :
    ∃ s', exec (.stopTakesEffect c t) s = .next s' ∧
      s'.th c t = { s.th c t with st := .stopped, why := .none, stopReq := false } := by
  refine ⟨_, congrArg Host.Outcome.next (if_pos (by rw [hat, hstop]; rfl)), ?_⟩
  rw [State.th_of_cores (State.stopRuns_cores _)]
  exact s.left_th c t _

theorem execThreadHalt_th (hat : s.atIssue c t = true ∨ (s.th c t).st = .waiting ∧ s.fclkOn = true)
    (hclk : s.fclkOn = true) (hhalt : (s.th c t).haltReq = true) :
    ∃ s', exec (.threadHalt c t) s = .next s' ∧
      s'.th c t = { s.th c t with st := .halted, why := .none, haltReq := false } := by
  have hnow : ((s.th c t).haltReq && s.fclkOn && (decide ((s.th c t).st = .waiting) || s.atIssue c t)) = true := by
    rw [hhalt, hclk]
    rcases hat with h | ⟨h, -⟩
    · rw [h]; simp
    · rw [h]; simp
  refine ⟨_, congrArg Host.Outcome.next (if_pos hnow), ?_⟩
  rw [State.th_of_cores (State.stopRuns_cores _), State.th_of_cores (State.traceRec_cores _ _ _ _ _ _)]
  exact s.left_th c t _

theorem State.fclkOn_of_coresRun (h : s.coresRun = true) : s.fclkOn = true := by
  unfold State.coresRun at h
  unfold State.fclkOn
  split at h
  · next hlife => simp [hlife, h]
  · next hlife =>
    simp only [Bool.and_eq_true] at h
    simp [hlife, h.2]
  · exact absurd h Bool.false_ne_true

theorem State.fclkOn_of_atIssue (h : s.atIssue c t = true) : s.fclkOn = true := by
  simp only [State.atIssue, State.coreFree, Bool.and_eq_true] at h
  obtain ⟨⟨-, hfree⟩, -⟩ := h
  obtain ⟨⟨⟨⟨hrun, -⟩, -⟩, -⟩, -⟩ := hfree
  exact s.fclkOn_of_coresRun hrun

end Boundaries

/-! ## Waking up (R148, R149) -/

theorem Core.testXfer_th (k : Core) (t : ThId) : ∃ x, ((k.testXfer t).th.get t.toNat) = { k.th.get t.toNat with xfer := x } := by
  unfold Core.testXfer
  split
  · exact ⟨_, rfl⟩
  · exact ⟨_, Core.th_modTh_self _ _ _⟩

/-- A stack is what its depths and its cells are. -/
theorem stackIs_of_window {u v w : Thread} {pops : Nat} {xs : List Cell} (hs : StackIs u v pops xs) (hw : w.w = v.w)
    (hspc : w.spc = v.spc) (htop : w.top = v.top) : StackIs u w pops xs := by
  obtain ⟨hdepth, hspill, hnew, hold⟩ := hs
  exact ⟨hw.trans hdepth, hspc.trans hspill, htop ▸ hnew, htop ▸ hold⟩

theorem Thread.wake_stackIs (u : Thread) (i : Nat) (h : 2 ≤ u.w) :
    if u.why = .bits true then StackIs u (u.wake i) 2 [BitVec.ofNat 24 i] else StackIs u (u.wake i) 1 [] := by
  unfold Thread.wake
  split
  · exact stackIs_of_window (u.popPush_stackIs 2 [BitVec.ofNat 24 i] h (Nat.le_of_ble_eq_true rfl)) rfl rfl rfl
  · exact stackIs_of_window (u.popPush_stackIs 1 [] (by omega) (by decide)) rfl rfl rfl

/-- A thread wakes, and its window and its next line are looked at. -/
def State.woken (s : State) (c : CoreId) (t : ThId) (i : Nat) : State :=
  (s.modCore c (fun k => (k.modTh t (fun v => v.wake i)).testXfer t)).fetchLine c t

theorem State.woken_th (s : State) (c : CoreId) (t : ThId) (i : Nat) :
    ((s.woken c t i).th c t).pc = (s.th c t).pc + 1 ∧ ((s.woken c t i).th c t).why = .none ∧
    ((s.woken c t i).th c t).settled = ((s.th c t).wake i).settled := by
  obtain ⟨b, w, st, hf, -⟩ :=
    (s.modCore c (fun k => (k.modTh t (fun v => v.wake i)).testXfer t)).fetchLine_th_self c t
  obtain ⟨x, hx⟩ := ((s.core c).modTh t (fun v => v.wake i)).testXfer_th t
  rw [Core.th_modTh_self] at hx
  have hq : (s.modCore c (fun k => (k.modTh t (fun v => v.wake i)).testXfer t)).th c t = { (s.th c t).wake i with xfer := x } := by
    rw [State.th, State.core_modCore_self]
    exact hx
  rw [hq] at hf
  rw [State.woken, hf]
  exact ⟨rfl, rfl, rfl⟩

theorem State.execEventBitWake_of_bit (s : State) (c : CoreId) (t : ThId) {a n i : Nat}
    (hon : (s.th c t).waitsOn = some (a, n)) (hrun : s.coresRun = true) (hb : s.boundaryTaken c (s.th c t) = false)
    (hi : i < n) (hbit : s.readBit c (s.th c t) (a + i) = true)
    (hbelow : ∀ j, j < i → s.readBit c (s.th c t) (a + j) = false) :
    exec (.eventBitWake c t) s = .next (s.woken c t i) := by
  have hlow : s.lowBit c (s.th c t) a n = some i := firstIdx_eq_some hi hbit hbelow
  refine congrArg Host.Outcome.next ?_
  simp only [hon, hlow, hrun, hb]
  rfl

theorem Thread.waitsOn_of_bits {u : Thread} {many : Bool} {a n : Nat} (hst : u.st = .waiting) (hwhy : u.why = .bits many)
    (h : (a, n) = (if many then ((u.top 1).toNat, (u.top 0).toNat) else ((u.top 0).toNat, 1))) :
    u.waitsOn = some (a, n) := by
  rw [h, Thread.waitsOn, hst, hwhy]
  cases many with
  | false => rfl
  | true => rfl

/-! ## Lockup reports (R161 to R165) -/

theorem setBit_true_ne_zero (m : BitVec 16) (c : CoreId) : setBit m c.toNat true ≠ 0 := by
  intro hz
  have hbit := getLsbD_setBit_of_lt m c.toNat c.toNat true c.isLt
  rw [hz] at hbit
  simp at hbit

section Reports

variable (s : State) (c : CoreId) (l : Lockup) (h : (s.core c).lockup = some l)
include h

theorem execLockupQuiescent_of_quiescent (hq : (s.core c).quiescent = true) :
    exec (.lockupQuiescent c) s = .next (s.modCore c (fun k => { k with lockup := some { l with quiet := true } })) := by
  refine congrArg Host.Outcome.next ((if_pos hq).trans (State.modCore_congr _ _ _ _ ?_))
  rw [h]
  rfl

theorem execLockupReport_of_up (hup : s.plinkUp = true) :
    ∃ s', exec (.lockupReport c) s = .next s' ∧ (s'.core c).lockup = some { l with reported := true } ∧
      s'.pil.lockups = setBit s.pil.lockups c.toNat true ∧ s'.pil.lockupPin = false := by
  refine ⟨_, congrArg Host.Outcome.next (if_pos (by rw [h, hup]; rfl)), ?_, rfl, ?_⟩
  · have hcore := s.core_modCore_self c (fun k => { k with lockup := k.lockup.map (fun l => { l with reported := true }) })
    exact (congrArg Core.lockup hcore).trans (by rw [h]; rfl)
  · exact decide_eq_false (setBit_true_ne_zero _ c)

theorem execFrozenStateArrival_of_quiet (hquiet : l.quiet = true) (hrep : l.reported = true) (hsent : l.sent = false)
    (hup : s.plinkUp = true) :
    let s1 := s.modCore c (fun k => { k with lockup := some { l with sent := true } })
    (s.noteOk = true → exec (.frozenStateArrival c) s = .next (s1.pilotLog 0x81 ((s.core c).note c l))) ∧
    (s.noteOk = false →
      exec (.frozenStateArrival c) s = .next { s1 with pil := { s1.pil with noteLost := satInc s1.pil.noteLost } }) := by
  have hnow : (l.quiet && l.reported && !l.sent && s.plinkUp) = true := by rw [hquiet, hrep, hsent, hup]; rfl
  refine ⟨fun hok => congrArg Host.Outcome.next ?_, fun hno => congrArg Host.Outcome.next ?_⟩
  · rw [h]
    exact (if_pos hnow).trans (if_pos hok)
  · rw [h]
    exact (if_pos hnow).trans (if_neg (by rw [hno]; exact Bool.false_ne_true))

end Reports

end Sys2Proof.Machine

namespace Sys2Proof

open Machine

/-- Settles O27: an entry, a stop and a halt change their thread and what its slot frees; a wake pops the operands of its
WAIT; a lockup report sets one bit, so LOCKUP_N falls. -/
theorem boundariesAndLockups : Obligations.BoundariesAndLockups := by
  unfold Obligations.BoundariesAndLockups
  refine ⟨fun s c t => ?boundary, fun s c l h => ?lockup⟩
  case boundary =>
    intro u p
    refine ⟨fun hat hstop hhalt hstep hp hroom => ?entry, execStopTakesEffect_th s c t, fun hat hhalt => ?halt, ?wake⟩
    case entry =>
      refine ⟨_, execEventEntry_of_pending s c t hat hstop hhalt hstep hp, ?_⟩
      intro v
      obtain ⟨hpc, hrsp, hrs, hst, hw, hwin, -, -, -, hfr⟩ := Thread.entered_fields (s.enter_th_settled c t _ hroom)
      obtain ⟨hsp, hpush, hpush2⟩ := u.enter_pushes (s.eventInfo c t)
      have hflags := u.enter_flagsAre (s.eventInfo c t) p rfl
      rw [← hst] at hflags
      exact ⟨hpc, hrsp.trans hsp, hfr, hrs ▸ hpush, hrs ▸ hpush2, hflags, hw, hwin⟩
    case halt =>
      refine execThreadHalt_th s c t hat ?_ hhalt
      rcases hat with h | ⟨-, h⟩
      · exact s.fclkOn_of_atIssue c t h
      · exact h
    case wake =>
      intro many a n i hst hwhy hw hrun hb han hi hbit hbelow
      obtain ⟨hpc, hnone, hset⟩ := s.woken_th c t i
      have hstack := Thread.wake_stackIs (s.th c t) i hw
      refine ⟨_, s.execEventBitWake_of_bit c t (Thread.waitsOn_of_bits hst hwhy han) hrun hb hi hbit hbelow, hpc, hnone, ?_⟩
      have hmany : (s.th c t).why = .bits many := hwhy
      cases many with
      | true =>
        rw [if_pos hmany] at hstack
        exact stackIs_of_settled hset hstack
      | false =>
        rw [if_neg (by rw [hmany]; decide)] at hstack
        exact stackIs_of_settled hset hstack
  case lockup =>
    exact ⟨execLockupQuiescent_of_quiescent s c l h, execLockupReport_of_up s c l h,
      execFrozenStateArrival_of_quiet s c l h⟩

end Sys2Proof
end

section
/-! Cells of the memories of a core, and the threads of a core whose waits end (R77, R81, R88, R105). -/

namespace Sys2Proof.Machine

/-! ## The requests for context swaps -/

section Frames

variable (s : State) (c : CoreId)

@[simp] theorem State.swapAsk_data (t : ThId) : (s.swapAsk c t).data = s.data := by
  have hretry : ∀ q : State, (q.modCore c Core.retry).data = q.data := fun q => q.data_modCore c _ (Core.retry_data _)
  have hflush : (s.modTh c t Thread.flushProducts).data = s.data := s.data_modTh c t _ (fun _ => rfl)
  unfold State.swapAsk
  dsimp only
  split
  · split
    · rfl
    · split
      · exact (State.data_modCore _ c _ rfl).trans hflush
      · rw [State.swapFault, hretry, State.raise_data]
        refine (State.data_modTh _ c t _ ?_).trans hflush
        exact fun _ => rfl
  · rfl

@[simp] theorem State.swapsAsk_data : (s.swapsAsk c).data = s.data :=
  State.foldl_data _ (fun q i => q.swapAsk_data c (BitVec.ofNat 3 i)) _ _

/-! ## What two states with the same data share -/

variable {s} {q : State} (h : s.data = q.data)
include h

theorem State.core_of_data : (s.core c).data = (q.core c).data := by
  have hcores : s.cores.map Core.data = q.cores.map Core.data := congrArg Prod.fst h
  have hget := congrArg (fun v : Tab Core 16 => v.get c.toNat) hcores
  exact (Tab.get_map _ _ _ c.isLt).symm.trans (hget.trans (Tab.get_map _ _ _ c.isLt))

theorem State.th_of_data (t : ThId) : (s.th c t).data = (q.th c t).data := by
  have hth : (s.core c).th.map Thread.data = (q.core c).th.map Thread.data := by
    have x := congrArg Core.th (State.core_of_data c h); exact x
  have hget := congrArg (fun v : Tab Thread 8 => v.get t.toNat) hth
  exact (Tab.get_map _ _ _ t.isLt).symm.trans (hget.trans (Tab.get_map _ _ _ t.isLt))

theorem State.sb_of_data : (s.core c).sb = (q.core c).sb := by
  have x := congrArg Core.sb (State.core_of_data c h); exact x

theorem State.cellMem_of_data (a : Nat) : s.cellMem c a = q.cellMem c a := by
  have hl : (s.core c).lmem = (q.core c).lmem := by have x := congrArg Core.lmem (State.core_of_data c h); exact x
  have hsh : s.fb.shared = q.fb.shared := congrArg (fun p => p.2.2.1) h
  have he : s.fb.ember = q.fb.ember := congrArg (fun p => p.2.2.2) h
  unfold State.cellMem
  rw [hl, hsh, he]

end Frames

/-! ## Cells of local and shared memory -/

/-- A cell of local or shared memory. -/
def plainCell (a : Nat) : Prop := region a = .local_ ∨ region a = .shared

theorem isDev_of_plain {a : Nat} (h : plainCell a) : isDev a = false := by
  rw [Bool.eq_false_iff]
  intro hdev
  simp only [isDev, Bool.and_eq_true, decide_eq_true_eq] at hdev
  obtain ⟨hlo, hhi⟩ := hdev
  rw [plainCell, region, if_neg (by omega), if_neg (by omega)] at h
  split_ifs at h <;> simp at h

section Cells

variable (s : State) (c : CoreId)

theorem State.linkDead_of_plain {a : Nat} (h : plainCell a) : s.linkDead a = false := by
  unfold State.linkDead
  rcases h with h | h <;> rw [h]

theorem State.accWaits_of_plain {a : Nat} (h : plainCell a) : s.accWaits c a = s.lineHeldByOther c a := by
  unfold State.accWaits
  rcases h with h | h <;> rw [h] <;> exact Bool.false_or _

theorem State.readEffect_of_plain {a : Nat} (h : plainCell a) : s.readEffect c a = s := by
  have hdev := isDev_of_plain h
  unfold State.readEffect
  rw [if_neg (fun e => absurd hdev (by rw [e]; decide)), if_neg (fun e => absurd hdev (by rw [e]; decide))]

/-- The memories that core `c` writes are in canonical form. -/
def State.cellsWf : Prop := Memory.wf (s.core c).lmem = true ∧ Memory.wf s.fb.shared = true

theorem State.putCellMem_local {a : Nat} (h : region a = .local_) (v : Cell) :
    s.putCellMem c a v = s.modCore c (fun k => { k with lmem := memWrite k.lmem a v }) := by
  unfold State.putCellMem; rw [h]

theorem State.putCellMem_shared {a : Nat} (h : region a = .shared) (v : Cell) :
    s.putCellMem c a v = s.modFb (fun f => { f with shared := memWrite f.shared a v }) := by
  unfold State.putCellMem; rw [h]

theorem State.cellsWf_putCellMem (h : s.cellsWf c) (a : Nat) (v : Cell) : (s.putCellMem c a v).cellsWf c := by
  obtain ⟨hl, hsh⟩ := h
  unfold State.putCellMem
  split
  · exact ⟨by rw [State.core_modCore_self]; exact Memory.wf_memWrite _ _ _ hl, hsh⟩
  · exact ⟨hl, Memory.wf_memWrite _ _ _ hsh⟩
  · exact ⟨hl, hsh⟩

/-- A cell of local or shared memory that is written reads back, and every other cell stays. -/
theorem State.cellMem_putCellMem (h : s.cellsWf c) {a : Nat} (ha : plainCell a) (v : Cell) (x : Nat) :
    (s.putCellMem c a v).cellMem c x = if x = a then v else s.cellMem c x := by
  obtain ⟨hl, hsh⟩ := h
  rcases ha with hr | hr
  · rw [State.putCellMem_local s c hr]
    unfold State.cellMem
    rw [State.core_modCore_self]
    by_cases hx : x = a
    · rw [hx, hr, if_pos rfl]
      exact (memRead_memWrite_wf _ _ _ _ hl).trans (if_pos rfl)
    · rw [if_neg hx, memRead_memWrite_wf _ _ _ _ hl, if_neg hx]; rfl
  · rw [State.putCellMem_shared s c hr]
    unfold State.cellMem
    by_cases hx : x = a
    · rw [hx, hr, if_pos rfl]
      exact (memRead_memWrite_wf _ _ _ _ hsh).trans (if_pos rfl)
    · rw [if_neg hx]
      split
      · rfl
      · exact (memRead_memWrite_wf _ _ _ _ hsh).trans (if_neg hx)
      · rfl
      · rfl

theorem State.putCellMem_core_frame (a : Nat) (v : Cell) :
    ((s.putCellMem c a v).core c).th = (s.core c).th ∧ ((s.putCellMem c a v).core c).sb = (s.core c).sb ∧
    ((s.putCellMem c a v).core c).bell = (s.core c).bell := by
  unfold State.putCellMem
  split
  · rw [State.core_modCore_self]; exact ⟨rfl, rfl, rfl⟩
  · exact ⟨rfl, rfl, rfl⟩
  · exact ⟨rfl, rfl, rfl⟩

end Cells

/-! ## The end of a thread's wait -/

theorem Thread.settle_eq (u : Thread) : ∃ st, u.settle = { u with st := st } := by
  unfold Thread.settle
  split
  · exact ⟨_, rfl⟩
  · exact ⟨_, rfl⟩

/-- A thread that is not held for a resource is left alone when one is freed. -/
theorem Core.retry_th (k : Core) (t : ThId) (h : (k.th.get t.toNat).why.held = false) :
    k.retry.th.get t.toNat = k.th.get t.toNat := by
  refine (Tab.get_map k.fillTurns.th _ _ t.isLt).trans ?_
  exact if_neg (by rw [show (k.fillTurns.th.get t.toNat).why.held = false from h]; exact Bool.false_ne_true)

section Waits

variable (s : State) (c : CoreId) (t : ThId) (f : Thread → Thread)

theorem State.waitOver_th : ∃ st x,
    (s.waitOver c t f).th c t = { f (s.th c t) with why := .none, st := st, xfer := x } := by
  obtain ⟨st, hst⟩ := Thread.settle_eq { f (s.th c t) with why := .none }
  obtain ⟨x, hx⟩ := ((s.core c).modTh t (fun u => ({ (f u) with why := .none }).settle)).testXfer_th t
  rw [Core.th_modTh_self, show (s.core c).th.get t.toNat = s.th c t from rfl, hst] at hx
  refine ⟨st, x, ?_⟩
  rw [State.waitOver, State.th, State.core_modCore_self]
  exact (Core.retry_th _ t (by rw [hx]; rfl)).trans hx

theorem State.waitOver_others (d : CoreId) (h : d ≠ c) : (s.waitOver c t f).core d = s.core d :=
  State.core_modCore_ne s c d _ h.symm

end Waits

end Sys2Proof.Machine
end

section
/-! Loads that complete and stores that drain (R77, R81, R84, R88, R105, R113, R214, R475). -/

namespace Sys2Proof.Machine

/-! ## Loads (R77, R105) -/

section Loads

variable {s : State} {c : CoreId} {t : ThId} {k : LoadKind} {a : Cell} {pc : PAddr} {upto : Nat}

theorem loCell_eq (d : Dbl) : loCell d = d.setWidth 24 := by
  have h := dblCells_eq d
  exact (List.cons.inj h).1

theorem hiCell_eq (d : Dbl) : hiCell d = d.extractLsb' 24 24 := by
  have h := dblCells_eq d
  exact (List.cons.inj (List.cons.inj h).2).1

/-- What a load of kind `k` puts on the stack, its top first (R105). -/
theorem LoadKind.pushes_reverse (k : LoadKind) (a : Cell) (v : Dbl) : (k.pushes a v).reverse = (match k with
    | .cell => [v.setWidth 24]
    | .dbl => [v.extractLsb' 24 24, v.setWidth 24]
    | .tineS => [(v.setWidth 12).signExtend 24]
    | .tineU => [(v.setWidth 12).setWidth 24]
    | .post => [a + 1, v.setWidth 24]) := by
  cases k <;> simp [LoadKind.pushes, loCell_eq, hiCell_eq]

theorem LoadKind.pushes_length (k : LoadKind) (a : Cell) (v : Dbl) : (k.pushes a v).length ≤ 32 := by
  cases k <;> simp [LoadKind.pushes]

/-- The state in which a load has replaced its operand by what it reads. -/
def State.loadServed (s : State) (c : CoreId) (t : ThId) (k : LoadKind) (a : Cell) : State :=
  s.waitOver c t (fun u => u.popPush 1 (k.pushes a (s.loadBits c k a)))

theorem State.loadDone_of_dead (hclk : s.fclkOn = true) (hwhy : (s.th c t).why = .load k a pc upto)
    (hd : drained (s.core c).sb upto = true) (hdead : s.linkDead (k.cellAddr a) = true) :
    s.loadDone c t =
      ((s.modTh c t (fun u => { u with why := .none })).raise c t .buserr pc a).modCore c Core.retry := by
  unfold State.loadDone
  simp only [hwhy, hclk, hd, hdead]
  rfl

theorem State.loadDone_of_free (hclk : s.fclkOn = true) (hwhy : (s.th c t).why = .load k a pc upto)
    (hd : drained (s.core c).sb upto = true) (hdead : s.linkDead (k.cellAddr a) = false)
    (hfree : s.accWaits c (k.cellAddr a) = false) :
    s.loadDone c t = (s.loadServed c t k a).readEffect c (k.cellAddr a) := by
  unfold State.loadDone
  simp only [hwhy, hclk, hd, hdead, hfree]
  rfl

theorem State.loadsCell_of_load (hwhy : (s.th c t).why = .load k a pc upto) {b : Nat} (h : k.cellAddr a = b) :
    s.loadsCell c t b = true := by
  unfold State.loadsCell
  rw [hwhy]
  exact decide_eq_true h

theorem State.loadServed_th (h : 1 ≤ (s.th c t).w) :
    StackIs (s.th c t) ((s.loadServed c t k a).th c t) 1 (k.pushes a (s.loadBits c k a)).reverse ∧
    ((s.loadServed c t k a).th c t).why = .none ∧ ((s.loadServed c t k a).th c t).pc = (s.th c t).pc ∧
    ((s.loadServed c t k a).th c t).status = (s.th c t).status := by
  obtain ⟨st, x, hx⟩ := s.waitOver_th c t (fun u => u.popPush 1 (k.pushes a (s.loadBits c k a)))
  have harch := (s.th c t).popPush_arch 1 (k.pushes a (s.loadBits c k a))
  have hpc := congrArg Thread.pc harch
  have hstatus := congrArg Thread.status harch
  rw [State.loadServed, hx]
  exact ⟨stackIs_of_window (Thread.popPush_stackIs _ 1 _ h (k.pushes_length a _)) rfl rfl rfl, rfl, hpc, hstatus⟩

end Loads

/-! ## Deferred loads (R88) -/

section Deferred

variable (s : State) (c : CoreId) (t : ThId)

theorem latchRead_of_unread (v : Cell) {r : List DLoad} (h : ∀ e, e ∈ r → e.v = none) : latchRead v r = (v, r) := by
  cases r with
  | nil => rfl
  | cons d r => rw [latchRead, h d List.mem_cons_self]

/-- The latch and the outstanding deferred loads of a thread, after the waits of its core have been looked at. -/
theorem Core.fences_latch (k : Core) (h : (k.th.get t.toNat).dl = [] ∨ ∀ n, (k.th.get t.toNat).why ≠ .deferred n) :
    (k.fences.th.get t.toNat).ll = (k.th.get t.toNat).ll ∧ (k.fences.th.get t.toNat).dl = (k.th.get t.toNat).dl := by
  have hget : k.fences.th.get t.toNat = _ := Tab.get_map k.th _ _ t.isLt
  rw [hget]
  split
  · next n hn =>
    split
    · obtain ⟨st, hst⟩ := Thread.settle_eq { (k.th.get t.toNat).deferredReady k.lmem with why := .none }
      have hdl : (k.th.get t.toNat).dl = [] := h.resolve_right (fun hno => hno n hn)
      have hself : (k.th.get t.toNat).deferredReady k.lmem = k.th.get t.toNat := by
        unfold Thread.deferredReady
        rw [hdl]
        rfl
      rw [hst, hself]
      exact ⟨rfl, rfl⟩
    · exact ⟨rfl, rfl⟩
  · split
    · obtain ⟨st, hst⟩ := Thread.settle_eq { k.th.get t.toNat with why := .none }
      rw [hst]
      exact ⟨rfl, rfl⟩
    · exact ⟨rfl, rfl⟩
  · exact ⟨rfl, rfl⟩

theorem Core.retry_latch (k : Core) :
    (k.retry.th.get t.toNat).ll = (k.th.get t.toNat).ll ∧ (k.retry.th.get t.toNat).dl = (k.th.get t.toNat).dl := by
  have hget : k.retry.th.get t.toNat = _ := Tab.get_map k.fillTurns.th _ _ t.isLt
  rw [hget]
  split
  · obtain ⟨st, hst⟩ := Thread.settle_eq { k.fillTurns.th.get t.toNat with why := .none }
    rw [hst]
    exact ⟨rfl, rfl⟩
  · exact ⟨rfl, rfl⟩

/-- The oldest deferred load of a thread is over: its latch and the loads that are left. -/
def State.latched (s : State) (c : CoreId) (t : ThId) (p : Cell × List DLoad) : State :=
  s.modCore c (fun k => ((((k.modTh t (fun u => { u with ll := p.1, dl := p.2 })).pushlls t).fences).retry))

theorem State.latched_th (p : Cell × List DLoad) (hpush : (s.th c t).why ≠ .pushll)
    (h : p.2 = [] ∨ ∀ n, (s.th c t).why ≠ .deferred n) :
    ((s.latched c t p).th c t).ll = p.1 ∧ ((s.latched c t p).th c t).dl = p.2 := by
  have hth := Core.th_modTh_self (s.core c) t (fun u => { u with ll := p.1, dl := p.2 })
  have hno : ((s.core c).modTh t (fun u => { u with ll := p.1, dl := p.2 })).pushlls t =
      (s.core c).modTh t (fun u => { u with ll := p.1, dl := p.2 }) := by
    refine if_neg ?_
    rw [hth, show ({ (s.core c).th.get t.toNat with ll := p.1, dl := p.2 } : Thread).why = (s.th c t).why from rfl,
      decide_eq_false hpush]
    exact Bool.false_ne_true
  have hf := Core.fences_latch t ((s.core c).modTh t (fun u => { u with ll := p.1, dl := p.2 })) (by rw [hth]; exact h)
  have hr := Core.retry_latch t ((s.core c).modTh t (fun u => { u with ll := p.1, dl := p.2 })).fences
  rw [hth] at hf
  rw [State.latched, State.th, State.core_modCore_self, hno]
  exact ⟨hr.1.trans hf.1, hr.2.trans hf.2⟩

theorem State.loadBits_of_plain {a : Cell} (h : plainCell a.toNat) : loCell (s.loadBits c .cell a) = s.cellMem c a.toNat := by
  have hdev : isDev (LoadKind.cell.cellAddr a) = false := isDev_of_plain h
  unfold State.loadBits
  dsimp only
  rw [hdev, loCell_eq]
  show ((s.cellMem c a.toNat).setWidth 48).setWidth 24 = _
  simp

variable {s c t} {d : DLoad} {r : List DLoad}

theorem execDeferredLoadComplete_of_plain (hclk : s.fclkOn = true) (hdl : (s.th c t).dl = d :: r)
    (hacc : s.accWaits c d.a.toNat = false) (hdr : drained (s.core c).sb d.upto = true) (hp : plainCell d.a.toNat) :
    exec (.deferredLoadComplete c t) s =
      .next ((s.latched c t (latchRead (s.cellMem c d.a.toNat) r)).swapsAsk c) := by
  refine congrArg Host.Outcome.next ?_
  have hgo : (!s.fclkOn || s.accWaits c d.a.toNat || !drained (s.core c).sb d.upto) = false := by rw [hclk, hacc, hdr]; rfl
  simp only [hdl, hgo, s.linkDead_of_plain hp, State.readEffect_of_plain _ _ hp, s.loadBits_of_plain c hp]
  rfl

theorem execDeferredLoadComplete_th (hclk : s.fclkOn = true) (hdl : (s.th c t).dl = d :: r)
    (hacc : s.accWaits c d.a.toNat = false) (hdr : drained (s.core c).sb d.upto = true) (hpush : (s.th c t).why ≠ .pushll)
    (hp : plainCell d.a.toNat) :
    ∃ s', exec (.deferredLoadComplete c t) s = .next s' ∧
      ((∀ e, e ∈ r → e.v = none) → (∀ n, (s.th c t).why ≠ .deferred n) →
        (s'.th c t).ll = s.cellMem c d.a.toNat ∧ (s'.th c t).dl = r) ∧
      (∀ e x, r = [e] → e.v = some x → (s'.th c t).ll = x ∧ (s'.th c t).dl = []) := by
  refine ⟨_, execDeferredLoadComplete_of_plain hclk hdl hacc hdr hp, ?_⟩
  have hdata := State.th_of_data c ((s.latched c t (latchRead (s.cellMem c d.a.toNat) r)).swapsAsk_data c) t
  have hll := congrArg Thread.ll hdata
  have hdl' := congrArg Thread.dl hdata
  refine ⟨fun hun hno => ?_, fun e x he hx => ?_⟩
  · obtain ⟨h1, h2⟩ := s.latched_th c t (latchRead (s.cellMem c d.a.toNat) r) hpush (Or.inr hno)
    rw [latchRead_of_unread _ hun] at h1 h2 hll hdl' ⊢
    exact ⟨hll.trans h1, hdl'.trans h2⟩
  · have hread : latchRead (s.cellMem c d.a.toNat) r = (x, []) := by rw [he, latchRead, hx]; rfl
    rw [hread] at hll hdl' ⊢
    obtain ⟨h1, h2⟩ := s.latched_th c t (x, []) hpush (Or.inl rfl)
    exact ⟨hll.trans h1, hdl'.trans h2⟩

end Deferred

/-! ## The effects of reads (R214, R475) -/

theorem State.readEffect_facts (s : State) (c : CoreId) (x : Nat) : (s.readEffect c x).fb.prog = s.fb.prog ∧
    (x = 0x0F00E4 → ((s.readEffect c x).core c).embq = (s.core c).embq.tail) ∧
    (x = 0x0F1006 → (s.readEffect c x).pil.ph.jumpCourse = false ∧ (s.readEffect c x).pil.ph.jumpCrank = false) ∧
    (x ≠ 0x0F00E4 → x ≠ 0x0F1006 → s.readEffect c x = s) := by
  refine ⟨?_, fun h => ?_, fun h => ?_, fun h1 h2 => (if_neg h1).trans (if_neg h2)⟩
  · unfold State.readEffect
    split
    · rfl
    · split
      · rfl
      · rfl
  · rw [State.readEffect, if_pos h, State.core_modCore_self]
    exact List.drop_one
  · rw [State.readEffect, if_neg (by rw [h]; decide), if_pos h]
    exact ⟨rfl, rfl⟩

/-! ## Stores that drain (R81, R84) -/

section Drain

variable (s : State) (c : CoreId) (e : SEntry)

/-- The cells that a store-buffer entry leaves in local and shared memory (R81). -/
def SEntry.writes (e : SEntry) (m : Nat → Cell) (x : Nat) : Cell :=
  match e.size with
  | .cell => if x = e.a.toNat then e.v.setWidth 24 else m x
  | .dbl => if x = e.a.toNat then e.v.setWidth 24 else if x = e.a.toNat + 1 then e.v.extractLsb' 24 24 else m x
  | .tine h => if x = e.a.toNat then setField (m e.a.toNat) (if h then 12 else 0) 12 e.v.toNat else m x

theorem State.cellMem_applyStore (hwf : s.cellsWf c) (ha : plainCell e.a.toNat)
    (hd : e.size = .dbl → plainCell (e.a.toNat + 1)) (x : Nat) :
    (s.applyStore c e).cellMem c x = e.writes (s.cellMem c) x := by
  have hdead : ¬ s.linkDead e.a.toNat = true := by rw [s.linkDead_of_plain ha]; exact Bool.false_ne_true
  have hdev : ¬ isDev e.a.toNat = true := by rw [isDev_of_plain ha]; exact Bool.false_ne_true
  unfold State.applyStore SEntry.writes
  simp only [if_neg hdead, if_neg hdev]
  cases hz : e.size with
  | cell =>
    simp only []
    rw [s.cellMem_putCellMem c hwf ha, loCell_eq]
  | dbl =>
    simp only []
    rw [State.cellMem_putCellMem _ c (s.cellsWf_putCellMem c hwf _ _) (hd hz), s.cellMem_putCellMem c hwf ha,
      loCell_eq, hiCell_eq]
    by_cases h0 : x = e.a.toNat
    · rw [if_neg (by omega), if_pos h0, if_pos h0]
    · rw [if_neg h0, if_neg h0]
  | tine h =>
    simp only []
    rw [s.cellMem_putCellMem c hwf ha]
    cases h with
    | false => rfl
    | true => rfl

/-- The waits of a core are looked at, once the head of its store buffer has drained. -/
def Core.headGone (r : List SEntry) (k : Core) : Core := ({ k with sb := r }).fences.retry

theorem State.headGone_frame (r : List SEntry) :
    ((((s.modCore c (Core.headGone r)).releaseLines c).swapsAsk c).core c).sb = r ∧
    ∀ x, (((s.modCore c (Core.headGone r)).releaseLines c).swapsAsk c).cellMem c x = s.cellMem c x := by
  have hdata := ((s.modCore c (Core.headGone r)).releaseLines c).swapsAsk_data c
  have hcore : ((s.modCore c (Core.headGone r)).releaseLines c).core c = Core.headGone r (s.core c) :=
    s.core_modCore_self c _
  refine ⟨(State.sb_of_data c hdata).trans ?_, fun x => (State.cellMem_of_data c hdata x).trans ?_⟩
  · rw [hcore]; rfl
  · unfold State.cellMem
    rw [hcore]
    rfl

theorem execStoreDrain_of_plain {r : List SEntry} (hclk : s.fclkOn = true) (hsb : (s.core c).sb = e :: r)
    (hline : s.lineHeldByOther c e.a.toNat = false) (ha : plainCell e.a.toNat) :
    exec (.storeDrain c) s =
      .next ((((s.applyStore c e).modCore c (Core.headGone r)).releaseLines c).swapsAsk c) := by
  refine congrArg Host.Outcome.next ?_
  have hgo : (!s.fclkOn || s.accWaits c e.a.toNat) = false := by rw [hclk, s.accWaits_of_plain c ha, hline]; rfl
  simp only [hsb, hgo]
  rfl

end Drain

end Sys2Proof.Machine

namespace Sys2Proof

open Machine

/-- Settles O24: a load that completes ends the wait of its thread, a deferred load writes the latch, and what a drained
store makes the core look at again changes no cell. -/
theorem loadsAndStoresComplete : Obligations.LoadsAndStoresComplete := by
  unfold Obligations.LoadsAndStoresComplete
  refine ⟨fun s c t => ?loads, fun s c e r => ?drain⟩
  case loads =>
    intro u
    refine ⟨fun k a pc upto hclk hwhy hd hw => ?load, fun d r hclk hdl hacc hdr hpush hp =>
      execDeferredLoadComplete_th hclk hdl hacc hdr hpush hp, s.readEffect_facts c⟩
    case load =>
      intro b v reads
      refine ⟨fun hdead hfree => ?_, fun hdead => congrArg Host.Outcome.next (State.loadDone_of_dead hclk hwhy hd hdead)⟩
      have hreads : ∀ i, exec i s = .next (s.loadDone c t) → reads i := by
        intro i hi
        obtain ⟨hstack, hnone, hpc, hst⟩ := State.loadServed_th (k := k) (a := a) hw
        rw [k.pushes_reverse] at hstack
        refine ⟨s.loadServed c t k a, hi.trans (congrArg Host.Outcome.next (State.loadDone_of_free hclk hwhy hd hdead hfree)),
          hstack, ?_, hpc, hst, rfl, s.waitOver_others c t _⟩
        rw [hnone, show u.why = _ from hwhy]
        exact fun h => Why.noConfusion h
      exact ⟨hreads _ rfl,
        fun hb => hreads _ (congrArg Host.Outcome.next (if_pos (State.loadsCell_of_load hwhy hb))),
        fun hb => hreads _ (congrArg Host.Outcome.next (if_pos (State.loadsCell_of_load hwhy hb)))⟩
  case drain =>
    intro a plain hclk hsb hline ha hdbl hl hsh
    obtain ⟨hgone, hcells⟩ := (s.applyStore c e).headGone_frame c r
    exact ⟨_, execStoreDrain_of_plain s c e hclk hsb hline ha, hgone, fun x hx =>
      (hcells x).trans (s.cellMem_applyStore c e ⟨hl, hsh⟩ ha hdbl x)⟩

end Sys2Proof
end

section
/-! Line fills, lock grants and window transfers (R73, R74, R113, R116, R125 to R127, R129, R132). -/

namespace Sys2Proof.Machine

/-! ## Line fills (R73, R74) -/

theorem mem_of_mem_grantFills {l : BitVec 16} : ∀ (q : List SlotReq) (n : Nat), l ∈ (grantFills q n).1 → .fill l ∈ q := by
  intro q
  induction q with
  | nil => intro n h; exact absurd h (List.not_mem_nil)
  | cons r q ih =>
    intro n h
    cases n with
    | zero => exact absurd h (by cases r <;> exact List.not_mem_nil)
    | succ n =>
      cases r with
      | fill x =>
        rcases List.mem_cons.1 h with rfl | h
        · exact List.mem_cons_self
        · exact List.mem_cons_of_mem _ (ih n h)
      | thread x => exact List.mem_cons_of_mem _ (ih n h)
      | bell => exact List.mem_cons_of_mem _ (ih n h)

section LineFill

variable (s : State) (c : CoreId) (line : BitVec 16)

/-- A thread that waits for the line has it. -/
def Thread.lineCame (d : Tab Syl 16) (u : Thread) : Thread :=
  if u.want = some line then ({ u with want := none, buf := some { line := line, data := d } }).settle else u

/-- A core into whose I-cache a line has come, before what waited for its slot is looked at. -/
def Core.lineCame (d : Tab Syl 16) (k : Core) : Core :=
  { ((k.mapTh (Thread.lineCame line d)).unask (.fill line)) with
    icache := icFill k.icache k.icLock.toNat line d, fills := k.fills.filter (· ≠ line) }

theorem State.fillLine_core : (s.fillLine c line).core c = (Core.lineCame line (s.lineData line) (s.core c)).retry :=
  s.core_modCore_self c _

theorem Core.lineCame_fills (d : Tab Syl 16) (k : Core) : line ∉ (Core.lineCame line d k).retry.fills := by
  intro h
  rcases List.mem_append.1 (show line ∈ (Core.lineCame line d k).fills ++ _ from h) with h | h
  · simp [Core.lineCame] at h
  · have hq := mem_of_mem_grantFills _ _ h
    simp [Core.lineCame, Core.unask] at hq

theorem Core.lineCame_th (d : Tab Syl 16) (k : Core) {i : Nat} (hi : i < 8) (hw : (k.th.get i).want = some line) :
    ((Core.lineCame line d k).retry.th.get i).want = none ∧
    ((Core.lineCame line d k).retry.th.get i).buf = some { line := line, data := d } := by
  have hcame : (Core.lineCame line d k).th.get i = Thread.lineCame line d (k.th.get i) := Tab.get_map _ _ _ hi
  obtain ⟨st, hst⟩ := Thread.settle_eq { k.th.get i with want := none, buf := some { line := line, data := d } }
  rw [Thread.lineCame, if_pos hw, hst] at hcame
  have hretry : (Core.lineCame line d k).retry.th.get i = _ := Tab.get_map (Core.lineCame line d k).fillTurns.th _ _ hi
  rw [hretry, show (Core.lineCame line d k).fillTurns.th.get i = _ from hcame]
  split
  · obtain ⟨st', hst'⟩ := Thread.settle_eq
      { k.th.get i with want := none, buf := some { line := line, data := d }, st := st, why := .none }
    rw [hst']
    exact ⟨rfl, rfl⟩
  · exact ⟨rfl, rfl⟩

theorem execLineFillComplete_of_fill (hclk : s.fclkOn = true) (h : line ∈ (s.core c).fills) :
    exec (.lineFillComplete c line) s = .next (s.fillLine c line) :=
  congrArg Host.Outcome.next (if_pos (by rw [hclk, List.contains_iff_mem.2 h]; rfl))

theorem execLineFillComplete_fills (hclk : s.fclkOn = true) (h : line ∈ (s.core c).fills) :
    ∃ s', exec (.lineFillComplete c line) s = .next s' ∧ line ∉ (s'.core c).fills ∧
      (∃ way, (s'.core c).icache.head? = some { way := way, line := line, data := s.lineData line }) ∧
      ∀ i, i < 8 → ((s.core c).th.get i).want = some line →
        ((s'.core c).th.get i).want = none ∧ ((s'.core c).th.get i).buf = some { line := line, data := s.lineData line } := by
  refine ⟨_, execLineFillComplete_of_fill s c line hclk h, ?_⟩
  rw [s.fillLine_core c line]
  exact ⟨Core.lineCame_fills line _ _, ⟨_, rfl⟩, fun i hi hw => Core.lineCame_th line _ _ hi hw⟩

end LineFill

/-! ## Lock grants (R113, R116) -/

section Grant

variable (s : State) (line : BitVec 18) (h : Hold)

/-- The core that held the line last; a line that none has held starts at core 0. -/
def State.lastOn : Nat := match s.fb.lastHold.find? (fun p => p.1 = line) with | some p => p.2.toNat | none => 15

/-- How many cores come before `x` on the line, counted from the one after its last holder. -/
def State.turnAt (x : Hold) : Nat := (x.core.toNat + 15 - s.lastOn line) % 16

/-- `x` waits for the line with the core that is `i` after the one after its last holder. -/
def State.wantAt (i : Nat) (x : Hold) : Bool := x.line = line && x.core.toNat = (s.lastOn line + 1 + i) % 16

theorem State.turnOf_eq : s.turnOf line = (match firstIdx (fun i => s.fb.wants.any (s.wantAt line i)) 16 with
    | some i => s.fb.wants.find? (s.wantAt line i)
    | none => none) := by
  unfold State.turnOf State.wantAt State.lastOn
  rfl

theorem State.wantAt_iff {i : Nat} (hi : i < 16) (x : Hold) :
    s.wantAt line i x = true ↔ x.line = line ∧ s.turnAt line x = i := by
  have hlast : s.lastOn line < 16 := by
    unfold State.lastOn
    split
    · exact BitVec.isLt _
    · decide
  have hx := x.core.isLt
  have hcore : x.core.toNat = (s.lastOn line + 1 + i) % 16 ↔ s.turnAt line x = i := by
    unfold State.turnAt
    omega
  simp only [State.wantAt, Bool.and_eq_true, decide_eq_true_eq, hcore]

variable {s line h}

theorem State.turnOf_of_first (hm : h ∈ s.fb.wants) (hl : h.line = line)
    (hfirst : ∀ x, x ∈ s.fb.wants → x.line = line → s.turnAt line h ≤ s.turnAt line x ∧ (x.core = h.core → x = h)) :
    s.turnOf line = some h := by
  have hlt : ∀ x, s.turnAt line x < 16 := fun x => Nat.mod_lt _ (by decide)
  have hown : s.wantAt line (s.turnAt line h) h = true := (s.wantAt_iff line (hlt h) h).2 ⟨hl, rfl⟩
  have hidx : firstIdx (fun i => s.fb.wants.any (s.wantAt line i)) 16 = some (s.turnAt line h) := by
    refine firstIdx_eq_some (hlt h) (List.any_eq_true.2 ⟨h, hm, hown⟩) (fun j hj => ?_)
    refine List.any_eq_false.2 (fun x hx hat => ?_)
    obtain ⟨hxl, hxt⟩ := (s.wantAt_iff line (Nat.lt_trans hj (hlt h)) x).1 hat
    have hle := (hfirst x hx hxl).1
    omega
  rw [State.turnOf_eq, hidx]
  change s.fb.wants.find? (s.wantAt line (s.turnAt line h)) = some h
  cases hfind : s.fb.wants.find? (s.wantAt line (s.turnAt line h)) with
  | none => exact absurd hown (List.find?_eq_none.1 hfind h hm)
  | some x =>
    have hat := List.find?_some hfind
    have hxm := List.mem_of_find?_eq_some hfind
    obtain ⟨hxl, -⟩ := (s.wantAt_iff line (hlt h) x).1 hat
    have hcore : x.core = h.core := by
      simp only [State.wantAt, Bool.and_eq_true, decide_eq_true_eq] at hat hown
      exact BitVec.eq_of_toNat_eq (hat.2.trans hown.2.symm)
    exact congrArg some ((hfirst x hxm hxl).2 hcore)

theorem State.nextHold_of_turn (ht : s.turnOf line = some h)
    (hfree : ∀ x, x ∈ s.fb.holds → x.line = line → x.core = h.core) : s.nextHold line = some h := by
  unfold State.nextHold
  rw [ht]
  refine if_neg ?_
  simp only [List.any_eq_true, Bool.and_eq_true, decide_eq_true_eq, not_exists, not_and]
  exact fun x hx hxl hne => hne (hfree x hx hxl)

variable (s line h)

/-- The line is the want's: it holds it, as the last to do so. -/
def State.lineGiven : State :=
  s.modFb (fun f =>
    { f with wants := f.wants.filter (fun x => !(x.line = line && x.core = h.core && x.th = h.th)), holds := f.holds ++ [h],
             lastHold := (line, h.core) :: f.lastHold.filter (fun p => p.1 ≠ line) })

variable {s line h}

theorem execLockGrant_of_next (hclk : s.fclkOn = true) (hn : s.nextHold line = some h) :
    exec (.lockGrant line) s = .next ((s.lineGiven line h).waitOver h.core h.th id) := by
  refine congrArg Host.Outcome.next ?_
  rw [hn]
  exact if_neg (by rw [hclk]; exact Bool.false_ne_true)

theorem execLockGrant_holds (hclk : s.fclkOn = true) (hm : h ∈ s.fb.wants) (hl : h.line = line)
    (hfirst : ∀ x, x ∈ s.fb.wants → x.line = line → s.turnAt line h ≤ s.turnAt line x ∧ (x.core = h.core → x = h))
    (hfree : ∀ x, x ∈ s.fb.holds → x.line = line → x.core = h.core) :
    ∃ s', exec (.lockGrant line) s = .next s' ∧ h ∈ s'.fb.holds ∧ h ∉ s'.fb.wants ∧
      s'.fb.lastHold.find? (fun p => p.1 = line) = some (line, h.core) ∧ (s'.th h.core h.th).why = .none := by
  refine ⟨_, execLockGrant_of_next hclk (State.nextHold_of_turn (State.turnOf_of_first hm hl hfirst) hfree), ?_, ?_, ?_, ?_⟩
  · exact List.mem_append_right _ List.mem_cons_self
  · intro hin
    have hno := (List.mem_filter.1 hin).2
    simp [hl] at hno
  · exact List.find?_cons_of_pos (decide_eq_true rfl)
  · obtain ⟨st, x, hth⟩ := (s.lineGiven line h).waitOver_th h.core h.th id
    rw [hth]

end Grant

/-! ## Transfers start (R129) -/

section Start

variable {s : State} {c : CoreId} {o : BellOp} {r : List BellOp}

theorem execBellowsStart_of_ready (hclk : s.fclkOn = true) (hbell : (s.core c).bell = none) (hq : (s.core c).bq = o :: r)
    (hready : s.bellReady c o = true) :
    exec (.bellowsStart c) s = .next (if (s.core c).maySlot .bell
      then s.modCore c (fun k => { (k.unask .bell) with bell := some o, bq := r }) else s.modCore c (fun k => k.askSlot .bell)) := by
  refine congrArg Host.Outcome.next ?_
  rw [hbell, hq]
  exact if_neg (by rw [hclk, hready]; exact Bool.false_ne_true)

end Start

/-! ## Cells moved (R125, R126) -/

section Moves

variable (s : State) (c : CoreId)

theorem State.cellsMem_eq_map : ∀ (n a : Nat), s.cellsMem c a n = (List.range n).map (fun i => s.cellMem c (a + i)) := by
  intro n
  induction n with
  | zero => exact fun _ => rfl
  | succ n ih =>
    intro a
    rw [State.cellsMem, ih, List.range_succ_eq_map, List.map_cons, List.map_map]
    refine congrArg (List.cons _) (List.map_congr_left (fun i _ => ?_))
    rw [Function.comp_apply, Nat.add_assoc, Nat.add_comm 1 i]

/-- Cells that are written above the ones in question leave them alone. -/
theorem State.cellMem_putCellsMem_below (xs : List Cell) : ∀ (s : State) (a x : Nat), s.cellsWf c →
    (∀ i, i < xs.length → plainCell (a + i)) → x < a → (s.putCellsMem c a xs).cellMem c x = s.cellMem c x := by
  induction xs with
  | nil => exact fun _ _ _ _ _ _ => rfl
  | cons v r ih =>
    intro s a x hwf hp hx
    have hrest : ∀ i, i < r.length → plainCell (a + 1 + i) := fun i hi => by
      have h := hp (i + 1) (by simpa using hi)
      rwa [Nat.add_comm i 1, ← Nat.add_assoc] at h
    have ha : plainCell a := hp 0 (by simp)
    rw [State.putCellsMem, ih _ (a + 1) x (s.cellsWf_putCellMem c hwf a v) hrest (by omega), s.cellMem_putCellMem c hwf ha,
      if_neg (by omega)]

theorem State.cellsMem_putCellsMem (xs : List Cell) : ∀ (s : State) (a : Nat), s.cellsWf c →
    (∀ i, i < xs.length → plainCell (a + i)) → (s.putCellsMem c a xs).cellsMem c a xs.length = xs := by
  induction xs with
  | nil => exact fun _ _ _ _ => rfl
  | cons v r ih =>
    intro s a hwf hp
    have hrest : ∀ i, i < r.length → plainCell (a + 1 + i) := fun i hi => by
      have h := hp (i + 1) (by simpa using hi)
      rwa [Nat.add_comm i 1, ← Nat.add_assoc] at h
    have ha : plainCell a := hp 0 (by simp)
    have hwf' := s.cellsWf_putCellMem c hwf a v
    rw [State.putCellsMem, List.length_cons, State.cellsMem, ih _ (a + 1) hwf' hrest,
      State.cellMem_putCellsMem_below c r _ (a + 1) a hwf' hrest (Nat.lt_succ_self a), s.cellMem_putCellMem c hwf ha,
      if_pos rfl]

theorem State.putCellsMem_th (t : ThId) (xs : List Cell) : ∀ (s : State) (a : Nat), (s.putCellsMem c a xs).th c t = s.th c t := by
  induction xs with
  | nil => exact fun _ _ => rfl
  | cons v r ih =>
    intro s a
    obtain ⟨hth, -, -⟩ := s.putCellMem_core_frame c a v
    exact (ih _ (a + 1)).trans (congrArg (fun x : Tab Thread 8 => x.get t.toNat) hth)

/-- Eight cells of one memory. -/
theorem plainCell_of_eight {x : Nat} (h : x + 8 ≤ 0x4000 ∨ (0x100000 ≤ x ∧ x + 8 ≤ 0x200000)) {i : Nat} (hi : i < 8) :
    plainCell (x + i) := by
  rcases h with h | ⟨hlo, hhi⟩
  · exact Or.inl (if_pos (by omega))
  · refine Or.inr ?_
    unfold region
    rw [if_neg (by omega), if_neg (by omega), if_neg (by omega), if_neg (by omega), if_neg (by omega), if_neg (by omega),
      if_pos (by omega)]

theorem State.areaCells_of_plain {a : Nat} (h : ∀ i, i < 8 → plainCell (a + i)) : s.areaCells c a = s.cellsMem c a 8 := by
  rw [State.cellsMem_eq_map, State.areaCells]
  refine List.map_congr_left (fun i hi => ?_)
  rcases h i (List.mem_range.1 hi) with hr | hr <;> rw [hr]

end Moves

/-! ## Groups of a window -/

/-- The eight cells of a group of a window. -/
def Thread.groupCells (v : Thread) (g : Nat) : List Cell := (List.range 8).map (fun p => v.win.get (8 * g + p))

theorem Tab.get_foldl_set (w : Tab Cell 32) (g : Nat) (l : List Cell) (hg : g < 4) : ∀ n, n ≤ 8 → ∀ j, j < 32 →
    ((List.range n).foldl (fun (w : Tab Cell 32) p => w.set (8 * g + p) (l.getD p 0)) w).get j =
      if 8 * g ≤ j ∧ j < 8 * g + n then l.getD (j - 8 * g) 0 else w.get j := by
  intro n
  induction n with
  | zero => intro _ j _; exact (if_neg (by omega)).symm
  | succ n ih =>
    intro hn j hj
    rw [List.range_succ, List.foldl_append, List.foldl_cons, List.foldl_nil]
    by_cases heq : j = 8 * g + n
    · rw [heq, Tab.get_set_self _ _ _ (by omega), if_pos (by omega), Nat.add_sub_cancel_left]
    · rw [Tab.get_set_ne _ _ _ _ (by omega), ih (by omega) j hj]
      by_cases hin : 8 * g ≤ j ∧ j < 8 * g + n
      · rw [if_pos hin, if_pos (by omega)]
      · rw [if_neg hin, if_neg (by omega)]

section Group

variable (u : Thread) (g : Nat) (l : List Cell) (hg : g < 4)
include hg

theorem Thread.putGroup_win {j : Nat} (hj : j < 32) : (u.putGroup g l).win.get j =
    if 8 * g ≤ j ∧ j < 8 * g + 8 then l.getD (j - 8 * g) 0 else u.win.get j :=
  Tab.get_foldl_set u.win g l hg 8 (Nat.le_refl 8) j hj

theorem Thread.groupCells_putGroup_self (hl : l.length = 8) : (u.putGroup g l).groupCells g = l := by
  refine List.ext_getElem (by simp [Thread.groupCells, hl]) (fun i hi hi' => ?_)
  have hi8 : i < 8 := hl ▸ hi'
  simp only [Thread.groupCells, List.getElem_map, List.getElem_range]
  rw [u.putGroup_win g l hg (by omega), if_pos (by omega), Nat.add_sub_cancel_left]
  exact (List.getElem_eq_getD 0).symm

theorem Thread.groupCells_putGroup_ne {g' : Nat} (hg' : g' < 4) (hne : g' ≠ g) :
    (u.putGroup g l).groupCells g' = u.groupCells g' := by
  refine List.map_congr_left (fun p hp => ?_)
  have hp8 := List.mem_range.1 hp
  rw [u.putGroup_win g l hg (by omega), if_neg (by omega)]

end Group

/-! ## Transfers end (R125 to R127) -/

section Over

variable (s : State) (c : CoreId) (t : ThId) (f : Thread → Thread)

/-- The thread without its transfer, and its Bellows free. -/
def Core.moved (k : Core) : Core := { (k.modTh t (fun u => { (f u) with xfer := none })) with bell := none }

theorem State.xferOver_data : (s.xferOver c t f).data = (s.modCore c (Core.moved t f)).data := by
  have hcomp : ∀ g : Core → Core, (∀ k, (g k).data = k.data) →
      (s.modCore c (fun k => g (Core.moved t f k))).data = (s.modCore c (Core.moved t f)).data := by
    intro g hg
    rw [← State.modCore_modCore]
    exact State.data_modCore _ c g (hg _)
  refine (State.swapsAsk_data _ c).trans (hcomp
    (fun q => (if (q.th.get t.toNat).why = .area then q else q.testXfer t).retry) (fun k => ?_))
  rw [Core.retry_data]
  split
  · rfl
  · exact Core.testXfer_data k t

theorem State.xferOver_th : ((s.xferOver c t f).th c t).data = (f (s.th c t)).data := by
  have hth : (Core.moved t f (s.core c)).th.get t.toNat = { f (s.th c t) with xfer := none } :=
    Core.th_modTh_self (s.core c) t (fun u => { (f u) with xfer := none })
  rw [State.th_of_data c (s.xferOver_data c t f) t, State.th, State.core_modCore_self, hth]
  rfl

theorem State.xferOver_cellsMem (n a : Nat) : (s.xferOver c t f).cellsMem c a n = s.cellsMem c a n := by
  have hcell : ∀ x, (s.xferOver c t f).cellMem c x = s.cellMem c x := by
    intro x
    rw [State.cellMem_of_data c (s.xferOver_data c t f)]
    unfold State.cellMem
    rw [State.core_modCore_self]
    rfl
  rw [State.cellsMem_eq_map, State.cellsMem_eq_map]
  exact List.map_congr_left (fun i _ => hcell _)

end Over

theorem Thread.window_of_data {u v : Thread} (h : v.data = u.data) :
    v.w = u.w ∧ v.spc = u.spc ∧ v.base = u.base ∧ v.win = u.win := by
  have hw := congrArg Thread.w h
  have hspc := congrArg Thread.spc h
  have hbase := congrArg Thread.base h
  have hwin := congrArg Thread.win h
  exact ⟨hw, hspc, hbase, hwin⟩

section Complete

variable {s : State} {c : CoreId} {t : ThId} {x : Xfer}
  (hclk : s.fclkOn = true) (hbell : (s.core c).bell = some (.xfer t)) (hx : (s.th c t).xfer = some x)
include hclk hbell hx

theorem execSpillComplete_of_voided (hk : x.kind = .spill) (hv : x.voided = true)
    (hline : s.linesHeld c ((s.th c t).dsbase.toNat + (s.th c t).spc) 8 = false) :
    exec (.spillComplete c) s = .next (((s.putCellsMem c ((s.th c t).dsbase.toNat + (s.th c t).spc)
      ((List.range 8).map (fun p => Config.freeSpill s.free p))).draw).xferOver c t id) := by
  refine congrArg Host.Outcome.next ?_
  simp only [hbell, hx, hclk, hk, hline, hv]
  rfl

/-- A thread from whose window the deepest group has gone to the spill area. -/
def Thread.spilled (v : Thread) : Thread := { v with w := v.w - 8, spc := v.spc + 8, base := (v.base + 1) % 4 }

theorem execSpillComplete_of_kept (hk : x.kind = .spill) (hv : x.voided = false)
    (hline : s.linesHeld c ((s.th c t).dsbase.toNat + (s.th c t).spc) 8 = false) :
    exec (.spillComplete c) s = .next ((s.putCellsMem c ((s.th c t).dsbase.toNat + (s.th c t).spc)
      ((s.th c t).groupCells x.grp)).xferOver c t Thread.spilled) := by
  refine congrArg Host.Outcome.next ?_
  simp only [hbell, hx, hclk, hk, hline, hv]
  rfl

/-- A thread whose window has a group back from the spill area. -/
def Thread.filled (g : Nat) (l : List Cell) (v : Thread) : Thread :=
  { (v.putGroup g l) with base := g, w := v.w + 8, spc := v.spc - 8, dirty := setBit v.dirty g true }

theorem execFillComplete_of_plain (hk : x.kind = .fill)
    (hp : ∀ i, i < 8 → plainCell ((s.th c t).dsbase.toNat + (s.th c t).spc - 8 + i))
    (hline : s.linesHeld c ((s.th c t).dsbase.toNat + (s.th c t).spc - 8) 8 = false) :
    exec (.fillComplete c) s = .next (s.xferOver c t
      (Thread.filled x.grp (s.cellsMem c ((s.th c t).dsbase.toNat + (s.th c t).spc - 8) 8))) := by
  refine congrArg Host.Outcome.next ?_
  simp only [hbell, hx, hclk, hk, hline, s.areaCells_of_plain c hp]
  rfl

end Complete

end Sys2Proof.Machine

namespace Sys2Proof

open Machine

/-- Settles O25: a fill of a line or of a window writes what it brings and no more, the want whose turn it is takes the
line, and what a transfer makes the core look at again changes no window and no cell. -/
theorem transfersAndLines : Obligations.TransfersAndLines := by
  unfold Obligations.TransfersAndLines
  refine ⟨⟨execLineFillComplete_fills, fun s line h => ?grant⟩, fun s c t => ?window⟩
  case grant =>
    intro last turn hclk hm hl hfirst hfree
    exact execLockGrant_holds hclk hm hl hfirst hfree
  case window =>
    intro k u plain group
    refine ⟨fun o r hclk hbell hq hready => ⟨fun hs => ?slot, fun hs => ?noSlot⟩,
      fun x hclk hbell hx hg hl hsh => ⟨fun hk hv hline => ?voided, fun hk hv hp hline => ?spill, fun hk hp hline => ?fill⟩⟩
    case slot =>
      exact (execBellowsStart_of_ready hclk hbell hq hready).trans (congrArg Host.Outcome.next (if_pos hs))
    case noSlot =>
      exact (execBellowsStart_of_ready hclk hbell hq hready).trans
        (congrArg Host.Outcome.next (if_neg (by rw [show (s.core c).maySlot .bell = _ from hs]; exact Bool.false_ne_true)))
    case voided =>
      refine ⟨_, execSpillComplete_of_voided hclk hbell hx hk hv hline, ?_⟩
      intro v
      have hth := State.xferOver_th ((s.putCellsMem c (u.dsbase.toNat + u.spc)
        ((List.range 8).map (fun p => Config.freeSpill s.free p))).draw) c t id
      rw [show ((s.putCellsMem c (u.dsbase.toNat + u.spc)
        ((List.range 8).map (fun p => Config.freeSpill s.free p))).draw).th c t = u from s.putCellsMem_th c t _ _] at hth
      exact Thread.window_of_data hth
    case spill =>
      have hth := State.xferOver_th (s.putCellsMem c (u.dsbase.toNat + u.spc) (u.groupCells x.grp)) c t Thread.spilled
      rw [State.putCellsMem_th] at hth
      have hcells := State.cellsMem_putCellsMem c (u.groupCells x.grp) s (u.dsbase.toNat + u.spc) ⟨hl, hsh⟩
        (fun i hi => plainCell_of_eight hp (by simpa [Thread.groupCells] using hi))
      exact ⟨_, execSpillComplete_of_kept hclk hbell hx hk hv hline, (State.xferOver_cellsMem _ c t _ 8 _).trans hcells,
        Thread.window_of_data hth⟩
    case fill =>
      have hth := s.xferOver_th c t (Thread.filled x.grp (s.cellsMem c (u.dsbase.toNat + u.spc - 8) 8))
      obtain ⟨hw, hspc, hbase, hwin⟩ := Thread.window_of_data hth
      have hgroup : ∀ g, group _ g = (u.putGroup x.grp (s.cellsMem c (u.dsbase.toNat + u.spc - 8) 8)).groupCells g :=
        fun g => congrArg (fun w : Tab Cell 32 => (List.range 8).map (fun p => w.get (8 * g + p))) hwin
      refine ⟨_, execFillComplete_of_plain hclk hbell hx hk (fun i => plainCell_of_eight hp) hline, ?_, hw, hspc, hbase, ?_⟩
      · rw [hgroup]
        exact u.groupCells_putGroup_self x.grp _ hg (by rw [State.cellsMem_eq_map]; simp)
      · intro g hg4 hne
        rw [hgroup]
        exact u.groupCells_putGroup_ne x.grp _ hg hg4 hne

end Sys2Proof
end

section
/-! What the invariant speaks of, and the queue: the memories of a state. Most operations leave them alone (`_memories`);
those that write one keep it in its canonical form (`Memories.Sound`). -/

namespace Sys2Proof.Machine

/-- The queue of a state, and its memories. -/
structure Memories where
  pending : List Instr
  prog : Mem 12
  shared : Mem 24
  ember : Mem 24
  recs : Mem 64
  objs : Mem 24
  stg : Mem 25
  norm : Mem 39
  strict : Mem 39
  wear : Mem 40
  raw : Mem 512
  cores : Tab (Mem 24 × CtlStore) 16

/-- The memories of a core. -/
def Core.own (k : Core) : Mem 24 × CtlStore := (k.lmem, k.cs)

def State.memories (s : State) : Memories where
  pending := s.pending
  prog := s.fb.prog
  shared := s.fb.shared
  ember := s.fb.ember
  recs := s.fb.trace.recs
  objs := s.pil.cap.objs
  stg := s.pil.cap.stg
  norm := s.hs.otp.norm
  strict := s.hs.otp.strict
  wear := s.hs.vault.wear
  raw := s.hs.vault.raw
  cores := s.cores.map Core.own

/-! ## Cores -/

section Cores

variable (k : Core)

theorem Core.own_eq {f : Core → Core} (hl : (f k).lmem = k.lmem) (hc : (f k).cs = k.cs) : (f k).own = k.own :=
  congrArg₂ Prod.mk hl hc

@[simp] theorem Core.modTh_lmem (t : ThId) (f : Thread → Thread) : (k.modTh t f).lmem = k.lmem := rfl
@[simp] theorem Core.modTh_cs (t : ThId) (f : Thread → Thread) : (k.modTh t f).cs = k.cs := rfl
@[simp] theorem Core.mapTh_lmem (f : Thread → Thread) : (k.mapTh f).lmem = k.lmem := rfl
@[simp] theorem Core.mapTh_cs (f : Thread → Thread) : (k.mapTh f).cs = k.cs := rfl
@[simp] theorem Core.unask_lmem (r : SlotReq) : (k.unask r).lmem = k.lmem := rfl
@[simp] theorem Core.unask_cs (r : SlotReq) : (k.unask r).cs = k.cs := rfl
@[simp] theorem Core.fillTurns_lmem : k.fillTurns.lmem = k.lmem := rfl
@[simp] theorem Core.fillTurns_cs : k.fillTurns.cs = k.cs := rfl
@[simp] theorem Core.retry_lmem : k.retry.lmem = k.lmem := rfl
@[simp] theorem Core.retry_cs : k.retry.cs = k.cs := rfl
@[simp] theorem Core.fences_lmem : k.fences.lmem = k.lmem := rfl
@[simp] theorem Core.fences_cs : k.fences.cs = k.cs := rfl
@[simp] theorem Core.usedLine_lmem (l : ILine) : (k.usedLine l).lmem = k.lmem := rfl
@[simp] theorem Core.usedLine_cs (l : ILine) : (k.usedLine l).cs = k.cs := rfl
@[simp] theorem Core.inval_lmem : k.inval.lmem = k.lmem := rfl
@[simp] theorem Core.inval_cs : k.inval.cs = k.cs := rfl
@[simp] theorem Core.pushStore_lmem (t : ThId) (a : Cell) (z : SSize) (v : Dbl) (d : Bool) :
    (k.pushStore t a z v d).lmem = k.lmem := rfl
@[simp] theorem Core.pushStore_cs (t : ThId) (a : Cell) (z : SSize) (v : Dbl) (d : Bool) :
    (k.pushStore t a z v d).cs = k.cs := rfl

@[simp] theorem Core.askSlot_lmem (r : SlotReq) : (k.askSlot r).lmem = k.lmem := by
  unfold Core.askSlot; split <;> rfl
@[simp] theorem Core.askSlot_cs (r : SlotReq) : (k.askSlot r).cs = k.cs := by
  unfold Core.askSlot; split <;> rfl
@[simp] theorem Core.askFill_lmem (l : BitVec 16) : (k.askFill l).lmem = k.lmem := by
  unfold Core.askFill; split <;> simp
@[simp] theorem Core.askFill_cs (l : BitVec 16) : (k.askFill l).cs = k.cs := by
  unfold Core.askFill; split <;> simp
@[simp] theorem Core.testXfer_lmem (t : ThId) : (k.testXfer t).lmem = k.lmem := by
  unfold Core.testXfer; split <;> rfl
@[simp] theorem Core.testXfer_cs (t : ThId) : (k.testXfer t).cs = k.cs := by
  unfold Core.testXfer; split <;> rfl
@[simp] theorem Core.pushlls_lmem (t : ThId) : (k.pushlls t).lmem = k.lmem := by
  unfold Core.pushlls; dsimp only; split <;> simp
@[simp] theorem Core.pushlls_cs (t : ThId) : (k.pushlls t).cs = k.cs := by
  unfold Core.pushlls; dsimp only; split <;> simp

end Cores

/-! ## The named updates -/

section Updates

variable (s : State)

@[simp] theorem State.modCore_memories (c : CoreId) (f : Core → Core) (hl : (f (s.core c)).lmem = (s.core c).lmem)
    (hc : (f (s.core c)).cs = (s.core c).cs) : (s.modCore c f).memories = s.memories := by
  have hcores : (s.cores.modify c.toNat f).map Core.own = s.cores.map Core.own :=
    Tab.map_modify _ _ _ _ (Core.own_eq (s.core c) hl hc)
  simp only [State.memories, State.modCore, hcores]

@[simp] theorem State.modTh_memories (c : CoreId) (t : ThId) (f : Thread → Thread) :
    (s.modTh c t f).memories = s.memories := s.modCore_memories c _ rfl rfl

@[simp] theorem State.modFb_memories (f : Fire → Fire) (hp : (f s.fb).prog = s.fb.prog) (hs : (f s.fb).shared = s.fb.shared)
    (he : (f s.fb).ember = s.fb.ember) (hr : (f s.fb).trace.recs = s.fb.trace.recs) : (s.modFb f).memories = s.memories := by
  simp only [State.memories, State.modFb, hp, hs, he, hr]

@[simp] theorem State.modCap_memories (f : Capture → Capture) (ho : (f s.pil.cap).objs = s.pil.cap.objs)
    (hs : (f s.pil.cap).stg = s.pil.cap.stg) : (s.modCap f).memories = s.memories := by
  simp only [State.memories, State.modCap, ho, hs]

@[simp] theorem State.modHs_memories (f : Hearth → Hearth) (hn : (f s.hs).otp.norm = s.hs.otp.norm)
    (hs : (f s.hs).otp.strict = s.hs.otp.strict) (hw : (f s.hs).vault.wear = s.hs.vault.wear)
    (hr : (f s.hs).vault.raw = s.hs.vault.raw) : (s.modHs f).memories = s.memories := by
  simp only [State.memories, State.modHs, hn, hs, hw, hr]

@[simp] theorem State.modVault_memories (f : Vault → Vault) (hw : (f s.hs.vault).wear = s.hs.vault.wear)
    (hr : (f s.hs.vault).raw = s.hs.vault.raw) : (s.modVault f).memories = s.memories :=
  s.modHs_memories _ rfl rfl hw hr

@[simp] theorem State.modPh_memories (f : Phase → Phase) : (s.modPh f).memories = s.memories := rfl
@[simp] theorem State.modWk_memories (f : Wake → Wake) : (s.modWk f).memories = s.memories := rfl
@[simp] theorem State.modDmp_memories (f : Damper → Damper) : (s.modDmp f).memories = s.memories := rfl
@[simp] theorem State.modSeal_memories (f : SealSt → SealSt) : (s.modSeal f).memories = s.memories := rfl
@[simp] theorem State.modSlot_memories (i : Nat) (f : LogSlot → LogSlot) : (s.modSlot i f).memories = s.memories := rfl
@[simp] theorem State.modFl_memories (f : Flue → Flue) : (s.modFl f).memories = s.memories := rfl
@[simp] theorem State.modRing_memories (r : Nat) (f : EmRing → EmRing) : (s.modRing r f).memories = s.memories := rfl
@[simp] theorem State.modPw_memories (f : Power → Power) : (s.modPw f).memories = s.memories := rfl
@[simp] theorem State.modTap_memories (f : Tap → Tap) : (s.modTap f).memories = s.memories := rfl
@[simp] theorem State.draw_memories : s.draw.memories = s.memories := rfl
@[simp] theorem State.putEv_memories (a : Nat) (b : Bool) : (s.putEv a b).memories = s.memories := rfl
@[simp] theorem State.setEv_memories (a : Nat) : (s.setEv a).memories = s.memories := rfl
@[simp] theorem State.deviceEvent_memories : s.deviceEvent.memories = s.memories := rfl
@[simp] theorem State.bootEnds_memories : s.bootEnds.memories = s.memories := rfl

@[simp] theorem State.withPil_memories (p : Pilot) (ho : p.cap.objs = s.pil.cap.objs) (hs : p.cap.stg = s.pil.cap.stg) :
    State.memories { s with pil := p } = s.memories := by
  simp only [State.memories, ho, hs]

@[simp] theorem State.mapCores_memories (f : Core → Core) (hf : ∀ k, (f k).own = k.own) :
    State.memories { s with cores := s.cores.map f } = s.memories := by
  have hcores : (s.cores.map f).map Core.own = s.cores.map Core.own := by
    apply Vector.ext
    intro i hi
    simp only [Vector.getElem_map, hf]
  simp only [State.memories, hcores]

theorem State.ite_memories (p : Prop) [Decidable p] (q r : State) :
    (if p then q else r).memories = if p then q.memories else r.memories :=
  apply_ite State.memories p q r

/-- Operations that are repeated leave the memories alone when each of them does. -/
theorem State.foldl_memories {α : Type} (f : State → α → State) (h : ∀ q a, (f q a).memories = q.memories) (l : List α) :
    (l.foldl f s).memories = s.memories :=
  List.foldlRecOn l f (motive := fun q => q.memories = s.memories) rfl (fun q hq a _ => (h q a).trans hq)

end Updates

end Sys2Proof.Machine
end

section
/-! What leaves the memories alone, in the order of the definitions: the cores, the Ember rings, the commands. -/

namespace Sys2Proof.Machine

/-! ## Named operations -/

@[simp] theorem State.syncDstate_memories (s : State) : s.syncDstate.memories = s.memories := by
  unfold State.syncDstate
  split <;> rfl

/-! ## Cells and lock lines -/

@[simp] theorem State.releaseLines_memories (s : State) (c : CoreId) : (s.releaseLines c).memories = s.memories := by
  simp [State.releaseLines]

@[simp] theorem State.endLock_memories (s : State) (c : CoreId) (t : ThId) : (s.endLock c t).memories = s.memories := by
  unfold State.endLock
  split
  · rfl
  · exact (State.releaseLines_memories _ c).trans (s.modTh_memories c t _)

/-! ## Instruction fetch -/

@[simp] theorem State.fetchLine_memories (s : State) (c : CoreId) (t : ThId) :
    (s.fetchLine c t).memories = s.memories := by
  unfold State.fetchLine
  dsimp only
  split_ifs
  · rfl
  · rfl
  · split <;> exact s.modCore_memories c _ (by simp) (by simp)

@[simp] theorem State.lookAhead_memories (s : State) (c : CoreId) (t : ThId) (pc : PAddr) :
    (s.lookAhead c t pc).memories = s.memories := by
  unfold State.lookAhead
  dsimp only
  split_ifs
  · rfl
  · rfl
  · split <;> exact s.modCore_memories c _ (by simp) (by simp)

@[simp] theorem State.fillLine_memories (s : State) (c : CoreId) (line : BitVec 16) :
    (s.fillLine c line).memories = s.memories := s.modCore_memories c _ rfl rfl

@[simp] theorem State.refetch_memories (s : State) (c : CoreId) : (s.refetch c).memories = s.memories := by
  refine State.foldl_memories s _ (fun q a => ?_) _
  dsimp only
  split_ifs <;> simp

/-! ## Entries and lockups -/

@[simp] theorem State.stopCopies_memories (s : State) (i : Nat) : (s.stopCopies i).memories = s.memories := by
  simp [State.stopCopies]

@[simp] theorem State.freeSlot_memories (s : State) (i : Nat) (st : LState) :
    (s.freeSlot i st).memories = s.memories := by
  unfold State.freeSlot
  split <;> rfl

@[simp] theorem State.dropLog_memories (s : State) (i : Nat) : (s.dropLog i).memories = s.memories := by
  simp [State.dropLog]

@[simp] theorem State.dropOpen_memories (s : State) (c : CoreId) :
    (s.dropOpen c).memories = s.memories := s.foldl_memories _ (fun q i => q.dropLog_memories i) _

@[simp] theorem State.modCnt_memories (s : State) (c : CoreId) (f : CoreCnt → CoreCnt) :
    (s.modCnt c f).memories = s.memories := rfl

@[simp] theorem State.lockUp_memories (s : State) (c : CoreId) (t : ThId) (cause what : Nat) :
    (s.lockUp c t cause what).memories = s.memories := by
  have hown : ∀ k : Core, k.frozen.lmem = k.lmem ∧ k.frozen.cs = k.cs := fun k =>
    List.foldlRecOn (List.range 8) _ (motive := fun q : Core => q.lmem = k.lmem ∧ q.cs = k.cs) ⟨rfl, rfl⟩ (fun _ hq _ _ => hq)
  have hgo : (s.letGo c).memories = s.memories := by
    rw [State.letGo, State.dropOpen_memories]
    exact s.foldl_memories _ (fun q i => q.endLock_memories c _) _
  obtain ⟨hl, hc⟩ := hown ((s.letGo c).core c)
  have hfrozen : (s.frozenAt c t cause what).memories = s.memories := by
    rw [State.frozenAt, State.modCore_memories _ c (fun k => { k.frozen with lockup := some (s.lockupOf c t cause what) }) hl hc,
      hgo]
  rw [State.lockUp_eq]
  split <;> simp [hfrozen]

/-! ## Issue -/

@[simp] theorem State.holdThread_memories (s : State) (c : CoreId) (t : ThId) (y : Why) :
    (s.holdThread c t y).memories = s.memories := by
  simp [State.holdThread]

@[simp] theorem State.issued_memories (s : State) (c : CoreId) (t : ThId) : (s.issued c t).memories = s.memories := by
  simp [State.issued]

@[simp] theorem State.retire_memories (s : State) (c : CoreId) (t : ThId) : (s.retire c t).memories = s.memories := by
  unfold State.retire
  dsimp only
  split
  · simp
  · split <;> simp

/-! ## Bits -/

@[simp] theorem State.writeBit_memories (s : State) (c : CoreId) (t : ThId) (a : Nat) (b : Bool) :
    (s.writeBit c t a b).memories = s.memories := by
  unfold State.writeBit
  repeat' split
  all_goals simp

@[simp] theorem State.bitRmw_memories (s : State) (c : CoreId) (t : ThId) (k : BitAct) (a : Nat) :
    (s.bitRmw c t k a).memories = s.memories := by
  unfold State.bitRmw
  split <;> simp

/-! ## Control -/

@[simp] theorem State.passCycles_memories (s : State) (c : CoreId) (n : Nat) :
    (s.passCycles c n).memories = s.memories := by
  unfold State.passCycles
  split <;> simp

/-! ## Ember rings -/

@[simp] theorem State.pushEq_memories (s : State) (c : CoreId) (e : Dbl) : (s.pushEq c e).memories = s.memories := by
  unfold State.pushEq
  split
  · exact s.modCore_memories c _ rfl rfl
  · rfl

@[simp] theorem State.emEvent_memories (s : State) (r kd src : Nat) (tick : Dbl) :
    (s.emEvent r kd src tick).memories = s.memories := by
  unfold State.emEvent
  split <;> simp

@[simp] theorem State.endPost_memories (s : State) (i : Nat) (trunc : Bool) :
    (s.endPost i trunc).memories = s.memories := by
  unfold State.endPost
  split <;> simp

@[simp] theorem State.freeze_memories (s : State) (i : Nat) (h : Bool) (g : Trig) :
    (s.freeze i h g).memories = s.memories := by
  unfold State.freeze
  dsimp only
  split_ifs <;> simp

@[simp] theorem State.miss_memories (s : State) (i : Nat) (g : Trig) : (s.miss i g).memories = s.memories := by
  unfold State.miss
  dsimp only
  split_ifs <;> simp

@[simp] theorem State.trigger_memories (s : State) (i : Nat) (g : Trig) : (s.trigger i g).memories = s.memories := by
  unfold State.trigger
  dsimp only
  repeat' split
  all_goals simp

@[simp] theorem State.record_memories (s : State) (i id : Nat) (g : Trig) (lost : Bool) :
    (s.record i id g lost).memories = s.memories := by
  unfold State.record
  dsimp only
  repeat' split
  all_goals simp

@[simp] theorem State.loseRecords_memories (s : State) : (s.loseRecords).memories = s.memories := by
  refine s.foldl_memories _ (fun q i => ?_) _
  exact q.foldl_memories _ (fun p id => p.record_memories i id _ true) _

@[simp] theorem State.stopChannel_memories (s : State) (n : Nat) : (s.stopChannel n).memories = s.memories := by
  unfold State.stopChannel
  refine State.foldl_memories s _ (fun q a => ?_) _
  dsimp only
  repeat' split
  all_goals simp

@[simp] theorem State.emberLinkDown_memories (s : State) : (s.emberLinkDown).memories = s.memories := by
  refine (State.foldl_memories _ _ (fun q n => ?_) _).trans s.loseRecords_memories
  split <;> simp

@[simp] theorem State.enableRing_memories (s : State) (i : Nat) : (s.enableRing i).memories = s.memories := by
  simp [State.enableRing]

@[simp] theorem State.writeRingCell_memories (s : State) (i off : Nat) (v : Cell) :
    (s.writeRingCell i off v).memories = s.memories := by
  unfold State.writeRingCell
  dsimp only
  split_ifs <;> simp

/-! ## Fuse lanes -/

@[simp] theorem State.laneSync_memories (s : State) : s.laneSync.memories = s.memories := rfl

/-! ## Commands and host rings -/

@[simp] theorem State.modRun_memories (s : State) (t : Nat) (f : Run → Run) : (s.modRun t f).memories = s.memories := by
  simp [State.modRun]

@[simp] theorem State.finish_memories (s : State) (t : Nat) (status : Byte) (result : List Byte) :
    (s.finish t status result).memories = s.memories := by
  unfold State.finish
  split <;> rfl

@[simp] theorem State.begin_memories (s : State) (sq : Nat) (d : Desc) : (s.begin_ sq d).memories = s.memories := rfl

@[simp] theorem State.dmaOut_memories (s : State) (d : Desc) (l : List Byte) :
    (s.dmaOut d l).memories = s.memories := by
  unfold State.dmaOut
  split <;> rfl

@[simp] theorem State.answer_memories (s : State) (d : Desc) (t : Nat) (l result : List Byte) (both : Bool) :
    (s.answer d t l result both).memories = s.memories := by
  unfold State.answer
  split <;> simp

@[simp] theorem State.emberOffRuns_memories (s : State) : (s.emberOffRuns).memories = s.memories := by
  refine s.foldl_memories _ (fun q r => ?_) _
  split
  · split <;> simp
  · rfl

@[simp] theorem State.modEq_memories (s : State) (n : Nat) (f : EqRing → EqRing) :
    (s.modEq n f).memories = s.memories := rfl

@[simp] theorem State.eqPush_memories (s : State) (n : Nat) (prot : Bool) (i : Item) :
    (s.eqPush n prot i).memories = s.memories := by
  unfold State.eqPush
  dsimp only
  split_ifs <;> simp

@[simp] theorem State.exportDurable_memories (s : State) (seq cls : Nat) :
    (s.exportDurable seq cls).memories = s.memories := by
  unfold State.exportDurable
  repeat' split
  all_goals simp

@[simp] theorem State.exportSeal_memories (s : State) (cord : Nat) (leaves : List Leaf) :
    (s.exportSeal cord leaves).memories = s.memories := by
  have hpairs : ∀ l : List Leaf, (l.foldl (fun (q : State) (l : Leaf) =>
      match q.eqFor (selBit l.cls.toNat) with
      | some n => q.eqPush n true (.pair l.seq cord)
      | none => q) s).memories = s.memories := by
    refine s.foldl_memories _ (fun q l => ?_)
    split <;> simp
  unfold State.exportSeal
  dsimp only
  split
  · split
    · exact hpairs _
    · exact (State.eqPush_memories _ _ _ _).trans (hpairs _)
  · exact hpairs _

@[simp] theorem State.moveMarks_memories (s : State) (n : Nat) : (s.moveMarks n).memories = s.memories := by
  simp [State.moveMarks]

@[simp] theorem State.itemGone_memories (s : State) (isSeal : Bool) (v : Nat) :
    (s.itemGone isSeal v).memories = s.memories := 
  State.foldl_memories (s.modFl _) _ (fun q n => q.moveMarks_memories n) _

@[simp] theorem State.ringErr_memories (s : State) (f : Flue → Flue) : (s.ringErr f).memories = s.memories := rfl

end Sys2Proof.Machine
end

section
/-! What leaves the memories alone: the vault, the timebase, device writes, logs, capture, the challenge. -/

namespace Sys2Proof.Machine

/-! ## Vault -/

@[simp] theorem State.submit_memories (s : State) (k : CKind) (tag : Option Nat) :
    (s.submit k tag).memories = s.memories := by
  unfold State.submit
  split <;> rfl

theorem Vault.place_memories (v : Vault) (p : Partn) (n : Nat) :
    (v.place p n).2.wear = v.wear ∧ (v.place p n).2.raw = v.raw := by
  unfold Vault.place
  dsimp only
  cases p <;> exact ⟨rfl, rfl⟩

@[simp] theorem State.overwrite_memories (s : State) (c : Commit) : (s.overwrite c).memories = s.memories := by
  have hgone : ∀ (b : Bool) (l : List Nat) (q : State), (l.foldl (fun (q : State) n => q.itemGone b n) q).memories = q.memories :=
    fun b l q => q.foldl_memories _ (fun r n => r.itemGone_memories b n) l
  exact (hgone true _ _).trans (hgone false _ _)

@[simp] theorem State.take_memories (s : State) (c : Commit) : (s.take c).memories = s.memories := rfl

@[simp] theorem State.unwait_memories (s : State) (c : Commit) : (s.unwait c).memories = s.memories := rfl

@[simp] theorem State.admitLog_memories (s : State) (c : Commit) (h : Hdr) (payload : List Byte) (fl :
    BitVec 16) (slot : Option Nat) : (s.admitLog c h payload fl slot).memories = s.memories := by
  have hplace : ∀ p, (s.modVault (fun _ => (s.hs.vault.place p c.lines).2)).memories = s.memories := fun p =>
    s.modVault_memories _ (s.hs.vault.place_memories p _).1 (s.hs.vault.place_memories p _).2
  unfold State.admitLog
  dsimp only
  rw [State.syncDstate_memories]
  split
  · cases slot <;> simp [hplace]
  · cases slot <;> simp [hplace]

@[simp] theorem State.admitSeal_memories (s : State) (c : Commit) (no : Nat) :
    (s.admitSeal c no).memories = s.memories := 
  s.modVault_memories _ (s.hs.vault.place_memories _ _).1 (s.hs.vault.place_memories _ _).2

@[simp] theorem State.admitRec_memories (s : State) (c : Commit) : (s.admitRec c).memories = s.memories := rfl

@[simp] theorem State.refuseOdo_memories (s : State) (c : Commit) (cls : Nat) :
    (s.refuseOdo c cls).memories = s.memories := by
  unfold State.refuseOdo
  dsimp only
  split
  · simp
  · split <;> simp

@[simp] theorem State.admission_memories (s : State) (c : Commit) : (s.admission c).memories = s.memories := by
  unfold State.admission
  repeat' split
  all_goals simp

@[simp] theorem State.closeCord_memories (s : State) (r : CReason) : (s.closeCord r).memories = s.memories := by
  unfold State.closeCord
  dsimp only
  rw [State.syncDstate_memories, State.submit_memories]
  rfl

@[simp] theorem State.sysLines_memories (s : State) (c : Commit) (n : Nat) :
    (s.sysLines c n).memories = s.memories := by
  unfold State.sysLines
  split <;> rfl

/-! ## Timebase -/

@[simp] theorem State.syncMirror_memories (s : State) : s.syncMirror.memories = s.memories := by
  unfold State.syncMirror
  split <;> rfl

@[simp] theorem State.pilotNext_memories (n : Nat) : ∀ s : State, (s.pilotNext n).memories = s.memories := by
  induction n with
  | zero => exact fun _ => rfl
  | succ n ih =>
    intro s
    unfold State.pilotNext
    split
    · split <;> simp [ih]
    · rfl

@[simp] theorem State.pilotLog_memories (s : State) (cls : Nat) (payload : List Byte) :
    (s.pilotLog cls payload).memories = s.memories := by
  simp [State.pilotLog]

@[simp] theorem State.checkpoint_memories (s : State) (reason : Nat) : (s.checkpoint reason).memories = s.memories := by
  unfold State.checkpoint
  split <;> simp

@[simp] theorem State.ckDistance_memories (s : State) : s.ckDistance.memories = s.memories := by
  unfold State.ckDistance
  dsimp only
  split_ifs <;> simp

@[simp] theorem State.putPh_memories (s : State) (x : PhOut) : (s.putPh x).memories = s.memories := by
  unfold State.putPh
  dsimp only
  rw [State.ckDistance_memories, State.syncMirror_memories]
  exact State.foldl_memories (s.modPh (fun _ => x.1)) _ (fun q e => q.setEv_memories e) _

@[simp] theorem State.angleEdge_memories (s : State) (i : Nat) (level : Bool) :
    (s.angleEdge i level).memories = s.memories := by
  unfold State.angleEdge
  split <;> simp

@[simp] theorem State.wakeRequest_memories (s : State) (cause : Nat) : (s.wakeRequest cause).memories = s.memories := by
  unfold State.wakeRequest
  split <;> rfl

@[simp] theorem State.takeDue_memories (s : State) : (s.takeDue).memories = s.memories := by
  have hstop : ((List.range 6).foldl (fun (q : State) i =>
      if q.pil.ph.stillDue i then q.modPh (fun p => p.stopInput i) else q) s).memories = s.memories := by
    refine s.foldl_memories _ (fun q i => ?_) _
    split <;> simp
  unfold State.takeDue
  dsimp only
  split
  · exact (State.putPh_memories _ _).trans hstop
  · exact hstop

@[simp] theorem State.standbyTooth_memories (s : State) (w : Nat) (level : Bool) :
    (s.standbyTooth w level).memories = s.memories := by
  unfold State.standbyTooth
  dsimp only
  split_ifs <;> simp

@[simp] theorem State.evalCmp_memories (s : State) (n : Nat) : (s.evalCmp n).memories = s.memories := by
  unfold State.evalCmp
  dsimp only
  split_ifs <;> simp

@[simp] theorem State.writeCmpCtrl_memories (s : State) (n : Nat) (v : Cell) :
    (s.writeCmpCtrl n v).memories = s.memories := by
  simp [State.writeCmpCtrl]

@[simp] theorem State.writeCmpTarget_memories (s : State) (n : Nat) (v : Dbl) :
    (s.writeCmpTarget n v).memories = s.memories := by
  simp [State.writeCmpTarget]

@[simp] theorem State.writeCmpIncr_memories (s : State) (n : Nat) (v : Dbl) :
    (s.writeCmpIncr n v).memories = s.memories := by
  unfold State.writeCmpIncr
  split <;> rfl

/-! ## Device reads -/

@[simp] theorem State.readEffect_memories (s : State) (c : CoreId) (a : Nat) :
    (s.readEffect c a).memories = s.memories := by
  unfold State.readEffect
  split_ifs
  · exact s.modCore_memories c _ rfl rfl
  · rfl
  · rfl

/-! ## Device writes -/

@[simp] theorem State.writeArm_memories (s : State) (c : CoreId) (t : ThId) (i : Nat) (v : Cell) :
    (s.writeArm c t i v).memories = s.memories := by
  simp [State.writeArm]

@[simp] theorem State.writeIcache_memories (s : State) (c : CoreId) (v : Cell) :
    (s.writeIcache c v).memories = s.memories := by
  unfold State.writeIcache
  split <;> simp

@[simp] theorem State.clearMseq_memories (s : State) (c : CoreId) (v : Cell) :
    (s.clearMseq c v).memories = s.memories := by
  unfold State.clearMseq
  split <;> simp

@[simp] theorem State.writeWp_memories (s : State) (c : CoreId) (i k : Nat) (v : Cell) (dbg : Bool) :
    (s.writeWp c i k v dbg).memories = s.memories := by
  unfold State.writeWp
  split <;> simp

@[simp] theorem State.clearTraceFull_memories (s : State) (v : Cell) : (s.clearTraceFull v).memories = s.memories := by
  unfold State.clearTraceFull
  split <;> rfl

@[simp] theorem State.releaseRing_memories (s : State) (i : Nat) (v : Cell) :
    (s.releaseRing i v).memories = s.memories := by
  unfold State.releaseRing
  split <;> rfl

@[simp] theorem State.devStore2_memories (s : State) (a : Nat) (v : Dbl) : (s.devStore2 a v).memories = s.memories := by
  unfold State.devStore2
  split_ifs <;> simp

/-! ## Loads and stores -/

@[simp] theorem State.serveLoad_memories (s : State) (c : CoreId) (t : ThId) (k : LoadKind) (a : Cell) (v : Dbl) :
    (s.serveLoad c t k a v).memories = s.memories := by
  simp [State.serveLoad]

/-! ## Core events -/

@[simp] theorem State.waitOver_memories (s : State) (c : CoreId) (t : ThId) (f : Thread → Thread) :
    (s.waitOver c t f).memories = s.memories := by
  simp [State.waitOver]

@[simp] theorem State.stopRuns_memories (s : State) : s.stopRuns.memories = s.memories := by
  refine State.foldl_memories s _ (fun q a => ?_) _
  split
  · dsimp only
    split_ifs <;> simp
  · rfl

/-! ## Log syllables -/

@[simp] theorem State.refuseLog_memories (s : State) (i code : Nat) : (s.refuseLog i code).memories = s.memories := rfl

@[simp] theorem State.addSeg_memories (s : State) (i : Nat) (g : Seg) : (s.addSeg i g).memories = s.memories := rfl

@[simp] theorem State.logReady_memories (s : State) (i : Nat) : (s.logReady i).memories = s.memories := by
  unfold State.logReady
  dsimp only
  split_ifs <;> simp

theorem State.onLog_memories (s : State) (c : CoreId) (h : Cell) (f : Nat → State → State)
    (hf : ∀ i, (f i s).memories = s.memories) : (s.onLog c h f).memories = s.memories := by
  unfold State.onLog
  split
  · rfl
  · split_ifs <;> simp [hf]

@[simp] theorem State.openLog_memories (s : State) (c : CoreId) (v : Cell) (i : Nat) :
    (s.openLog c v i).memories = s.memories := rfl

@[simp] theorem State.lapp_memories (c : CoreId) (a n : Cell) (i : Nat) (s : State) :
    (State.lapp c a n i s).memories = s.memories := by
  unfold State.lapp
  dsimp only
  split_ifs <;> simp

@[simp] theorem State.lemb_memories (ring : Cell) (i : Nat) (s : State) :
    (State.lemb ring i s).memories = s.memories := by
  unfold State.lemb
  dsimp only
  split
  · simp
  · split_ifs <;> simp

/-! ## Capture -/

@[simp] theorem State.loseSample_memories (s : State) (ch : Nat) : (s.loseSample ch).memories = s.memories := rfl

@[simp] theorem State.stream_memories (s : State) (ch : Nat) (q : Bool) (cells : List (BitVec 16)) :
    (s.stream ch q cells).memories = s.memories := by
  unfold State.stream
  split <;> rfl

@[simp] theorem State.fire_memories (s : State) (k : Nat) : (s.fire k).memories = s.memories := by
  refine State.foldl_memories s _ (fun q a => ?_) _
  dsimp only
  split_ifs <;> simp

@[simp] theorem State.judge_memories (s : State) (ch : Nat) (x : BitVec 16) (j : Nat) :
    (s.judge ch x j).memories = s.memories := by
  unfold State.judge
  dsimp only
  split_ifs <;> simp

@[simp] theorem State.sampled_memories (s : State) (ch : Nat) (q : Bool) (x : BitVec 16) :
    (s.sampled ch q x).memories = s.memories := 
  (State.stream_memories _ ch q [x]).trans (s.foldl_memories _ (fun r j => r.judge_memories ch x j) _)

@[simp] theorem State.holdGrid_memories (s : State) : s.holdGrid.memories = s.memories := by
  unfold State.holdGrid
  split <;> rfl

@[simp] theorem State.discEntry_memories (s : State) (ch : Nat) : (s.discEntry ch).memories = s.memories := by
  simp [State.discEntry]

@[simp] theorem State.discSee_memories (s : State) (ch : Nat) : (s.discSee ch).memories = s.memories := by
  unfold State.discSee
  dsimp only
  split_ifs <;> simp

@[simp] theorem State.discWatch_memories (s : State) : s.discWatch.memories = s.memories := by
  refine State.foldl_memories s _ (fun q a => ?_) _
  split <;> simp

@[simp] theorem State.trigFilter_memories (s : State) (n : Nat) : (s.trigFilter n).memories = s.memories := by
  unfold State.trigFilter
  dsimp only
  split_ifs <;> simp

@[simp] theorem State.captureCycle_memories (s : State) : (s.captureCycle).memories = s.memories := 
  (State.holdGrid_memories _).trans ((State.discWatch_memories _).trans (s.foldl_memories _ (fun q n => q.trigFilter_memories n) _))

/-! ## Random bytes and keys -/

@[simp] theorem State.trngTaken_memories (s : State) (n : Nat) : (s.trngTaken n).memories = s.memories := rfl

@[simp] theorem State.trngFill_memories (s : State) : (s.trngFill).memories = s.memories := by
  unfold State.trngFill
  dsimp only
  split <;> rfl

@[simp] theorem State.startKeys_memories (s : State) : s.startKeys.memories = s.memories := by
  unfold State.startKeys
  split <;> rfl

/-! ## Challenge -/

@[simp] theorem State.getNonce_memories (s : State) (who : Option (Nat × BitVec 64)) :
    (s.getNonce who).memories = s.memories := by
  unfold State.getNonce State.trngTaken
  cases who with
  | none =>
    dsimp only
    split_ifs <;> rfl
  | some x =>
    dsimp only
    split_ifs
    · simp
    · simp
    · exact State.finish_memories _ _ _ _
    · rfl
    · exact State.finish_memories _ _ _ _

@[simp] theorem State.askNonce_memories (s : State) (who : Option (Nat × BitVec 64)) :
    (s.askNonce who).memories = s.memories := by
  unfold State.askNonce
  split <;> simp

@[simp] theorem State.serveGets_memories (s : State) : (s.serveGets).memories = s.memories := by
  refine State.foldl_memories (s.modHs (fun h => { h with chal := { h.chal with waitGet := [] } })) _ (fun q w => ?_) _
  split
  · simp
  · split <;> simp

@[simp] theorem State.chalReply_memories (s : State) (tag : Option Nat) (st : Byte) :
    (s.chalReply tag st).memories = s.memories := by
  unfold State.chalReply
  split <;> simp

@[simp] theorem State.answerIn_memories (s : State) (bytes : List Byte) (tap : Bool) (tag : Option Nat) :
    (s.answerIn bytes tap tag).memories = s.memories := by
  unfold State.answerIn
  dsimp only
  repeat' split
  all_goals simp

@[simp] theorem State.chalDone_memories (s : State) : (s.chalDone).memories = s.memories := by
  unfold State.chalDone
  split
  · split
    · dsimp only
      rw [State.serveGets_memories, State.chalReply_memories, State.laneSync_memories]
      split <;> rfl
    · rfl
  · rfl

@[simp] theorem State.chalGet_memories (s : State) (d : Desc) (t : Nat) : (s.chalGet d t).memories = s.memories := by
  unfold State.chalGet
  split <;> simp

@[simp] theorem State.chalAnswer_memories (s : State) (t : Nat) (b : List Byte) :
    (s.chalAnswer t b).memories = s.memories := by
  unfold State.chalAnswer
  split <;> simp

end Sys2Proof.Machine
end

section
/-! What leaves the memories alone: seals, power failure, images, the debug port, starts, host rings, commands. -/

namespace Sys2Proof.Machine

/-! ## What is durable -/

@[simp] theorem State.releaseStage_memories (s : State) (t reason token param : Nat) :
    (s.releaseStage t reason token param).memories = s.memories := by
  simp [State.releaseStage]

@[simp] theorem State.runStep_memories (s : State) (t : Nat) : (s.runStep t).memories = s.memories := by
  unfold State.runStep
  split
  · rfl
  · split
    · simp
    · split
      · simp
      · exact State.finish_memories _ _ _ _
      · rfl
      · simp

@[simp] theorem State.tellPilot_memories (s : State) (m : PilMsg) : (s.tellPilot m).memories = s.memories := by
  unfold State.tellPilot
  split <;> rfl

@[simp] theorem State.hearPilot_memories (s : State) : s.hearPilot.memories = s.memories := by
  simp [State.hearPilot]

@[simp] theorem State.applyPhase_memories (s : State) (cells : List Cell) :
    (s.applyPhase cells).memories = s.memories := by
  unfold State.applyPhase
  split <;> simp

@[simp] theorem State.applySetting_memories (s : State) (cls : Nat) (v : Nat) :
    (s.applySetting cls v).memories = s.memories := by
  unfold State.applySetting
  dsimp only
  split_ifs <;> simp

@[simp] theorem State.trySwitch_memories (s : State) : s.trySwitch.memories = s.memories := by
  unfold State.trySwitch
  dsimp only
  split_ifs <;> simp

@[simp] theorem State.saveSecrets_memories (s : State) (e : SealSt) : (s.saveSecrets e).memories = s.memories := rfl

@[simp] theorem State.keepSecrets_memories (s : State) (k : CKind) : (s.keepSecrets k).memories = s.memories := by
  unfold State.keepSecrets
  repeat' split
  all_goals simp

@[simp] theorem State.giveBack_memories (s : State) (c : Commit) : (s.giveBack c).memories = s.memories := by
  unfold State.giveBack
  split <;> rfl

/-! ## Seals -/

@[simp] theorem State.markSealed_memories (s : State) (c : Cord) : (s.markSealed c).memories = s.memories := by
  unfold State.markSealed
  dsimp only
  refine (State.foldl_memories _ _ (fun q l => ?_) _).trans (s.modVault_memories _ rfl rfl)
  split
  · split <;> rfl
  · rfl

@[simp] theorem State.skipBad_memories (s : State) (b : Nat) : (s.skipBad b).memories = s.memories := by
  unfold State.skipBad
  dsimp only
  split
  · rfl
  · refine s.foldl_memories _ (fun q c => ?_) _
    split
    · rfl
    · obtain ⟨hwear, hraw⟩ := q.hs.vault.place_memories (partOfLine (32 * b))
        ((c.at_.drop c.pos).filter (fun l => decide (l / 32 = b))).length
      exact q.modVault_memories _ hwear hraw

/-! ## Power failure -/

@[simp] theorem State.loseNotes_memories (s : State) : s.loseNotes.memories = s.memories := rfl

@[simp] theorem State.loseStates_memories (s : State) : (s.loseStates).memories = s.memories := by
  refine (State.mapCores_memories s _ (fun k => ?_))
  split <;> rfl

@[simp] theorem State.loseLogs_memories (s : State) : s.loseLogs.memories = s.memories := by
  simp [State.loseLogs]

@[simp] theorem State.resetFlue_memories (s : State) : s.resetFlue.memories = s.memories := rfl

@[simp] theorem State.stbyReqBit_memories (s : State) (v : BitVec 32) : (s.stbyReqBit v).memories = s.memories := by
  unfold State.stbyReqBit
  split <;> rfl

/-! ## Core resets -/

@[simp] theorem State.readAppends_memories (s : State) (c : CoreId) : (s.readAppends c).memories = s.memories := by
  refine State.foldl_memories s _ (fun q a => ?_) _
  dsimp only
  split_ifs <;> simp

@[simp] theorem State.abandonBist_memories (s : State) : (s.abandonBist).memories = s.memories := rfl

@[simp] theorem State.haltCore_memories (s : State) (c : CoreId) : (s.haltCore c).memories = s.memories := by
  have hown : ∀ k : Core, ((List.range 8).foldl (fun (q : Core) i => q.unask (.thread (BitVec.ofNat 3 i))) k).lmem = k.lmem ∧
      ((List.range 8).foldl (fun (q : Core) i => q.unask (.thread (BitVec.ofNat 3 i))) k).cs = k.cs := fun k =>
    List.foldlRecOn (List.range 8) _ (motive := fun q : Core => q.lmem = k.lmem ∧ q.cs = k.cs) ⟨rfl, rfl⟩ (fun _ hq _ _ => hq)
  unfold State.haltCore
  split
  · rfl
  · exact (State.modCore_memories _ c _ (hown _).1 (hown _).2).trans (s.foldl_memories _ (fun q i => q.endLock_memories c _) _)

/-! ## Images and threads -/

@[simp] theorem State.invalAll_memories (s : State) :
    (s.invalAll).memories = s.memories := s.mapCores_memories _ (fun _ => rfl)

@[simp] theorem State.takeImage_memories (s : State) (b : List Byte) (source : Nat) :
    (s.takeImage b source).memories = s.memories := rfl

@[simp] theorem State.startThread_memories (s : State) (c : CoreId) (t : ThId) (pc : Nat) (e : Option (List Byte)) :
    (s.startThread c t pc e).memories = s.memories := by
  simp [State.startThread]

@[simp] theorem State.tryStart_memories (s : State) (tag : Nat) (c : CoreId) (t : ThId) (mode pc : Nat) :
    (s.tryStart tag c t mode pc).memories = s.memories := by
  unfold State.tryStart
  dsimp only
  split_ifs <;> simp

@[simp] theorem State.tryStop_memories (s : State) (tag c mask : Nat) :
    (s.tryStop tag c mask).memories = s.memories := by
  unfold State.tryStop
  split
  · rfl
  · dsimp only
    rw [State.stopRuns_memories, State.modRun_memories]
    refine s.foldl_memories _ (fun q i => ?_) _
    split <;> simp

@[simp] theorem State.tryQuery_memories (s : State) (tag c : Nat) : (s.tryQuery tag c).memories = s.memories := by
  unfold State.tryQuery
  split <;> simp

/-! ## Debug port -/

@[simp] theorem State.tapRuns_memories (s : State) : (s.tapRuns).memories = s.memories := by
  unfold State.tapRuns
  split_ifs
  · rfl
  · rfl
  · refine State.foldl_memories (s.modTap (fun t => { t with chalQ := [] })) _ (fun q x => ?_) _
    split <;> simp

@[simp] theorem State.dbgEnd_memories (s : State) (st : BitVec 4) (data : Option Cell) :
    (s.dbgEnd st data).memories = s.memories := rfl

@[simp] theorem State.beforeRead_memories (s : State) (r : DbgReq) : (s.beforeRead r).memories = s.memories := by
  unfold State.beforeRead
  split <;> simp

@[simp] theorem State.dbgDoRead_memories (s : State) (r : DbgReq) (effect : Bool) :
    (s.dbgDoRead r effect).memories = s.memories := by
  unfold State.dbgDoRead
  dsimp only
  repeat' split
  all_goals simp

theorem State.modMask_memories (s : State) (m : BitVec 8) (f : State → ThId → State)
    (h : ∀ q t, (f q t).memories = q.memories) : (s.modMask m f).memories = s.memories := by
  refine State.foldl_memories s _ (fun q i => ?_) _
  split <;> simp [h]

@[simp] theorem State.dbgDoHalt_memories (s : State) (r : DbgReq) : (s.dbgDoHalt r).memories = s.memories := 
  s.modMask_memories _ _ (fun q t => q.modTh_memories r.core t _)

@[simp] theorem State.dbgDoResume_memories (s : State) (r : DbgReq) : (s.dbgDoResume r).memories = s.memories := by
  unfold State.dbgDoResume
  dsimp only
  rw [State.dbgEnd_memories, State.stopRuns_memories]
  refine s.modMask_memories _ _ (fun q t => ?_)
  split_ifs <;> simp

@[simp] theorem State.dbgDoStep_memories (s : State) (r : DbgReq) : (s.dbgDoStep r).memories = s.memories := by
  unfold State.dbgDoStep
  dsimp only
  split_ifs <;> simp

@[simp] theorem State.endRights_memories (s : State) : (s.endRights).memories = s.memories := by
  unfold State.endRights
  dsimp only
  rw [State.stopRuns_memories]
  exact s.mapCores_memories _ (fun _ => rfl)

@[simp] theorem State.rightsFrom_memories (s old : State) : (s.rightsFrom old).memories = s.memories := by
  unfold State.rightsFrom
  split <;> simp

/-! ## Start and resets -/

@[simp] theorem State.linkStart_memories (s : State) : s.linkStart.memories = s.memories := by
  unfold State.linkStart
  split <;> rfl

@[simp] theorem State.reindex_memories (s : State) : s.reindex.memories = s.memories := by
  refine State.foldl_memories s _ (fun q a => ?_) _
  split <;> simp

@[simp] theorem State.captureStart_memories (s : State) : (s.captureStart).memories = s.memories := by
  refine (State.foldl_memories _ _ (fun q i => q.putEv_memories _ _) _).trans ?_
  rfl

@[simp] theorem State.deriveWhenReady_memories (s : State) : (s.deriveWhenReady).memories = s.memories := by
  have hopen : ∀ h : Hearth, ∃ e, h.openSecrets = { h with se := e } := Hearth.openSecrets_left
  unfold State.deriveWhenReady
  dsimp only
  split
  · obtain ⟨e, he⟩ := hopen { s.hs with keys := s.hs.otp.deriveKeys }
    rw [State.modPw_memories]
    exact s.modHs_memories _ (by rw [he]) (by rw [he]) (by rw [he]) (by rw [he])
  · rfl

@[simp] theorem State.bootWhenReady_memories (s : State) : s.bootWhenReady.memories = s.memories := by
  unfold State.bootWhenReady
  dsimp only
  split
  · split <;> simp
  · simp

@[simp] theorem State.adoptLanes_memories (s : State) : (s.adoptLanes).memories = s.memories := by
  unfold State.adoptLanes
  dsimp only
  split <;> split <;> rfl

@[simp] theorem State.badNewest_memories (s : State) : (s.badNewest).memories = s.memories := by
  unfold State.badNewest
  split
  · dsimp only
    split <;> rfl
  · rfl

@[simp] theorem State.bootThreads_memories (s : State) : s.bootThreads.memories = s.memories := by
  refine State.foldl_memories s _ (fun q a => ?_) _
  dsimp only
  split_ifs <;> simp

/-! ## Polling and exports -/

@[simp] theorem State.pollSq_memories (s : State) (b : List Byte) (n : Nat) : (s.pollSq b n).memories = s.memories := by
  unfold State.pollSq
  dsimp only
  split_ifs <;> simp

@[simp] theorem State.pollCq_memories (s : State) (b : List Byte) (n : Nat) : (s.pollCq b n).memories = s.memories := by
  unfold State.pollCq
  dsimp only
  split_ifs <;> simp

@[simp] theorem State.pollBq_memories (s : State) (b : List Byte) (n : Nat) : (s.pollBq b n).memories = s.memories := by
  unfold State.pollBq
  dsimp only
  split_ifs <;> simp

@[simp] theorem State.pollEq_memories (s : State) (b : List Byte) (n : Nat) : (s.pollEq b n).memories = s.memories := by
  unfold State.pollEq
  dsimp only
  split_ifs <;> simp

@[simp] theorem State.pollGood_memories (s : State) (b : List Byte) : (s.pollGood b).memories = s.memories := by
  have hsc : ∀ q : State, ((List.range 16).foldl (fun (q : State) n => (q.pollSq b n).pollCq b n) q).memories = q.memories := by
    intro q
    exact q.foldl_memories _ (fun r n => (State.pollCq_memories _ b n).trans (r.pollSq_memories b n)) _
  have hbe : ∀ q : State, ((List.range 4).foldl (fun (q : State) n => (q.pollBq b n).pollEq b n) q).memories = q.memories := by
    intro q
    exact q.foldl_memories _ (fun r n => (State.pollEq_memories _ b n).trans (r.pollBq_memories b n)) _
  unfold State.pollGood
  exact (hbe _).trans ((hsc _).trans (s.modFl_memories _))

@[simp] theorem State.pollBad_memories (s : State) : s.pollBad.memories = s.memories := by
  simp [State.pollBad]

@[simp] theorem State.rebuild_memories (s : State) (n : Nat) : (s.rebuild n).memories = s.memories := by
  refine State.foldl_memories s _ (fun q a => ?_) _
  split <;> simp

/-! ## Registers -/

@[simp] theorem State.eqOn_memories (s : State) (n : Nat) : (s.eqOn n).memories = s.memories := by
  simp [State.eqOn]

@[simp] theorem State.sqOff_memories (s : State) (n : Nat) : (s.sqOff n).memories = s.memories := by
  simp [State.sqOff]

@[simp] theorem State.cqOff_memories (s : State) (n : Nat) : (s.cqOff n).memories = s.memories := by
  simp [State.cqOff]

@[simp] theorem State.eqOff_memories (s : State) (n : Nat) : (s.eqOff n).memories = s.memories := by
  simp [State.eqOff]

@[simp] theorem State.cfgSq_memories (s : State) (n : Nat) (v : BitVec 32) : (s.cfgSq n v).memories = s.memories := by
  unfold State.cfgSq
  dsimp only
  split_ifs <;> simp

@[simp] theorem State.cfgCq_memories (s : State) (n : Nat) (v : BitVec 32) : (s.cfgCq n v).memories = s.memories := by
  unfold State.cfgCq
  dsimp only
  split_ifs <;> simp

@[simp] theorem State.cfgEq_memories (s : State) (n : Nat) (v : BitVec 32) : (s.cfgEq n v).memories = s.memories := by
  unfold State.cfgEq
  dsimp only
  split_ifs <;> simp

@[simp] theorem State.cfgExt_memories (s : State) (n : Nat) (v : BitVec 32) : (s.cfgExt n v).memories = s.memories := by
  simp [State.cfgExt]

@[simp] theorem State.cfgBq_memories (s : State) (n : Nat) (v : BitVec 32) : (s.cfgBq n v).memories = s.memories := by
  simp [State.cfgBq]

@[simp] theorem State.put64_memories (s : State) (o : Nat) (v : BitVec 64) : (s.put64 o v).memories = s.memories := by
  unfold State.put64
  dsimp only
  split_ifs <;> simp

@[simp] theorem State.putHalf_memories (s : State) (o : Nat) (old : BitVec 64) (v : BitVec 32) :
    (s.putHalf o old v).memories = s.memories := by
  unfold State.putHalf
  split <;> simp

@[simp] theorem State.putPollCtl_memories (s : State) (v : BitVec 32) : (s.putPollCtl v).memories = s.memories := by
  unfold State.putPollCtl
  split <;> simp

@[simp] theorem State.putMsix_memories (s : State) (e dw : Nat) (v : BitVec 32) :
    (s.putMsix e dw v).memories = s.memories := by
  unfold State.putMsix
  split <;> rfl

@[simp] theorem State.clearWake_memories (s : State) (v : BitVec 32) : (s.clearWake v).memories = s.memories := by
  unfold State.clearWake
  split <;> rfl

@[simp] theorem State.barWrite64_memories (s : State) (off : BitVec 12) (v : BitVec 64) :
    (s.barWrite64 off v).memories = s.memories := by
  unfold State.barWrite64
  dsimp only
  split_ifs <;> simp

/-! ## Commands -/

@[simp] theorem State.statClear_memories (s : State) (id : Nat) : (s.statClear id).memories = s.memories := by
  unfold State.statClear
  dsimp only
  repeat' split
  all_goals simp

@[simp] theorem State.statsClear_memories (s : State) (ids : List Nat) : (s.statsClear ids).memories = s.memories := by
  have hclear : (ids.foldl State.statClear s).memories = s.memories := s.foldl_memories _ (fun q i => q.statClear_memories i) _
  unfold State.statsClear
  dsimp only
  rw [State.syncDstate_memories]
  split <;> exact hclear

@[simp] theorem State.pubkeyRead_memories (s : State) (d : Desc) (t : Nat) :
    (s.pubkeyRead d t).memories = s.memories := by
  unfold State.pubkeyRead
  repeat' split
  all_goals simp

@[simp] theorem State.relockRuns_memories (s : State) : (s.relockRuns).memories = s.memories := by
  unfold State.relockRuns
  split
  · rfl
  · refine s.foldl_memories _ (fun q r => ?_) _
    split <;> rfl

@[simp] theorem State.writePhase_memories (s : State) (t : Nat) (cells : List Cell) :
    (s.writePhase t cells).memories = s.memories := by
  unfold State.writePhase
  dsimp only
  split_ifs <;> simp

@[simp] theorem State.configRing_memories (s : State) (t i : Nat) (c : List Cell) :
    (s.configRing t i c).memories = s.memories := by
  unfold State.configRing
  dsimp only
  split_ifs <;> simp

@[simp] theorem State.logRead_memories (s : State) (d : Desc) (t : Nat) : (s.logRead d t).memories = s.memories := by
  unfold State.logRead
  dsimp only
  repeat' split
  all_goals simp

@[simp] theorem State.cordRead_memories (s : State) (d : Desc) (t : Nat) : (s.cordRead d t).memories = s.memories := by
  unfold State.cordRead
  repeat' split
  all_goals simp

@[simp] theorem State.odoRead_memories (s : State) (t : Nat) : (s.odoRead t).memories = s.memories := by
  unfold State.odoRead
  split <;> simp

@[simp] theorem State.serve_memories (s : State) (t action param reason : Nat) (token : Option Nat) :
    (s.serve t action param reason token).memories = s.memories := by
  unfold State.serve
  dsimp only
  split_ifs <;> simp

@[simp] theorem State.giveRandom_memories (s : State) (t : Nat) (p : BitVec 64) (n k : Nat) :
    (s.giveRandom t p n k).memories = s.memories := by
  unfold State.giveRandom
  dsimp only
  split_ifs <;> simp

@[simp] theorem State.randomRuns_memories (s : State) : s.randomRuns.memories = s.memories := by
  refine State.foldl_memories s _ (fun q a => ?_) _
  split <;> simp

@[simp] theorem State.failEntropy_memories (s : State) : (s.failEntropy).memories = s.memories := by
  have hrandom : (s.fl.runs.foldl (fun (q : State) (r : Run) =>
      match r.kind with
      | .random _ _ k => q.finish r.tag 0x1A (leBytes 4 k)
      | _ => q) s).memories = s.memories := by
    refine s.foldl_memories _ (fun q r => ?_) _
    split <;> simp
  have hgets : ∀ (l : List (Option Nat)) (q : State), (l.foldl (fun (q : State) w =>
      match w with
      | some t => q.finish t 0x1A [q.triesByte]
      | none => q) q).memories = q.memories := by
    intro l q
    refine q.foldl_memories _ (fun r w => ?_) _
    split <;> simp
  unfold State.failEntropy
  dsimp only
  split
  · exact hrandom
  · exact (hgets _ _).trans hrandom

@[simp] theorem State.trngFail_memories (s : State) : s.trngFail.memories = s.memories := by
  simp [State.trngFail]

/-! ## Links -/

@[simp] theorem State.modLink_memories (s : State) (l : LinkId) (g : Link → Link) :
    (s.modLink l g).memories = s.memories := by
  unfold State.modLink
  split <;> rfl

@[simp] theorem State.levelsA_memories (s : State) (lv : BitVec 10) : (s.levelsA lv).memories = s.memories := by
  refine (State.foldl_memories _ _ (fun q i => q.putEv_memories _ _) _).trans ?_
  rfl

/-! ## Self test -/

@[simp] theorem State.bistEnd_memories (s : State) : (s.bistEnd).memories = s.memories := by
  unfold State.bistEnd
  split
  · rfl
  · split
    · dsimp only
      split_ifs <;> exact State.finish_memories _ _ _ _
    · rfl

@[simp] theorem State.bistNext_memories (n : Nat) : ∀ s : State, (s.bistNext n).memories = s.memories := by
  induction n with
  | zero => exact State.bistEnd_memories
  | succ n ih =>
    intro s
    unfold State.bistNext
    dsimp only
    split
    · exact s.bistEnd_memories
    · split
      · rfl
      · exact ih _

@[simp] theorem State.badSpecial_memories (s : State) (c : CoreId) (t : ThId) (i : Nat) (v : Cell) (d : Dbl) :
    (s.badSpecial c t i v d).memories = s.memories := by
  unfold State.badSpecial
  split <;> simp

/-! ## Life cycle -/

@[simp] theorem State.beginLife_memories (s : State) (t src dst : Nat) (blk : Option (List Byte)) :
    (s.beginLife t src dst blk).memories = s.memories := by
  unfold State.beginLife
  dsimp only
  split_ifs <;> simp

@[simp] theorem State.refuseWaiting_memories (s : State) : (s.refuseWaiting).memories = s.memories := by
  unfold State.refuseWaiting
  split
  · rfl
  · refine s.foldl_memories _ (fun q c => ?_) _
    dsimp only
    split <;> split <;> simp

/-! ## Idle -/

@[simp] theorem State.flueCycle_memories (s : State) : s.flueCycle.memories = s.memories := by
  unfold State.flueCycle
  split <;> rfl

end Sys2Proof.Machine
end

section
/-! Sound memories: every one in its canonical form, and the margins of the fuses. What writes a memory keeps them sound;
first the memories themselves, and what the cores and the Ember rings write. -/

namespace Sys2Proof.Machine

/-- A memory in its canonical form, where `W` holds: `W` is `True` for the invariant, and `False` where the queue alone
is meant. -/
def Memory.Canon {w : Nat} (W : Prop) (m : Mem w) : Prop := W → Memory.wf m = true

/-- The memories of a core are in their canonical form. -/
structure OwnCanon (W : Prop) (x : Mem 24 × CtlStore) : Prop where
  lmem : Memory.Canon W x.1
  patch : Memory.Canon W x.2.patch
  openw : Memory.Canon W x.2.openw

/-- The queue is `q`; where `W` holds every memory is in its canonical form, and no fuse reads 1 at strict margin alone
(R358). -/
structure Memories.Sound (W : Prop) (q : List Instr) (m : Memories) : Prop where
  pending : m.pending = q
  prog : Memory.Canon W m.prog
  shared : Memory.Canon W m.shared
  ember : Memory.Canon W m.ember
  recs : Memory.Canon W m.recs
  objs : Memory.Canon W m.objs
  stg : Memory.Canon W m.stg
  norm : Memory.Canon W m.norm
  strict : Memory.Canon W m.strict
  wear : Memory.Canon W m.wear
  raw : Memory.Canon W m.raw
  fuses : W → ∀ a, memRead m.strict a &&& ~~~(memRead m.norm a) = 0
  cores : ∀ i, i < 16 → OwnCanon W (m.cores.get i)

theorem Core.memsWf_iff (k : Core) : k.memsWf = true ↔ OwnCanon True k.own := by
  simp only [Core.memsWf, Bool.and_eq_true]
  exact ⟨fun ⟨⟨hl, hp⟩, ho⟩ => ⟨fun _ => hl, fun _ => hp, fun _ => ho⟩,
    fun h => ⟨⟨h.lmem trivial, h.patch trivial⟩, h.openw trivial⟩⟩

theorem Tab.all_iff {α : Type} [Inhabited α] {n : Nat} (v : Tab α n) (p : α → Bool) :
    v.toList.all p = true ↔ ∀ i, i < n → p (v.get i) = true := by
  have hget : ∀ i (h : i < n), v.get i = v[i] := fun i h => by simp [Tab.get, h]
  rw [List.all_eq_true]
  refine ⟨fun h i hi => ?_, fun h x hx => ?_⟩
  · rw [hget i hi]
    exact h _ (by rw [← Vector.getElem_toList (h := by simpa using hi)]; exact List.getElem_mem _)
  · obtain ⟨i, hi, rfl⟩ := List.getElem_of_mem hx
    rw [Vector.getElem_toList, ← hget i (by simpa using hi)]
    exact h i (by simpa using hi)

theorem State.cores_memsWf_iff (s : State) :
    s.cores.toList.all Core.memsWf = true ↔ ∀ i, i < 16 → OwnCanon True (s.memories.cores.get i) := by
  rw [Tab.all_iff]
  refine forall_congr' (fun i => forall_congr' (fun hi => ?_))
  rw [Core.memsWf_iff, show s.memories.cores.get i = (s.cores.get i).own from Tab.get_map _ _ _ hi]

/-- The invariant, seen in the memories. -/
theorem State.inv_iff (s : State) : s.Inv ↔ s.memories.Sound True s.pending := by
  constructor
  · rintro ⟨hm, hf⟩
    simp only [State.memsWf, Bool.and_eq_true] at hm
    obtain ⟨⟨⟨⟨⟨⟨⟨⟨⟨⟨prog, shared⟩, ember⟩, recs⟩, objs⟩, stg⟩, norm⟩, strict⟩, wear⟩, raw⟩, cores⟩ := hm
    exact ⟨rfl, fun _ => prog, fun _ => shared, fun _ => ember, fun _ => recs, fun _ => objs, fun _ => stg, fun _ => norm,
      fun _ => strict, fun _ => wear, fun _ => raw, fun _ => hf, s.cores_memsWf_iff.1 cores⟩
  · intro h
    refine ⟨?_, h.fuses trivial⟩
    simp only [State.memsWf, Bool.and_eq_true]
    exact ⟨⟨⟨⟨⟨⟨⟨⟨⟨⟨h.prog trivial, h.shared trivial⟩, h.ember trivial⟩, h.recs trivial⟩, h.objs trivial⟩, h.stg trivial⟩,
      h.norm trivial⟩, h.strict trivial⟩, h.wear trivial⟩, h.raw trivial⟩, s.cores_memsWf_iff.2 h.cores⟩

/-! ## What keeps a memory canonical -/

section Canon

variable {W : Prop}

theorem Memory.Canon.nil {w : Nat} : Memory.Canon W ([] : Mem w) := fun _ => rfl

theorem Memory.Canon.write {w : Nat} {m : Mem w} (h : Memory.Canon W m) (a : Nat) (v : BitVec w) :
    Memory.Canon W (memWrite m a v) := fun hW => Memory.wf_memWrite m a v (h hW)

theorem Memory.Canon.writeList {w : Nat} {m : Mem w} (h : Memory.Canon W m) (a : Nat) (vs : List (BitVec w)) :
    Memory.Canon W (memWriteList m a vs) := fun hW => Memory.wf_memWriteList vs m a (h hW)

theorem Memory.Canon.writeArea {m : Mem 24} (h : Memory.Canon W m) (lo size wp : Nat) (cs : List Cell) :
    Memory.Canon W (writeArea m lo size wp cs) := fun hW => Memory.wf_writeArea cs m lo size wp (h hW)

theorem Memory.Canon.freeLine {w : Nat} {m : Mem w} (h : Memory.Canon W m) (n a : Nat) :
    Memory.Canon W (freeLine n m a) := fun hW => Memory.wf_freeLine n m a (h hW)

theorem Memory.Canon.bundleWords (o : Bool) (words : Nat) (p : List Byte) : Memory.Canon W (bundleWords o words p) :=
  fun _ => Memory.wf_bundleWords o words p

theorem Trace.canon_put (t : Trace) (r : BitVec 64) (h : Memory.Canon W t.recs) : Memory.Canon W (t.put r).recs := by
  unfold Trace.put
  split
  · exact h
  · exact h.write _ _

theorem Capture.canon_putObj (c : Capture) (o : Obj) (v : Nat → Cell) (h : Memory.Canon W c.objs) :
    Memory.Canon W (c.putObj o v).objs := fun hW => Capture.wf_putObj c o v (h hW)

end Canon

namespace Memories.Sound

variable {W : Prop} {q : List Instr} {s : State}

theorem of_eq {r : State} (h : s.memories.Sound W q) (e : r.memories = s.memories) : r.memories.Sound W q := e ▸ h

theorem ite {a b : State} {p : Prop} [Decidable p] (ha : a.memories.Sound W q) (hb : b.memories.Sound W q) :
    (if p then a else b).memories.Sound W q := by
  split
  · exact ha
  · exact hb

/-- Operations that are repeated keep the memories sound when each of them does. -/
theorem foldl {α : Type} (h : s.memories.Sound W q) (f : State → α → State)
    (hf : ∀ r a, r.memories.Sound W q → (f r a).memories.Sound W q) (l : List α) : (l.foldl f s).memories.Sound W q :=
  List.foldlRecOn l f (motive := fun r => r.memories.Sound W q) h (fun r hr a _ => hf r a hr)

theorem core (h : s.memories.Sound W q) (c : CoreId) : OwnCanon W (s.core c).own := by
  have hc := h.cores c.toNat c.isLt
  rwa [show s.memories.cores.get c.toNat = (s.core c).own from Tab.get_map _ _ _ c.isLt] at hc

/-! ## Cores -/

/-- Cores whose memories are in their canonical form. -/
theorem withCores (h : s.memories.Sound W q) (v : Tab Core 16) (hv : ∀ i, i < 16 → OwnCanon W (v.get i).own) :
    (State.memories { s with cores := v }).Sound W q where
  __ := h
  cores i hi := by
    have hget : (State.memories { s with cores := v }).cores.get i = (v.get i).own := Tab.get_map _ _ _ hi
    rw [hget]
    exact hv i hi

theorem get_own (h : s.memories.Sound W q) {i : Nat} (hi : i < 16) : OwnCanon W (s.cores.get i).own := by
  have hc := h.cores i hi
  rwa [show s.memories.cores.get i = (s.cores.get i).own from Tab.get_map _ _ _ hi] at hc

theorem modCore (h : s.memories.Sound W q) (c : CoreId) (f : Core → Core) (hf : OwnCanon W (f (s.core c)).own) :
    (s.modCore c f).memories.Sound W q := by
  refine h.withCores _ (fun i hi => ?_)
  by_cases hc : c.toNat = i
  · subst hc
    rw [Tab.get_modify_self _ _ _ c.isLt]
    exact hf
  · rw [Tab.get_modify_ne _ _ _ _ hc]
    exact h.get_own hi

theorem mapCores (h : s.memories.Sound W q) (f : Core → Core) (hf : ∀ k, OwnCanon W k.own → OwnCanon W (f k).own) :
    (State.memories { s with cores := s.cores.map f }).Sound W q := by
  refine h.withCores _ (fun i hi => ?_)
  rw [Tab.get_map _ _ _ hi]
  exact hf _ (h.get_own hi)

theorem modLmem (h : s.memories.Sound W q) (c : CoreId) (m : Core → Mem 24) (hm : Memory.Canon W (m (s.core c))) :
    (s.modCore c (fun k => { k with lmem := m k })).memories.Sound W q :=
  h.modCore c _ { h.core c with lmem := hm }

/-! ## The memories of the Firebox, the capture side, the vault and the fuses -/

theorem modRecs (h : s.memories.Sound W q) (f : Fire → Fire) (hp : (f s.fb).prog = s.fb.prog)
    (hs : (f s.fb).shared = s.fb.shared) (he : (f s.fb).ember = s.fb.ember) (hr : Memory.Canon W (f s.fb).trace.recs) :
    (s.modFb f).memories.Sound W q where
  __ := h
  prog := by rw [show (s.modFb f).memories.prog = s.fb.prog from hp]; exact h.prog
  shared := by rw [show (s.modFb f).memories.shared = s.fb.shared from hs]; exact h.shared
  ember := by rw [show (s.modFb f).memories.ember = s.fb.ember from he]; exact h.ember
  recs := hr

theorem modCap (h : s.memories.Sound W q) (f : Capture → Capture) (ho : Memory.Canon W (f s.pil.cap).objs)
    (hs : Memory.Canon W (f s.pil.cap).stg) : (s.modCap f).memories.Sound W q :=
  { h with objs := ho, stg := hs }

theorem modHs (h : s.memories.Sound W q) (f : Hearth → Hearth) (hn : (f s.hs).otp.norm = s.hs.otp.norm)
    (hs : (f s.hs).otp.strict = s.hs.otp.strict) (hw : Memory.Canon W (f s.hs).vault.wear)
    (hr : Memory.Canon W (f s.hs).vault.raw) : (s.modHs f).memories.Sound W q where
  __ := h
  norm := by rw [show (s.modHs f).memories.norm = s.hs.otp.norm from hn]; exact h.norm
  strict := by rw [show (s.modHs f).memories.strict = s.hs.otp.strict from hs]; exact h.strict
  fuses hW a := by
    rw [show (s.modHs f).memories.norm = s.hs.otp.norm from hn, show (s.modHs f).memories.strict = s.hs.otp.strict from hs]
    exact h.fuses hW a
  wear := hw
  raw := hr

theorem modVault (h : s.memories.Sound W q) (f : Vault → Vault) (hw : Memory.Canon W (f s.hs.vault).wear)
    (hr : Memory.Canon W (f s.hs.vault).raw) : (s.modVault f).memories.Sound W q :=
  h.modHs _ rfl rfl hw hr

/-! ## Cell writes and traces -/

theorem putCellMem (h : s.memories.Sound W q) (c : CoreId) (a : Nat) (v : Cell) :
    (s.putCellMem c a v).memories.Sound W q := by
  unfold State.putCellMem
  split
  · exact h.modLmem c _ ((h.core c).lmem.write _ _)
  · exact { h with shared := h.shared.write _ _ }
  · exact h

theorem putCellsMem (c : CoreId) (xs : List Cell) : ∀ {s : State}, s.memories.Sound W q → ∀ a,
    (s.putCellsMem c a xs).memories.Sound W q := by
  induction xs with
  | nil => exact fun h _ => h
  | cons v r ih => exact fun h a => ih (h.putCellMem c a v) (a + 1)

theorem saveCtx (h : s.memories.Sound W q) (c : CoreId) (u : Thread) : (s.saveCtx c u).memories.Sound W q := by
  refine foldl (h.putCellsMem c _ _) _ (fun r g hr => ?_) _
  split
  · exact hr.putCellsMem c _ _
  · exact hr

theorem traceRec (h : s.memories.Sound W q) (c : CoreId) (t : ThId) (kd : Nat) (a b : PAddr) :
    (s.traceRec c t kd a b).memories.Sound W q := by
  unfold State.traceRec
  dsimp only
  split
  · refine of_eq ?_ (State.draw_memories _)
    refine h.modRecs _ rfl rfl rfl ?_
    dsimp only
    split
    · exact Trace.canon_put _ _ (Trace.canon_put _ _ h.recs)
    · exact Trace.canon_put _ _ h.recs
  · exact h

end Memories.Sound

end Sys2Proof.Machine
end

section
/-! What the cores write keeps the memories sound: entries, syllables, the Bellows, rings, capture objects, stores. -/

namespace Sys2Proof.Machine

namespace Memories.Sound

variable {W : Prop} {q : List Instr} {s : State}

/-! ## Entries and faults -/

theorem enter (h : s.memories.Sound W q) (c : CoreId) (t : ThId) (e : EntryInfo) :
    (s.enter c t e).memories.Sound W q := by
  unfold State.enter
  dsimp only
  split
  · exact h.of_eq (s.lockUp_memories c t 0 _)
  · exact traceRec (h.of_eq (by simp)) c t 2 _ _

theorem raise (h : s.memories.Sound W q) (c : CoreId) (t : ThId) (f : FClass) (a : PAddr) (o : Cell) :
    (s.raise c t f a o).memories.Sound W q := by
  have hlock : (s.endLock c t).memories.Sound W q := h.of_eq (s.endLock_memories c t)
  unfold State.raise
  dsimp only
  split_ifs
  · exact h
  · exact hlock.of_eq (State.lockUp_memories _ c t 1 _)
  · exact hlock.enter c t _
  · exact hlock.enter c t _

/-! ## Syllables -/

section Syllables

variable (c : CoreId) (t : ThId) (y : Sylb)

theorem issued (h : s.memories.Sound W q) : (s.issued c t).memories.Sound W q := h.of_eq (s.issued_memories c t)

theorem watchHalt (h : s.memories.Sound W q) (i : Nat) : (s.watchHalt c t i).memories.Sound W q :=
  traceRec (h.of_eq (s.modCore_memories c _ rfl rfl)) c t 5 _ _

variable (hy : ∀ r : State, r.memories.Sound W q → (y.effect r).memories.Sound W q)
include hy

theorem perform (h : s.memories.Sound W q) : (s.perform c t y).memories.Sound W q := by
  unfold State.perform
  rw [State.retire_memories]
  exact hy _ (h.of_eq (by simp))

theorem watched (h : s.memories.Sound W q) : (s.watched c t y).memories.Sound W q := by
  have hcount : ∀ hs, (s.modCore c (fun k => k.wpCount hs)).memories.Sound W q := fun hs => h.of_eq (s.modCore_memories c _ rfl rfl)
  unfold State.watched
  dsimp only
  split
  · exact h.perform c t y hy
  · split
    · split
      · exact ((hcount _).issued c t).raise c t _ _ _
      · exact (hcount _).watchHalt c t _
    · exact ((hcount _).issued c t).raise c t _ _ _
    · exact ((hcount _).traceRec c t 4 _ _).perform c t y hy
    · exact (hcount _).perform c t y hy

theorem checked (h : s.memories.Sound W q) : (s.checked c t y).memories.Sound W q := by
  have hfault : ∀ f a o, ((s.issued c t).raise c t f a o).memories.Sound W q := fun f a o => (h.issued c t).raise c t f a o
  unfold State.checked
  dsimp only
  split
  · exact hfault _ _ _
  · split
    · exact hfault _ _ _
    · split
      · exact hfault _ _ _
      · exact h.of_eq (by simp)
      · split_ifs
        · exact h.of_eq (by simp)
        · exact h.of_eq (by simp)
        · exact hfault _ _ _
        · split
          · exact hfault _ _ _
          · exact h.watched c t y hy

/-- A syllable keeps the memories sound when its effect does. -/
theorem issue (h : s.memories.Sound W q) : (issue c t y s).memories.Sound W q := by
  unfold Machine.issue
  dsimp only
  split_ifs
  · exact h
  · exact h.raise c t _ _ _
  · exact h
  · exact h.checked c t y hy

end Syllables

/-! ## The Bellows -/

section Bellows

variable (c : CoreId)

theorem swapFault (h : s.memories.Sound W q) (t : ThId) (a : Cell) (pc : PAddr) : (s.swapFault c t a pc).memories.Sound W q := by
  unfold State.swapFault
  rw [State.modCore_memories _ c _ rfl rfl]
  exact raise (h.of_eq (s.modTh_memories c t _)) c t _ _ _

theorem swapAsk (h : s.memories.Sound W q) (t : ThId) : (s.swapAsk c t).memories.Sound W q := by
  have hflush : (s.modTh c t Thread.flushProducts).memories.Sound W q := h.of_eq (s.modTh_memories c t _)
  unfold State.swapAsk
  dsimp only
  split
  · split_ifs
    · exact h
    · exact hflush.of_eq (State.modCore_memories _ c _ rfl rfl)
    · exact hflush.swapFault c t _ _
  · exact h

theorem swapsAsk (h : s.memories.Sound W q) : (s.swapsAsk c).memories.Sound W q :=
  h.foldl _ (fun _ _ hr => hr.swapAsk c _) _

theorem xferOver (h : s.memories.Sound W q) (t : ThId) (f : Thread → Thread) : (s.xferOver c t f).memories.Sound W q := by
  refine swapsAsk c (h.of_eq (s.modCore_memories c _ ?_ ?_))
  · dsimp only
    split <;> simp
  · dsimp only
    split <;> simp

theorem loadDone (h : s.memories.Sound W q) (t : ThId) : (s.loadDone c t).memories.Sound W q := by
  unfold State.loadDone
  split
  · dsimp only
    split_ifs
    · exact h
    · exact of_eq (raise (h.of_eq (s.modTh_memories c t _)) c t _ _ _) (State.modCore_memories _ c _ rfl rfl)
    · exact h
    · exact h.of_eq ((State.readEffect_memories _ c _).trans (s.waitOver_memories c t _))
  · exact h

theorem routineFault (h : s.memories.Sound W q) (r : Routine) (f : FClass) (o : Cell) (rec : Option (Nat × Nat)) :
    (s.routineFault c r f o rec).memories.Sound W q :=
  of_eq (raise (h.of_eq (s.modCore_memories c _ rfl rfl)) c r.t f r.pc o) (State.modCore_memories _ c _ rfl rfl)

end Bellows

/-! ## Rings and capture objects -/

theorem ringEntry (h : s.memories.Sound W q) (i : Nat) (e : StreamEntry) : (s.ringEntry i e).memories.Sound W q := by
  unfold State.ringEntry
  dsimp only
  split
  · next hh tag _ _ =>
    have hw : (s.modFb (fun f => { f with
        ember := writeArea f.ember ((s.fb.rings.get i).lo hh) (s.fb.rings.get i).area (s.fb.rings.get i).wp (entryCells e tag) })).memories.Sound W q :=
      { h with ember := h.ember.writeArea _ _ _ _ }
    exact ite (hw.of_eq ((State.endPost_memories _ i false).trans (State.modRing_memories _ i _)))
      (hw.of_eq (State.modRing_memories _ i _))
  · exact h

section Objects

variable (o : Obj)

theorem applyObj (h : s.memories.Sound W q) (v : Nat → Cell) : (s.applyObj o v).memories.Sound W q := by
  have hput : (s.modCap (fun c => c.putObj o v)).memories.Sound W q :=
    h.modCap _ (Capture.canon_putObj _ o v h.objs) h.stg
  unfold State.applyObj
  dsimp only
  split
  · split_ifs
    · exact hput.of_eq ((State.stopChannel_memories _ _).trans (State.modCap_memories _ _ rfl rfl))
    · exact hput.of_eq (State.modCap_memories _ _ rfl rfl)
    · exact hput
  · exact hput.of_eq ((State.putEv_memories _ _ _).trans (State.modCap_memories _ _ rfl rfl))
  · exact hput

theorem unstage (h : s.memories.Sound W q) : (s.modCap (fun c => c.unstage o)).memories.Sound W q :=
  h.modCap _ h.objs (h.stg.writeList _ _)

theorem writeObjCell (h : s.memories.Sound W q) (k : Nat) (v : Cell) : (s.writeObjCell o k v).memories.Sound W q := by
  unfold State.writeObjCell
  dsimp only
  split_ifs
  · exact (h.unstage o).applyObj o _
  · exact h.unstage o
  · exact h.modCap _ h.objs (h.stg.write _ _)

end Objects

theorem writeGpio (h : s.memories.Sound W q) (k : Nat) (v : Cell) : (s.writeGpio k v).memories.Sound W q := by
  unfold State.writeGpio
  split
  · exact h.modCap _ (h.objs.write _ _) h.stg
  · exact h

/-! ## Stores -/

theorem writeTraceCtl (h : s.memories.Sound W q) (v : Cell) : (s.writeTraceCtl v).memories.Sound W q := by
  refine h.modRecs _ rfl rfl rfl ?_
  dsimp only
  split
  · exact Trace.canon_put _ _ h.recs
  · exact h.recs

theorem devStore (h : s.memories.Sound W q) (c : CoreId) (a : Nat) (v : Cell) (dbg : Bool) :
    (s.devStore c a v dbg).memories.Sound W q := by
  unfold State.devStore
  split_ifs
  · exact h.of_eq (s.writeArm_memories c _ _ v)
  · exact h.of_eq (s.writeIcache_memories c v)
  · exact h.of_eq (s.clearMseq_memories c v)
  · exact h.of_eq (s.writeWp_memories c _ _ v dbg)
  · exact h.of_eq (s.writeCmpCtrl_memories _ v)
  · exact h
  · exact h.of_eq (s.releaseRing_memories _ v)
  · exact h.of_eq (s.writeRingCell_memories _ _ v)
  · exact h.writeGpio _ v
  · split
    · exact h.writeObjCell _ _ v
    · exact h
  · exact h.writeTraceCtl v
  · exact h.of_eq (s.clearTraceFull_memories v)
  · exact h

theorem applyStore (h : s.memories.Sound W q) (c : CoreId) (e : SEntry) : (s.applyStore c e).memories.Sound W q := by
  unfold State.applyStore
  dsimp only
  split
  · exact h
  · split
    · split
      · exact h.devStore c _ _ _
      · exact h.putCellMem c _ _
    · split
      · exact h.of_eq (s.devStore2_memories _ _)
      · exact (h.putCellMem c _ _).putCellMem c _ _
    · exact h.putCellMem c _ _

end Memories.Sound

end Sys2Proof.Machine
end

section
/-! What the vault, its journal and its commits write keeps the memories sound. -/

namespace Sys2Proof.Machine

/-! ## Lines and journal records -/

/-- The two memories of a vault are in their canonical form. -/
structure Vault.Canon (W : Prop) (v : Vault) : Prop where
  wear : Memory.Canon W v.wear
  raw : Memory.Canon W v.raw

variable {W : Prop}

theorem Vault.retire_memories (v : Vault) (b : Nat) : (v.retire b).wear = v.wear ∧ (v.retire b).raw = v.raw := by
  unfold Vault.retire
  split_ifs <;> exact ⟨rfl, rfl⟩

theorem Vault.canon_wearLine {v : Vault} (h : v.Canon W) (l : Nat) : (v.wearLine l).Canon W := by
  have hwear : Memory.Canon W (memWrite v.wear l (memRead v.wear l + 1)) := h.wear.write _ _
  unfold Vault.wearLine
  dsimp only
  split
  · obtain ⟨hw, hr⟩ := Vault.retire_memories
      { v with wear := memWrite v.wear l (memRead v.wear l + 1), ueLines := v.ueLines.filter (· ≠ l) } (l / 32)
    exact ⟨by rw [hw]; exact hwear, by rw [hr]; exact h.raw⟩
  · exact ⟨hwear, h.raw⟩

theorem Vault.canon_putLine {v : Vault} (h : v.Canon W) (l : Nat) (bytes : List Byte) : (v.putLine l bytes).Canon W :=
  ⟨(Vault.canon_wearLine h l).wear, h.raw.write _ _⟩

theorem Hearth.canon_jraw {h : Hearth} (hv : h.vault.Canon W) (r : JRec) (hd : Heads) : (h.jraw r hd).vault.Canon W :=
  ⟨(Vault.canon_wearLine hv _).wear, hv.raw.write _ _⟩

theorem Hearth.canon_jheads {h : Hearth} (hv : h.vault.Canon W) : h.jheads.vault.Canon W := by
  obtain ⟨hw, hr⟩ := Hearth.canon_jraw hv { ty := .heads, heads := some (h.vault.jhd, partFirst .prot + h.vault.relPos) } h.vault.jhd
  exact ⟨hw, hr⟩

theorem Hearth.canon_jputH {h : Hearth} (hv : h.vault.Canon W) (r : JRec) (hd : Heads) : (h.jputH r hd).vault.Canon W := by
  unfold Hearth.jputH
  dsimp only
  split
  · exact Hearth.canon_jheads (Hearth.canon_jraw hv r hd)
  · obtain ⟨hw, hr⟩ := Hearth.canon_jraw hv r hd
    exact ⟨hw, hr⟩

namespace Memories.Sound

variable {W : Prop} {q : List Instr} {s : State}

theorem vault (h : s.memories.Sound W q) : s.hs.vault.Canon W := ⟨h.wear, h.raw⟩

theorem jputH (h : s.memories.Sound W q) (f : Hearth → JRec) (g : Hearth → Heads) :
    (s.modHs (fun h => h.jputH (f h) (g h))).memories.Sound W q := by
  obtain ⟨v, hv⟩ := Hearth.jputH_vault s.hs (f s.hs) (g s.hs)
  obtain ⟨hw, hr⟩ := Hearth.canon_jputH h.vault (f s.hs) (g s.hs)
  exact h.modHs _ (by rw [hv]) (by rw [hv]) hw hr

theorem jput (h : s.memories.Sound W q) (f : Hearth → JRec) : (s.modHs (fun h => h.jput (f h))).memories.Sound W q :=
  h.jputH f (fun h => h.vault.jhd)

/-! ## Cords (R241 to R253) -/

theorem enterLeaf (h : s.memories.Sound W q) (l : Leaf) (e : SealSt → SealSt) :
    ((s.modHs (fun h => h.jput (h.leafRec .leaf l true))).modSeal e).memories.Sound W q :=
  (h.jput (fun h => h.leafRec .leaf l true)).of_eq (State.modSeal_memories _ e)

theorem pump (n : Nat) : ∀ {s : State}, s.memories.Sound W q → (s.pump n).memories.Sound W q := by
  induction n with
  | zero => exact fun h => h
  | succ n ih =>
    intro s h
    unfold State.pump
    dsimp only
    split
    · split
      · exact ih (h.of_eq (s.closeCord_memories _))
      · split
        · exact ite (ih (h.enterLeaf _ _)) h
        · exact h
    · split
      · exact ih (h.of_eq (s.modSeal_memories _))
      · split
        · exact ite (ih (h.enterLeaf _ _)) h
        · exact h

theorem cords (h : s.memories.Sound W q) : s.cords.memories.Sound W q := h.pump _

theorem leafIn (h : s.memories.Sound W q) (cid : Nat) (l : Leaf) : (s.leafIn cid l).memories.Sound W q := by
  have hrec : ∀ b, (s.modHs (fun h => h.jput { (h.leafRec .commit l b) with cid := cid })).memories.Sound W q :=
    fun b => h.jput (fun h => { (h.leafRec .commit l b) with cid := cid })
  unfold State.leafIn
  dsimp only
  exact cords (ite ((hrec _).of_eq (State.modSeal_memories _ _)) ((hrec _).of_eq (State.modSeal_memories _ _)))

/-! ## The write stream (R261 to R265) -/

theorem writeLine (h : s.memories.Sound W q) (c : Commit) (i : Nat) : (s.writeLine c i).memories.Sound W q := by
  unfold State.writeLine
  dsimp only
  split
  · exact h.modVault _ (Vault.canon_putLine h.vault _ _).wear (Vault.canon_putLine h.vault _ _).raw
  · exact h.modVault _ (Vault.canon_wearLine h.vault _).wear (Vault.canon_wearLine h.vault _).raw

theorem beginWrite (h : s.memories.Sound W q) (c : Commit) : (s.beginWrite c).memories.Sound W q := by
  have hover : ((s.overwrite c).sysLines c 1).memories.Sound W q :=
    h.of_eq ((State.sysLines_memories _ c 1).trans (s.overwrite_memories c))
  unfold State.beginWrite
  rw [State.syncDstate_memories, State.modVault_memories _ _ rfl rfl]
  exact hover.jputH (fun h => h.jOf .intent c) _

theorem grab (h : s.memories.Sound W q) : s.grab.memories.Sound W q := by
  have hcur : ∀ o, (s.modVault (fun v => { v with cur := o })).memories.Sound W q :=
    fun o => h.of_eq (s.modVault_memories _ rfl rfl)
  have hpick : ∀ o : Option Commit, (match o with
      | some c => if c.begun then s.modVault (fun v => { v with cur := some c.id }) else s.beginWrite c
      | none => s.modVault (fun v => { v with cur := none })).memories.Sound W q := by
    intro o
    cases o with
    | some c => exact ite (hcur _) (h.beginWrite c)
    | none => exact hcur _
  unfold State.grab
  dsimp only
  cases s.hs.vault.curWrite with
  | some c => exact ite (hpick _) h
  | none => exact hpick _

theorem lineStep (h : s.memories.Sound W q) : s.lineStep.memories.Sound W q := by
  unfold State.lineStep
  split
  · next c _ =>
    refine ite (grab ?_) h
    rw [State.modVault_memories _ _ rfl rfl, State.sysLines_memories]
    exact h.writeLine c _
  · exact h

theorem runStream (n : Nat) : ∀ {s : State}, s.memories.Sound W q → (s.runStream n).memories.Sound W q := by
  induction n with
  | zero => exact fun h => h
  | succ n ih =>
    intro s h
    unfold State.runStream
    split
    · exact ite (ih h.lineStep) h
    · exact h

theorem streamed (h : s.memories.Sound W q) : s.streamed.memories.Sound W q := h.grab.runStream _

theorem streamCycle (h : s.memories.Sound W q) : s.streamCycle.memories.Sound W q :=
  ite (h.of_eq (s.modVault_memories _ rfl rfl)) (lineStep (h.of_eq (s.modVault_memories _ rfl rfl)))

/-! ## Admission (R276 to R278) -/

theorem takeIn (h : s.memories.Sound W q) (c : Commit) : (s.takeIn c).memories.Sound W q :=
  grab (h.of_eq (s.admission_memories c))

theorem judgeLast (h : s.memories.Sound W q) : s.judgeLast.memories.Sound W q := by
  unfold State.judgeLast
  dsimp only
  split
  · exact ite (h.takeIn _) h
  · exact h

theorem judgeClass (l : List Commit) : ∀ {s : State}, s.memories.Sound W q → (s.judgeClass l).1.memories.Sound W q := by
  induction l with
  | nil => exact fun h => h
  | cons c r ih =>
    intro s h
    unfold State.judgeClass
    dsimp only
    split
    · exact h
    · split
      · exact h
      · exact ih (h.takeIn c)

theorem judgeAll (h : s.memories.Sound W q) : s.judgeAll.memories.Sound W q := by
  unfold State.judgeAll
  dsimp only
  split
  · exact h.judgeClass _
  · split
    · exact (h.judgeClass _).judgeClass _
    · exact ((h.judgeClass _).judgeClass _).judgeClass _

/-! ## Commits that are durable (R261, R273) -/

theorem logDurable (h : s.memories.Sound W q) (c : Commit) (l : VLog) : (s.logDurable c l).memories.Sound W q := by
  have hmark : (s.modVault (fun v =>
      { v with logs := v.logs.map (fun x => if x.seq = l.seq then { x with durable := true } else x) })).memories.Sound W q :=
    h.of_eq (s.modVault_memories _ rfl rfl)
  have hlast : ∀ r : State, r.memories.Sound W q → (if l.cls = 0x84 then
      r.modHs (fun h => { h with life := h.life.map (fun x => { x with logSeq := some l.seq }) })
    else if l.cls = 0x85 then r.chalDone else r).memories.Sound W q := fun r hr =>
    ite (hr.of_eq (r.modHs_memories _ rfl rfl rfl rfl)) (ite (hr.of_eq r.chalDone_memories) hr)
  unfold State.logDurable
  dsimp only
  refine hlast _ ?_
  split
  · rw [State.modRun_memories, State.applySetting_memories, State.exportDurable_memories]
    refine leafIn ?_ _ _
    split
    · exact ite (hmark.of_eq (State.freeSlot_memories _ _ _)) hmark
    · exact hmark
  · rw [State.applySetting_memories, State.exportDurable_memories]
    refine leafIn ?_ _ _
    split
    · exact ite (hmark.of_eq (State.freeSlot_memories _ _ _)) hmark
    · exact hmark

end Memories.Sound

end Sys2Proof.Machine
end

section
/-! What commits, a power failure, a planned entry, core resets and images do keeps the memories sound. -/

namespace Sys2Proof.Machine

theorem Vault.putSlotRec_memories (v : Vault) (b : Bool) (id svn len : Nat) :
    (v.putSlotRec b id svn len).wear = v.wear ∧ (v.putSlotRec b id svn len).raw = v.raw := by
  cases b <;> exact ⟨rfl, rfl⟩

theorem Vault.keepRec_memories (v : Vault) (c : Commit) : (v.keepRec c).wear = v.wear ∧ (v.keepRec c).raw = v.raw := by
  unfold Vault.keepRec
  split <;> exact ⟨rfl, rfl⟩

theorem State.withBist_memories (s : State) (b : Bist) : State.memories { s with bist := b } = s.memories := rfl

namespace Memories.Sound

variable {W : Prop} {q : List Instr} {s : State}

/-! ## Commits (R273) -/

theorem kindDone (h : s.memories.Sound W q) (k : CKind) : (s.kindDone k).memories.Sound W q := by
  have hv : ∀ f : Vault → Vault, (f s.hs.vault).wear = s.hs.vault.wear → (f s.hs.vault).raw = s.hs.vault.raw →
      (s.modVault f).memories.Sound W q := fun f hw hr => h.of_eq (s.modVault_memories f hw hr)
  have hs : ∀ f, (s.modSeal f).memories.Sound W q := fun f => h.of_eq (s.modSeal_memories f)
  unfold State.kindDone
  split
  · exact h
  · exact h
  · exact h
  · exact h.of_eq (s.applyPhase_memories _)
  · exact hv _ rfl rfl
  · exact hv _ rfl rfl
  · exact hv _ rfl rfl
  · exact hv _ rfl rfl
  · refine hv _ ?_ ?_ <;> split_ifs <;> rfl
  · exact (hv _ rfl rfl).of_eq (State.modHs_memories _ _ rfl rfl rfl rfl)
  · refine of_eq (hv _ ?_ ?_) (State.setEv_memories _ _) <;> dsimp only <;> split <;> rfl
  · exact hv _ (Vault.putSlotRec_memories _ _ _ _ _).1 (Vault.putSlotRec_memories _ _ _ _ _).2
  · refine hv _ ?_ ?_ <;> split <;> rfl
  · exact hs _
  · exact cords ((hv _ rfl rfl).of_eq (State.modSeal_memories _ _))
  · exact hs _
  · exact hs _
  · exact (hs _).of_eq (State.trySwitch_memories _)
  · exact hs _
  · exact hs _

/-- The state in which a write has left the admitted ones. -/
theorem leftAdmission (h : s.memories.Sound W q) (c : Commit) : (((s.sysLines c 1).modVault (fun v =>
    { (v.keepRec c) with adm := v.adm.filter (fun x => x.id ≠ c.id), cur := none })).giveBack c).memories.Sound W q := by
  rw [State.giveBack_memories]
  refine of_eq ?_ (State.modVault_memories _ _ (Vault.keepRec_memories _ c).1 (Vault.keepRec_memories _ c).2)
  exact h.of_eq (s.sysLines_memories c 1)

theorem commitDone (h : s.memories.Sound W q) (c : Commit) : (s.commitDone c).memories.Sound W q := by
  have hleft := h.leftAdmission c
  have htail : ∀ r : State, r.memories.Sound W q → (match c.tag with
      | some t => r.runStep t
      | none => r).grab.syncDstate.memories.Sound W q := by
    intro r hr
    rw [State.syncDstate_memories]
    split
    · exact grab (hr.of_eq (r.runStep_memories _))
    · exact hr.grab
  have hpilot : ∀ r : State, r.memories.Sound W q → (if c.fromPilot then
      (if s.pil.dmp.pfWarn then ((r.setEv 0x1181).pilotNext 4).judgeLast else (r.setEv 0x1181).pilotNext 4)
      else r).memories.Sound W q := by
    intro r hr
    have hnext : ((r.setEv 0x1181).pilotNext 4).memories.Sound W q :=
      hr.of_eq ((State.pilotNext_memories 4 _).trans (r.setEv_memories _))
    exact ite (ite hnext.judgeLast hnext) hr
  unfold State.commitDone
  dsimp only
  refine htail _ (hpilot _ ?_)
  split
  · exact hleft.logDurable c _
  · rw [State.keepSecrets_memories]
    exact kindDone (hleft.jput (fun h => h.jOf .commit c)) _

theorem tearCommit (h : s.memories.Sound W q) (c : Commit) : (s.tearCommit c).memories.Sound W q := by
  have hbegun : (if c.begun then (s.modHs (fun h => h.jput (h.jOf .torn c))).modVault (fun v => { v with torn := satInc v.torn })
      else s).memories.Sound W q :=
    ite ((h.jput (fun h => h.jOf .torn c)).of_eq (State.modVault_memories _ _ rfl rfl)) h
  unfold State.tearCommit
  dsimp only
  split
  · rw [State.modVault_memories _ _ rfl rfl, State.modSeal_memories, State.modVault_memories _ _ rfl rfl]
    exact hbegun
  · rw [State.modVault_memories _ _ rfl rfl]
    exact hbegun

theorem tearCommits (h : s.memories.Sound W q) : s.tearCommits.memories.Sound W q :=
  h.foldl _ (fun _ c hr => hr.tearCommit c) _

/-! ## The power-fail warning and planned entries (R281, R390) -/

theorem powerFail (h : s.memories.Sound W q) : s.powerFail.memories.Sound W q := by
  have hlost : ((s.loseNotes.modVault (fun v => { v with wait := [] })).loseLogs).memories = s.memories := by
    rw [State.loseLogs_memories, State.modVault_memories _ _ rfl rfl, State.loseNotes_memories]
  unfold State.powerFail
  dsimp only
  generalize (s.loseNotes.modVault (fun v => { v with wait := [] })).loseLogs = s1 at hlost ⊢
  rw [State.withBist_memories, State.modPw_memories, State.modHs_memories _ _ rfl rfl rfl rfl, State.modFl_memories,
    State.modFb_memories _ _ rfl rfl rfl rfl, State.modSeal_memories]
  refine judgeLast ?_
  rw [State.checkpoint_memories, State.modDmp_memories]
  exact h.of_eq ((s1.withPil_memories _ rfl rfl).trans hlost)

end Memories.Sound

end Sys2Proof.Machine
end

section
/-! What a planned entry, core resets, images and the debug port do keeps the memories sound. -/

namespace Sys2Proof.Machine

namespace Memories.Sound

variable {W : Prop} {q : List Instr} {s : State}

/-! ## The planned entry (R390) -/

/-- The step of the planned entry that is due does not matter for the memories. -/
theorem planned (h : s.memories.Sound W q) (n : Nat) : (s.modPw (fun p => { p with plan := some n })).memories.Sound W q := h

theorem planStep (h : s.memories.Sound W q) : s.planStep.memories.Sound W q := by
  have hclose : ∀ (r : State) (i : Nat), r.memories.Sound W q → (if (r.hs.slots.get i).state ≠ .open_ then r
      else if (r.hs.slots.get i).segs.isEmpty then r.dropLog i
      else (r.modSlot i (fun l => { l with state := .committing })).logReady i).memories.Sound W q := fun r i hr =>
    ite hr (ite (hr.of_eq (r.dropLog_memories i)) (hr.of_eq (State.logReady_memories _ i)))
  unfold State.planStep
  split
  · exact h
  · dsimp only
    refine ite h (ite (ite (planned ?_ 1) h) (ite (ite (planned ?_ 2) h) (ite (ite (planned ?_ 3) h) (ite (ite (planned ?_ 4) h) h))))
    · exact h.of_eq (s.mapCores_memories _ (fun _ => rfl))
    · refine foldl (foldl (h.foldl _ hclose _) _ (fun r n hr => ?_) _) _ (fun r i hr => ?_) _
      · exact ite (hr.applyObj _ _) hr
      · exact ite hr hr
    · have hcords : (if s.hs.se.openCord.isEmpty = true then s
          else (s.modSeal (fun e => { e with timer := none, due := match e.due with | some r => some r | none => some .timer })).cords).memories.Sound W q :=
        ite h (cords h)
      exact ite (hcords.of_eq (State.submit_memories _ _ _)) hcords
    · exact h.of_eq (s.checkpoint_memories 3)

/-! ## Core resets (R166) -/

theorem resetCore (h : s.memories.Sound W q) (c : CoreId) : (s.resetCore c).memories.Sound W q := by
  have hdrain : ((s.core c).sb.foldl (fun (q : State) e => q.applyStore c e) (s.abandonBist.dropOpen c)).memories.Sound W q :=
    (h.of_eq ((State.dropOpen_memories _ c).trans s.abandonBist_memories)).foldl _ (fun _ e hr => hr.applyStore c e) _
  unfold State.resetCore
  dsimp only
  generalize (s.core c).sb.foldl (fun (q : State) e => q.applyStore c e) (s.abandonBist.dropOpen c) = s1 at hdrain ⊢
  rw [State.syncDstate_memories]
  have hread := hdrain.of_eq (s1.readAppends_memories c)
  generalize s1.readAppends c = s2 at hread ⊢
  have hfree := hread.of_eq (s2.modFb_memories (fun f =>
    { f with holds := f.holds.filter (fun h => h.core ≠ c), wants := f.wants.filter (fun h => h.core ≠ c) }) rfl rfl rfl rfl)
  generalize s2.modFb _ = s3 at hfree ⊢
  have hclear := hfree.modCore c (fun k => { reinst := installState s.fLife, attached := k.attached })
    ⟨Memory.Canon.nil, Memory.Canon.nil, Memory.Canon.nil⟩
  generalize s3.modCore c _ = s4 at hclear ⊢
  exact ite (hclear.of_eq (s4.modHs_memories _ rfl rfl rfl rfl)) (hclear.of_eq (State.withPil_memories _ _ rfl rfl))

theorem runReset (h : s.memories.Sound W q) (t : Nat) (c : CoreId) : (s.runReset t c).memories.Sound W q := by
  have hhalt : (s.haltCore c).memories.Sound W q := h.of_eq (s.haltCore_memories c)
  have hrun : (((s.haltCore c).resetCore c).modRun t (fun r => { r with kind := .coreReset c.toNat true })).memories.Sound W q :=
    (hhalt.resetCore c).of_eq (State.modRun_memories _ t _)
  unfold State.runReset
  exact ite h (ite hhalt (ite hrun (hrun.of_eq (State.finish_memories _ t 0 [0]))))

theorem resetRuns (h : s.memories.Sound W q) : s.resetRuns.memories.Sound W q := by
  refine h.foldl _ (fun r x hr => ?_) _
  split
  · exact hr.runReset _ _
  · exact hr

/-! ## Images (R335 to R337) -/

theorem putSeg (h : s.memories.Sound W q) (g : ImgSeg) : (s.putSeg g).memories.Sound W q := by
  unfold State.putSeg
  split
  · exact { h with prog := h.prog.writeList _ _ }
  · exact { h with shared := h.shared.writeList _ _ }
  · exact h.foldl _ (fun r i hr => ite (hr.modLmem _ _ ((hr.core _).lmem.writeList _ _)) hr) _

theorem putImage (h : s.memories.Sound W q) (b : List Byte) : (s.putImage b).memories.Sound W q := by
  have hinval : s.invalAll.memories.Sound W q := h.of_eq s.invalAll_memories
  unfold State.putImage
  split
  · exact hinval.foldl _ (fun _ g hr => hr.putSeg g) _
  · exact hinval

theorem wipeImage (h : s.memories.Sound W q) : s.wipeImage.memories.Sound W q :=
  mapCores (s := s.modFb (fun f => { f with prog := [], shared := [] })) { h with prog := Memory.Canon.nil, shared := Memory.Canon.nil }
    (fun k => { k.inval with lmem := [] }) (fun _ hk => { hk with lmem := Memory.Canon.nil })

theorem tryImage (h : s.memories.Sound W q) (tag : Nat) (b : List Byte) : (s.tryImage tag b).memories.Sound W q :=
  ite h ((h.of_eq (s.modRun_memories tag _)).putImage b)

theorem verified (h : s.memories.Sound W q) (r : Run) : (s.verified r).memories.Sound W q := by
  unfold State.verified
  split
  · dsimp only
    split_ifs
    · exact h.wipeImage.of_eq (State.finish_memories _ _ _ _)
    · exact h.of_eq (State.finish_memories _ _ _ _)
    · exact h.of_eq ((State.submit_memories _ _ _).trans (s.modRun_memories _ _))
    · exact h.of_eq (s.finish_memories _ _ _)
    · exact h.of_eq ((State.submit_memories _ _ _).trans (s.modRun_memories _ _))
  · dsimp only
    split_ifs
    · exact h.of_eq (s.finish_memories _ _ _)
    · exact h.of_eq ((State.submit_memories _ _ _).trans (s.modRun_memories _ _))
  · exact h

theorem startRuns (h : s.memories.Sound W q) : s.startRuns.memories.Sound W q := by
  refine h.foldl _ (fun r x hr => ?_) _
  split
  · exact hr.of_eq (r.tryStart_memories _ _ _ _ _)
  · exact hr.of_eq (r.tryStop_memories _ _ _)
  · exact hr.of_eq (r.tryQuery_memories _ _)
  · exact hr.tryImage _ _
  · exact hr.runReset _ _
  · exact hr

/-! ## The debug port (R408 to R416) -/

theorem dbgDoWrite (h : s.memories.Sound W q) (r : DbgReq) : (s.dbgDoWrite r).memories.Sound W q := by
  have hend : ∀ (u : State) (n : BitVec 4), u.memories.Sound W q → (u.dbgEnd n).memories.Sound W q :=
    fun u n hu => hu.of_eq (u.dbgEnd_memories n none)
  unfold State.dbgDoWrite
  dsimp only
  split
  · exact ite (hend _ _ h) (ite (hend _ _ h) (hend _ _ (h.of_eq (s.modCore_memories _ _ rfl rfl))))
  · exact ite (hend _ _ h) (hend _ _ { h with prog := h.prog.write _ _ })
  · exact ite (hend _ _ h) (hend _ _ (h.of_eq (s.writeBit_memories _ _ _ _)))
  · refine ite (hend _ _ h) ?_
    split
    · exact hend _ _ (h.of_eq (s.modTh_memories _ _ _))
    · exact hend _ _ h
  · exact hend _ _ h
  · exact hend _ _ h

theorem dbgAct (h : s.memories.Sound W q) (op : DbgOp) (r : DbgReq) : (s.dbgAct op r).memories.Sound W q := by
  cases op
  case wr => exact h.dbgDoWrite r
  case nop => exact h.of_eq (s.dbgEnd_memories _ _)
  case rd => exact h.of_eq (s.dbgDoRead_memories r false)
  case rdx => exact h.of_eq (s.dbgDoRead_memories r true)
  case halt => exact h.of_eq (s.dbgDoHalt_memories r)
  case resume => exact h.of_eq (s.dbgDoResume_memories r)
  case step => exact h.of_eq (s.dbgDoStep_memories r)
  case attach => exact h.of_eq ((State.dbgEnd_memories _ _ _).trans (s.modCore_memories _ _ rfl rfl))
  case inval =>
    exact h.of_eq ((State.dbgEnd_memories _ _ _).trans ((State.refetch_memories _ _).trans (s.modCore_memories _ _ rfl rfl)))

theorem dbgServe (h : s.memories.Sound W q) : s.dbgServe.memories.Sound W q := by
  have hend : ∀ n, (s.dbgEnd n).memories.Sound W q := fun n => h.of_eq (s.dbgEnd_memories n none)
  unfold State.dbgServe
  dsimp only
  split
  · exact hend _
  · exact ite (hend _) (ite (hend _) (ite (hend _) (h.dbgAct _ _)))

theorem dbgRuns (h : s.memories.Sound W q) : s.dbgRuns.memories.Sound W q := ite h.dbgServe h

theorem dbgSubmit (h : s.memories.Sound W q) (op : DbgOp) (r : DbgReq) : (s.dbgSubmit op r).memories.Sound W q :=
  ite h (dbgServe (h.of_eq (s.modTap_memories _)))

theorem goOn (h : s.memories.Sound W q) : s.goOn.memories.Sound W q := by
  refine dbgRuns ?_
  rw [State.tapRuns_memories, State.emberOffRuns_memories, State.relockRuns_memories]
  exact startRuns (h.planStep.of_eq (State.stopRuns_memories _))

/-! ## A cycle -/

theorem hearthCycle (h : s.memories.Sound W q) : s.hearthCycle.memories.Sound W q := by
  have hrun : (if s.vaultOn then s.streamCycle else s).memories.Sound W q := ite h.streamCycle h
  exact ite (hrun.of_eq ((State.randomRuns_memories _).trans (State.trngFill_memories _))) hrun

theorem cycle (h : s.memories.Sound W q) : s.cycle.memories.Sound W q := by
  unfold State.cycle
  refine ite (of_eq (hearthCycle ?_) (State.flueCycle_memories _)) (ite h (h.of_eq (s.modPh_memories _)))
  rw [State.captureCycle_memories, State.syncMirror_memories, State.modPh_memories]
  exact h.of_eq (State.takeDue_memories _)

theorem idle (h : s.memories.Sound W q) : s.idle.memories.Sound W q :=
  goOn (h.cycle.of_eq (State.modFb_memories _ _ rfl rfl rfl rfl))

end Memories.Sound

end Sys2Proof.Machine
end

section
/-! The queue: what a step on an empty one leaves. -/

namespace Sys2Proof.Machine

/-- Of the queue alone nothing is asked of the memories. -/
theorem State.sound_false (s : State) : s.memories.Sound False s.pending where
  pending := rfl
  prog := False.elim
  shared := False.elim
  ember := False.elim
  recs := False.elim
  objs := False.elim
  stg := False.elim
  norm := False.elim
  strict := False.elim
  wear := False.elim
  raw := False.elim
  fuses := False.elim
  cores _ _ := ⟨False.elim, False.elim, False.elim⟩

theorem State.idle_pending (s : State) : s.idle.pending = s.pending := s.sound_false.idle.pending

end Sys2Proof.Machine

namespace Sys2Proof

open Machine

/-- Settles O1: the front command runs on the queue's rest, and a clock cycle makes no command. -/
theorem stepRunsFront : Obligations.StepRunsFront :=
  ⟨fun _ _ => rfl, fun s hs => ⟨s.idle, step_of_pending_nil s hs, s.idle_pending.trans hs⟩⟩

end Sys2Proof
end

section
/-! What resets, the boot, the host's window, self tests, fuses and the end of a life do keeps the memories sound. -/

namespace Sys2Proof.Machine

theorem Otp.Sound.pulses {t : Otp} (h : t.Sound) (f : Nat → BitVec 39) (o : FuseShot) (l : List Nat) :
    (l.foldl (fun (u : Otp) w => u.pulse w (f w) o) t).Sound :=
  List.foldlRecOn l _ (motive := Otp.Sound) h (fun _ hu w _ => hu.pulse w (f w) o)

theorem Otp.Sound.programAll {t : Otp} (h : t.Sound) (ws : List (Nat × BitVec 39)) (o : FuseShot) :
    (t.programAll ws o).Sound :=
  List.foldlRecOn ws _ (motive := Otp.Sound) h (fun _ hu x _ => hu.pulse x.1 _ o)

theorem Otp.Sound.startRead {t : Otp} (h : t.Sound) (o : FuseShot) : (t.startRead o).Sound := by
  have hread : ∀ n l, Otp.Sound { t with marginal := n, lowest := l, done := true } := fun _ _ => ⟨h.norm, h.strict, h.margin⟩
  unfold Otp.startRead
  dsimp only
  split
  · exact (hread _ _).pulses _ o _
  · exact hread _ _

theorem CtlStore.canon_install {W : Prop} {m : Mem 24} {k : CtlStore} (h : OwnCanon W (m, k)) (o : Bool) (words : Nat)
    (p : List Byte) : OwnCanon W (m, k.install o words p) := by
  have hopen : Memory.Canon W (bundleWords true words p) := Memory.Canon.bundleWords true words p
  have hpatch : Memory.Canon W (bundleWords false words p) := Memory.Canon.bundleWords false words p
  unfold CtlStore.install
  generalize bundleWords true words p = x at hopen ⊢
  generalize bundleWords false words p = y at hpatch ⊢
  split
  · exact { h with openw := hopen }
  · exact { h with patch := hpatch }

theorem Fire.canon_reset {W : Prop} (f : Fire) (host : Bool) (lev : BitVec 4) :
    Memory.Canon W (f.reset host lev).prog ∧ Memory.Canon W (f.reset host lev).shared ∧
    Memory.Canon W (f.reset host lev).ember ∧ Memory.Canon W (f.reset host lev).trace.recs := by
  cases host <;> exact ⟨Memory.Canon.nil, Memory.Canon.nil, Memory.Canon.nil, Memory.Canon.nil⟩

theorem Capture.canon_reset {W : Prop} (c : Capture) (host : Bool) :
    Memory.Canon W (c.reset host).objs ∧ Memory.Canon W (c.reset host).stg := by
  have hobjs : Memory.Canon W ({} : Capture).objs := fun _ => by decide
  cases host <;> exact ⟨hobjs, Memory.Canon.nil⟩

theorem Tab.get_ofFn {α : Type} [Inhabited α] {n : Nat} (f : Fin n → α) (i : Nat) (h : i < n) :
    Tab.get (Vector.ofFn f) i = f ⟨i, h⟩ := by
  simp [Tab.get, h]

namespace Memories.Sound

variable {W : Prop} {q : List Instr} {s : State}

/-! ## Resets (R381 to R383) -/

theorem resetFire (h : s.memories.Sound W q) (k : SKind) : (s.resetFire k).memories.Sound W q := by
  have hcores : ∀ i, i < 16 → OwnCanon W
      (Tab.get (Vector.ofFn (fun i : Fin 16 => if s.keepsCore k i.val then s.cores.get i.val else {})) i).own := by
    intro i hi
    rw [Tab.get_ofFn _ i hi]
    dsimp only
    split
    · exact h.get_own hi
    · exact ⟨Memory.Canon.nil, Memory.Canon.nil, Memory.Canon.nil⟩
  obtain ⟨hprog, hshared, hember, hrecs⟩ := s.fb.canon_reset (W := W) (decide (k = SKind.host)) s.pil.cap.trigLev
  obtain ⟨hobjs, hstg⟩ := s.pil.cap.canon_reset (W := W) (decide (k = SKind.host))
  have hs := h.withCores _ hcores
  unfold State.resetFire
  dsimp only
  generalize s.fb.reset (decide (k = SKind.host)) s.pil.cap.trigLev = fb at hprog hshared hember hrecs ⊢
  generalize s.pil.cap.reset (decide (k = SKind.host)) = cap at hobjs hstg ⊢
  exact { hs with prog := hprog, shared := hshared, ember := hember, recs := hrecs, objs := hobjs, stg := hstg }

theorem resetHearth (h : s.memories.Sound W q) (host : Bool) : (s.resetHearth host).memories.Sound W q := by
  unfold State.resetHearth
  dsimp only
  split
  · exact { h with }
  · exact { h with }

end Memories.Sound

end Sys2Proof.Machine
end

section
/-! What starts, the host's window, commands on a link and a link that goes down do keeps the memories sound. -/

namespace Sys2Proof.Machine

namespace Memories.Sound

variable {W : Prop} {q : List Instr} {s : State}

theorem resetDies (h : s.memories.Sound W q) (k : SKind) : (s.resetDies k).memories.Sound W q :=
  (h.resetFire k).resetHearth false

theorem warmStart (h : s.memories.Sound W q) : s.warmStart.memories.Sound W q :=
  (resetDies (s := { s with pil := { s.pil.warm with noteLost := BitVec.ofNat 24 s.notesLost } }) h .warm).of_eq
    (State.modPw_memories _ _)

theorem beginHost (h : s.memories.Sound W q) : s.beginHost.memories.Sound W q := by
  unfold State.beginHost
  dsimp only
  rw [State.syncMirror_memories, State.linkStart_memories, State.modPw_memories]
  exact h.resetFire .host

theorem raiseHost (h : s.memories.Sound W q) : s.raiseHost.memories.Sound W q := by
  unfold State.raiseHost
  split
  · exact h.beginHost
  · exact h.of_eq (s.modPw_memories _)
  · exact ite h.beginHost h
  · exact h.of_eq s.resetFlue_memories
  · exact h
  · exact h

theorem rstCtl (h : s.memories.Sound W q) (v : BitVec 32) : (s.rstCtl v).memories.Sound W q :=
  ite (raiseHost (h.of_eq (s.modHs_memories _ rfl rfl rfl rfl))) h

/-! ## The start sequence (R377, R378) -/

theorem bootBundle (h : s.memories.Sound W q) (o : Bool) : (s.bootBundle o).memories.Sound W q := by
  unfold State.bootBundle
  dsimp only
  refine ite h ?_
  generalize (if o then s.hs.vault.openB else s.hs.vault.patchB) = b
  have hinst := h.mapCores (fun k => { k with cs := k.cs.install o (fld b 14 2) (s.bundleCheck b).2 })
    (fun _ hk => CtlStore.canon_install hk o _ _)
  exact ite (of_eq hinst (State.submit_memories _ _ _)) hinst

theorem bootSlot (h : s.memories.Sound W q) (b : Bool) : (s.bootSlot b).2.memories.Sound W q := by
  have hput : ∀ x, ((s.putImage x).takeImage x (if b then 1 else 0)).memories.Sound W q := fun x =>
    (h.putImage x).of_eq (State.takeImage_memories _ x _)
  unfold State.bootSlot
  dsimp only
  rw [apply_ite Prod.snd]
  refine ite h.wipeImage ?_
  · exact ite ((hput _).of_eq (State.submit_memories _ _ _)) (hput _)

theorem bootSlots (l : List Bool) : ∀ {s : State}, s.memories.Sound W q → (s.bootSlots l).memories.Sound W q := by
  induction l with
  | nil => exact fun h => h
  | cons b r ih =>
    intro s h
    have hslot : ((s.bootSlot b).2.modPw
        (fun p => if b then { p with statB := (s.bootSlot b).1 } else { p with statA := (s.bootSlot b).1 })).memories.Sound W q :=
      (h.bootSlot b).of_eq (State.modPw_memories _ _)
    exact ite hslot (ih hslot)

/-! ## The host's window (R467) -/

theorem barDword (h : s.memories.Sound W q) (o : Nat) (v : BitVec 32) : (s.barDword o v).memories.Sound W q := by
  unfold State.barDword
  split
  · exact ite h (h.of_eq (s.putHalf_memories _ _ _))
  · refine ite (h.rstCtl v) (ite (h.of_eq (s.stbyReqBit_memories v)) (ite (h.of_eq (s.clearWake_memories v))
      (ite (h.of_eq (s.modWk_memories _)) (ite (ite h ?_) (ite ?_ (ite (h.of_eq (s.putPollCtl_memories v))
      (ite (ite h (h.of_eq (s.modFl_memories _))) (ite (h.of_eq (s.modFl_memories _)) (ite (h.of_eq (s.cfgSq_memories _ v))
      (ite (h.of_eq (s.cfgCq_memories _ v)) (ite ?_ (ite (h.of_eq (s.putMsix_memories _ _ v)) h))))))))))))
    · refine h.of_eq (s.modHs_memories _ ?_ ?_ rfl rfl) <;> · dsimp only [Otp.putCmd]; split <;> rfl
    · refine h.of_eq (s.modHs_memories _ ?_ ?_ rfl rfl) <;> · dsimp only; split <;> rfl
    · exact ite (h.of_eq (s.cfgEq_memories _ v)) (ite (h.of_eq (s.cfgExt_memories _ v)) (ite (h.of_eq (s.cfgBq_memories _ v)) h))

theorem barWrite (h : s.memories.Sound W q) (off : BitVec 12) (be : BitVec 4) (v : BitVec 32) :
    (s.barWrite off be v).memories.Sound W q := ite h (h.barDword _ _)

/-! ## Commands that cross a link (R15) -/

theorem configObj (h : s.memories.Sound W q) (t : Nat) (o : Obj) (c : List Cell) : (s.configObj t o c).memories.Sound W q := by
  have hfin : ∀ (r : State) (st : Byte) (l : List Byte), r.memories.Sound W q → (r.finish t st l).memories.Sound W q :=
    fun r st l hr => hr.of_eq (r.finish_memories t st l)
  exact ite (hfin _ _ _ h) (ite (hfin _ _ _ h) (ite (hfin _ _ _ h) (hfin _ _ _ ((h.unstage o).applyObj o _))))

theorem linkRuns (h : s.memories.Sound W q) : s.linkRuns.memories.Sound W q := by
  refine h.foldl _ (fun r x hr => ?_) _
  split
  · refine ite (ite hr ?_) (ite hr ?_)
    · split
      · exact hr.configObj _ _ _
      · exact hr
    · split_ifs
      · exact hr.of_eq (r.pubkeyRead_memories _ _)
      · exact hr.of_eq (r.logRead_memories _ _)
      · exact hr.of_eq (r.cordRead_memories _ _)
      · exact hr.of_eq (r.chalGet_memories _ _)
      · exact hr.of_eq (r.chalAnswer_memories _ _)
      · exact hr.of_eq (r.odoRead_memories _)
  · exact hr

theorem hearthDown (h : s.memories.Sound W q) : s.hearthDown.memories.Sound W q := by
  have hruns : (s.fl.runs.foldl (fun (q : State) r =>
      if !r.usesVault then q
      else match r.kind with
        | .image 0 _ | .imageWait _ | .imageRun _ _ => q.wipeImage.finish r.tag 0x0E
        | .random _ _ k => q.finish r.tag 0x1A (leBytes 4 k)
        | _ => q.finish r.tag 0x0E) s).memories.Sound W q := by
    refine h.foldl _ (fun r x hr => ite hr ?_) _
    have hwiped : (r.wipeImage.finish x.tag 0x0E).memories.Sound W q := hr.wipeImage.of_eq (State.finish_memories _ _ _ _)
    split
    · exact hwiped
    · exact hwiped
    · exact hwiped
    · exact hr.of_eq (r.finish_memories _ _ _)
    · exact hr.of_eq (r.finish_memories _ _ _)
  unfold State.hearthDown
  dsimp only
  rw [State.loseNotes_memories, State.modHs_memories _ _ rfl rfl rfl rfl]
  exact hruns

theorem jumpTo (h : s.memories.Sound W q) (c : CoreId) (t : ThId) (src d : PAddr) : (s.jumpTo c t src d).memories.Sound W q :=
  (h.of_eq (s.modTh_memories c t _)).traceRec c t 1 src d

/-! ## Self tests (R417) -/

theorem modFire (h : s.memories.Sound W q) (f : Fire → Fire) (hp : Memory.Canon W (f s.fb).prog)
    (hs : Memory.Canon W (f s.fb).shared) (he : Memory.Canon W (f s.fb).ember) (hr : Memory.Canon W (f s.fb).trace.recs) :
    (s.modFb f).memories.Sound W q :=
  { h with prog := hp, shared := hs, ember := he, recs := hr }

theorem badUnit (h : s.memories.Sound W q) (u : BistUnit) : (s.badUnit u).memories.Sound W q := by
  have hfree : ∀ r : State, r.memories.Sound W q → (State.memories { r with free := s.free + 16 }).Sound W q := fun _ hr => hr
  unfold State.badUnit
  dsimp only
  refine hfree _ ?_
  generalize Config.freeCell = w
  cases u with
  | localCell c a => exact h.modLmem c _ ((h.core c).lmem.write _ _)
  | window c t i => exact h.of_eq (s.modTh_memories c t _)
  | retStack c t i => exact h.of_eq (s.modTh_memories c t _)
  | special c t i => exact h.of_eq (s.badSpecial_memories c t _ _ _)
  | privBits c t i => exact h.of_eq (s.modTh_memories c t _)
  | arm c t i => exact h.of_eq (s.modTh_memories c t _)
  | coreBits c i => exact h.of_eq (s.modCore_memories c _ rfl rfl)
  | patchWord c i => exact h.modCore c _ { h.core c with patch := (h.core c).patch.write _ _ }
  | openWord c i => exact h.modCore c _ { h.core c with openw := (h.core c).openw.write _ _ }
  | matchPoint c i => exact h.modCore c _ { h.core c with }
  | dispatch c i => exact h.modCore c _ { h.core c with }
  | progLine l =>
    have hl : Memory.Canon W (freeLine s.free s.fb.prog (16 * l.toNat)) := h.prog.freeLine _ _
    exact h.modFire _ hl h.shared h.ember h.recs
  | cellLine l =>
    have hs : Memory.Canon W (freeLine s.free s.fb.shared (16 * l.toNat)) := h.shared.freeLine _ _
    have he : Memory.Canon W (freeLine s.free s.fb.ember (16 * l.toNat)) := h.ember.freeLine _ _
    have hpick : ∀ (a b : Prop) [Decidable a] [Decidable b] (x y : Fire → Mem 24), Memory.Canon W (x s.fb) → Memory.Canon W (y s.fb) →
        (s.modFb (fun f => if a then { f with shared := x f } else if b then { f with ember := y f } else f)).memories.Sound W q := by
      intro a b _ _ x y hx hy
      by_cases ha : a
      · simp only [ha, if_true]
        exact { h with shared := hx }
      · by_cases hb : b
        · simp only [ha, hb, if_true, if_false]
          exact { h with ember := hy }
        · simp only [ha, hb, if_false]
          exact h
    exact hpick _ _ (fun f => freeLine s.free f.shared (16 * l.toNat)) (fun f => freeLine s.free f.ember (16 * l.toNat)) hs he

end Memories.Sound

end Sys2Proof.Machine
end

section
/-! What a self test, the fuses and the end of a life do keeps the memories sound. -/

namespace Sys2Proof.Machine

theorem Hearth.openSecrets_memories (h : Hearth) : h.openSecrets.otp = h.otp ∧ h.openSecrets.vault = h.vault := by
  obtain ⟨e, he⟩ := h.openSecrets_left
  rw [he]
  exact ⟨rfl, rfl⟩

theorem Hearth.wipe_memories (h : Hearth) : h.wipe.otp = h.otp ∧ h.wipe.vault = h.vault := by
  unfold Hearth.wipe
  dsimp only
  generalize h.otp.deriveKeys = k
  generalize (SealSt.reset _ _).sweep _ = e
  exact ⟨(Hearth.openSecrets_memories _).1, (Hearth.openSecrets_memories _).2⟩

theorem Hearth.canon_eraseVault {W : Prop} {h : Hearth} (hv : h.vault.Canon W) : h.eraseVault.vault.Canon W := by
  have hworn : Memory.Canon W (memWriteList h.vault.wear 0 ((List.range 131072).map (fun l => memRead h.vault.wear l + 1))) :=
    hv.wear.writeList _ _
  unfold Hearth.eraseVault
  dsimp only
  generalize List.range 131072 = n at hworn ⊢
  exact ⟨hworn, Memory.Canon.nil⟩

namespace Memories.Sound

variable {W : Prop} {q : List Instr} {s : State}

/-! ## Fuses (R355 to R360) -/

theorem otp (h : s.memories.Sound W q) (hW : W) : s.hs.otp.Sound := ⟨h.norm hW, h.strict hW, h.fuses hW⟩

theorem modOtp (h : s.memories.Sound W q) (f : Hearth → Hearth) (ho : W → (f s.hs).otp.Sound)
    (hw : Memory.Canon W (f s.hs).vault.wear) (hr : Memory.Canon W (f s.hs).vault.raw) : (s.modHs f).memories.Sound W q :=
  { h with norm := fun hW => (ho hW).norm, strict := fun hW => (ho hW).strict, fuses := fun hW => (ho hW).margin,
           wear := hw, raw := hr }

theorem fuseProgram (h : s.memories.Sound W q) (ws : List (Nat × BitVec 39)) (o : FuseShot) (data : Nat) :
    (s.fuseProgram ws o data).1.memories.Sound W q :=
  h.modOtp (fun h => { h with otp := s.hs.otp.programAll ws o }) (fun hW => (h.otp hW).programAll ws o) h.wear h.raw

theorem fuseGen (h : s.memories.Sound W q) (o : FuseShot) : (State.fuseGen o s).1.memories.Sound W q := by
  have htake : (s.trngTaken 32).memories.Sound W q := h.of_eq (s.trngTaken_memories 32)
  unfold State.fuseGen
  dsimp only
  generalize s.trngTaken 32 = s1 at htake ⊢
  rw [apply_ite Prod.fst]
  exact ite htake (htake.fuseProgram _ _ _)

/-- A fuse command that ends is BUSY until its end. -/
theorem fuseBusy (h : s.memories.Sound W q) (b : Option (Nat × Nat × Nat)) (g : Option FuseShot) :
    (s.modHs (fun h => { h with otp := { h.otp with busy := b, genWait := g } })).laneSync.memories.Sound W q :=
  h.of_eq ((State.laneSync_memories _).trans (s.modHs_memories _ rfl rfl rfl rfl))

theorem genResume (h : s.memories.Sound W q) : s.genResume.memories.Sound W q := by
  unfold State.genResume
  split
  · exact (h.fuseGen _).fuseBusy _ none
  · exact h

theorem fuseCmd (h : s.memories.Sound W q) (g w : Nat) (run : State → State × Nat × Nat × Nat)
    (hrun : ∀ r : State, r.memories.Sound W q → (run r).1.memories.Sound W q) : (s.fuseCmd g w run).memories.Sound W q := by
  have hcmd : (s.modHs (fun h => { h with otp := h.otp.putCmd g w })).memories.Sound W q := by
    refine h.of_eq (s.modHs_memories _ ?_ ?_ rfl rfl) <;> · dsimp only [Otp.putCmd]; split <;> rfl
  unfold State.fuseCmd
  dsimp only
  generalize s.modHs (fun h => { h with otp := h.otp.putCmd g w }) = s1 at hcmd ⊢
  refine ite h ?_
  have hran : (if s.hs.life.isSome then (s1, 4, 0, 0) else run s1).1.memories.Sound W q := by
    rw [apply_ite Prod.fst]
    exact ite hcmd (hrun _ hcmd)
  generalize (if s.hs.life.isSome then (s1, 4, 0, 0) else run s1) = x at hran ⊢
  exact hran.of_eq ((State.laneSync_memories _).trans (State.modHs_memories _ _ rfl rfl rfl rfl))

/-! ## Self tests (R417) -/

theorem bistEffect (h : s.memories.Sound W q) (i : Nat) (r : BistResult) (pass : Bool) :
    (s.bistEffect i r pass).memories.Sound W q := by
  have hbad : (if pass then s else (r.bad.filter (s.unitOf i)).foldl State.badUnit s).memories.Sound W q :=
    ite h (h.foldl _ (fun _ u hr => hr.badUnit u) _)
  unfold State.bistEffect
  dsimp only
  generalize (if pass then s else (r.bad.filter (s.unitOf i)).foldl State.badUnit s) = s1 at hbad ⊢
  have hcores : ∀ j, j < 16 → OwnCanon W (Tab.get (Vector.ofFn (fun c : Fin 16 =>
      if s.bist.cores.getLsbD c.val then (s1.cores.get c.val).inval else s1.cores.get c.val)) j).own := by
    intro j hj
    rw [Tab.get_ofFn _ j hj]
    dsimp only
    split
    · exact hbad.get_own hj
    · exact hbad.get_own hj
  refine ite (hbad.withCores _ hcores) (ite (hbad.of_eq s1.trngFail_memories) (ite (hbad.of_eq (s1.modVault_memories _ rfl rfl))
    (ite ?_ (ite (hbad.of_eq (s1.modLink_memories _ _)) (ite (hbad.of_eq (s1.modLink_memories _ _)) (ite ?_ hbad))))))
  · exact hbad.modOtp (fun h => { h with otp := h.otp.startRead r.otp }) (fun hW => (hbad.otp hW).startRead r.otp) hbad.wear hbad.raw
  · exact hbad

/-! ## The end of a life (R364 to R367) -/

theorem wipeFirebox (h : s.memories.Sound W q) : s.wipeFirebox.memories.Sound W q := by
  have hreset := h.foldl (fun (q : State) i => q.resetCore (BitVec.ofNat 4 i)) (fun _ i hr => hr.resetCore _) (List.range 16)
  unfold State.wipeFirebox
  dsimp only
  generalize (List.range 16).foldl (fun (q : State) i => q.resetCore (BitVec.ofNat 4 i)) s = s1 at hreset ⊢
  have hfire := hreset.modFire (fun f => { f with
    prog := [], shared := [], ember := [], trace := { f.trace with recs := [], wptr := 0, full := false, since := 0 } })
    Memory.Canon.nil Memory.Canon.nil Memory.Canon.nil Memory.Canon.nil
  generalize s1.modFb _ = s2 at hfire ⊢
  exact hfire.mapCores (fun k => { k with lmem := [], reinst := installState s.life }) (fun _ hk => { hk with lmem := Memory.Canon.nil })

theorem eraseVault (h : s.memories.Sound W q) : (s.modHs Hearth.eraseVault).memories.Sound W q :=
  h.modHs _ rfl rfl (Hearth.canon_eraseVault h.vault).wear (Hearth.canon_eraseVault h.vault).raw

theorem hearthWipe (h : s.memories.Sound W q) : (s.modHs Hearth.wipe).memories.Sound W q := by
  obtain ⟨ho, hv⟩ := s.hs.wipe_memories
  exact h.of_eq (s.modHs_memories _ (by rw [ho]) (by rw [ho]) (by rw [hv]) (by rw [hv]))

theorem endLife (h : s.memories.Sound W q) (l : LifeRun) : (s.endLife l).memories.Sound W q := by
  have hlocked : ((s.modHs (fun h => { h with chal := { h.chal with unlocked := false }, life := none })).laneSync).memories.Sound W q :=
    h.of_eq ((State.laneSync_memories _).trans (s.modHs_memories _ rfl rfl rfl rfl))
  unfold State.endLife
  dsimp only
  generalize (s.modHs (fun h => { h with chal := { h.chal with unlocked := false }, life := none })).laneSync = s1 at hlocked ⊢
  have herased : (if l.src = 0 ∧ l.dst = 1 then s1.modHs Hearth.eraseVault else s1).memories.Sound W q := ite hlocked.eraseVault hlocked
  generalize (if l.src = 0 ∧ l.dst = 1 then s1.modHs Hearth.eraseVault else s1) = s2 at herased ⊢
  have hwiped : (if (l.src, l.dst) ≠ (2, 3) then (s2.wipeFirebox.modHs Hearth.wipe).refuseWaiting else s2).memories.Sound W q :=
    ite (herased.wipeFirebox.hearthWipe.of_eq (State.refuseWaiting_memories _)) herased
  generalize (if (l.src, l.dst) ≠ (2, 3) then (s2.wipeFirebox.modHs Hearth.wipe).refuseWaiting else s2) = s3 at hwiped ⊢
  rw [State.syncDstate_memories, State.finish_memories, State.endRights_memories]
  exact hwiped

end Memories.Sound

end Sys2Proof.Machine
end

section
/-! The syllables keep the memories sound: each is issued with an effect that does. -/

namespace Sys2Proof.Machine

/-- The answer of a step: the state it gives has sound memories, and the queue `q`. -/
def Keeps (W : Prop) (q : List Instr) (a : Answer) : Prop := ∀ r, a = .next r → r.memories.Sound W q

namespace Memories.Sound

variable {W : Prop} {q : List Instr} {s : State}

theorem next (h : s.memories.Sound W q) : Keeps W q (.next s) := by
  intro r hr
  cases hr
  exact h

/-- A step that leaves the memories alone. -/
theorem nextOf {r : State} (h : s.memories.Sound W q) (e : r.memories = s.memories) : Keeps W q (.next r) := (h.of_eq e).next

theorem modTh (h : s.memories.Sound W q) (c : CoreId) (t : ThId) (f : Thread → Thread) : (s.modTh c t f).memories.Sound W q :=
  h.of_eq (s.modTh_memories c t f)

section Syllables

variable (h : s.memories.Sound W q) (c : CoreId) (t : ThId)
include h

theorem issues (y : Sylb) (hy : ∀ r : State, r.memories.Sound W q → (y.effect r).memories.Sound W q) :
    Keeps W q (.next (Machine.issue c t y s)) := (h.issue c t y hy).next

/-- A syllable that changes its thread alone. -/
theorem threadSyl (y : Sylb) (f : Thread → Thread) (hy : y.effect = fun r => r.modTh c t f) :
    Keeps W q (.next (Machine.issue c t y s)) :=
  h.issues c t y (fun _ hr => by rw [hy]; exact hr.modTh c t f)

/-! ## The families of OP syllables -/

theorem stackOp (k need pops pushes : Nat) (f : (Nat → Cell) → Cell → AluOut) :
    Keeps W q (stackOp c t k need pops pushes f s) := h.threadSyl c t _ _ rfl

theorem binOp (k : Nat) (f : Cell → Cell → Cell → AluOut) : Keeps W q (binOp c t k f s) := h.stackOp c t _ _ _ _ _

theorem unOp (k : Nat) (f : Cell → Cell → AluOut) : Keeps W q (unOp c t k f s) := h.stackOp c t _ _ _ _ _

theorem returnOp (k need net rpops rpushes : Nat) (f : Thread → Thread) :
    Keeps W q (returnOp c t k need net rpops rpushes f s) := h.threadSyl c t _ _ rfl

theorem mulOp (k : Nat) (f : Dbl → Cell → Cell → Dbl) : Keeps W q (mulOp c t k f s) := h.threadSyl c t _ _ rfl

theorem divOp (k : Nat) (f : Cell → Cell → Cell × Bool) : Keeps W q (divOp c t k f s) := h.threadSyl c t _ _ rfl

theorem phaseRead (code net : Nat) (f : Mirror → List Cell) : Keeps W q (phaseRead c t code net f s) := h.threadSyl c t _ _ rfl

theorem readSpecial (code net : Nat) (f : Dbl → List Cell) : Keeps W q (readSpecial c t code net f s) :=
  h.issues c t _ (fun r hr => (hr.of_eq (r.passCycles_memories c _)).modTh c t _)

theorem shortBit (o : Nat) (k : BitAct) (f : BitVec 7) : Keeps W q (shortBit c t o k f s) :=
  h.issues c t _ (fun r hr => hr.of_eq (r.bitRmw_memories c t k _))

theorem stackBit (code : Nat) (k : BitAct) : Keeps W q (stackBit c t code k s) :=
  h.issues c t _ (fun _ hr => (hr.modTh c t _).of_eq (State.bitRmw_memories _ c t k _))

theorem loadOp (code net : Nat) (k : LoadKind) : Keeps W q (loadOp c t code net k s) := by
  refine h.issues c t _ (fun r hr => ?_)
  dsimp only
  split
  · exact hr.of_eq (r.serveLoad_memories c t k _ _)
  · exact ite (hr.of_eq (r.serveLoad_memories c t k _ _)) (hr.modTh c t _)
  · exact hr.modTh c t _

theorem storeOp (code need pops : Nat) (f : Option FClass) (o : Cell) (k : Acc) (b : Nat) (z : SSize) (v : Dbl)
    (xs : List Cell) : Keeps W q (storeOp c t code need pops f o k b z v xs s) :=
  h.issues c t _ (fun r hr => hr.of_eq (r.modCore_memories c _ rfl rfl))

/-! ## Syllables with an effect of their own -/

theorem execPutb : Keeps W q (execPutb c t s) :=
  h.issues c t _ (fun _ hr => (hr.modTh c t _).of_eq (State.bitRmw_memories _ c t _ _))

theorem execRete : Keeps W q (execRete c t s) := h.issues c t _ (fun _ hr => (hr.modTh c t _).traceRec c t 3 _ _)

theorem execTrap : Keeps W q (execTrap c t s) := h.issues c t _ (fun _ hr => (hr.modTh c t _).enter c t _)

theorem execSwapctx : Keeps W q (execSwapctx c t s) :=
  h.issues c t _ (fun r hr => (hr.of_eq (r.modCore_memories c _ (Core.testXfer_lmem _ t) (Core.testXfer_cs _ t))).swapAsk c t)

theorem execUnassignedOp (k : BitVec 8) : Keeps W q (execUnassignedOp c t k s) :=
  (ite (h.issue c t _ (fun _ hr => hr)) h).next

theorem execFence : Keeps W q (execFence c t s) := h.issues c t _ (fun _ hr => ite hr (hr.modTh c t _))

theorem execLck : Keeps W q (execLck c t s) :=
  h.issues c t _ (fun _ hr => (hr.modTh c t _).of_eq (State.modFb_memories _ _ rfl rfl rfl rfl))

theorem execUlk : Keeps W q (execUlk c t s) := h.issues c t _ (fun r hr => hr.of_eq (r.endLock_memories c t))

theorem execOpenCode (k : BitVec 6) : Keeps W q (execOpenCode c t k s) :=
  h.issues c t _ (fun r hr => hr.of_eq (r.modCore_memories c _ rfl rfl))

/-! ## Log syllables -/

theorem execLopen : Keeps W q (execLopen c t s) := by
  refine h.issues c t _ (fun r hr => ?_)
  dsimp only
  split
  · exact ite ((hr.of_eq (r.openLog_memories c _ _)).modTh c t _) (hr.modTh c t _)
  · exact hr.modTh c t _

theorem execLapp : Keeps W q (execLapp c t s) :=
  h.issues c t _ (fun r hr => (hr.of_eq (r.onLog_memories c _ _ (fun i => State.lapp_memories c _ _ i r))).modTh c t _)

theorem execLemb : Keeps W q (execLemb c t s) :=
  h.issues c t _ (fun r hr => (hr.of_eq (r.onLog_memories c _ _ (fun i => State.lemb_memories _ i r))).modTh c t _)

theorem execLcommit : Keeps W q (execLcommit c t s) :=
  h.issues c t _ (fun r hr => (hr.of_eq (r.onLog_memories c _
    (fun i q => (q.modSlot i (fun l => { l with state := .committing })).logReady i) (fun i => State.logReady_memories _ i))).modTh c t _)

theorem execLdrop : Keeps W q (execLdrop c t s) :=
  h.issues c t _ (fun r hr => (hr.of_eq (r.onLog_memories c _ _ (fun i => r.dropLog_memories i))).modTh c t _)

theorem execLstat : Keeps W q (execLstat c t s) := by
  refine h.issues c t _ (fun r hr => ?_)
  dsimp only
  refine modTh ?_ c t _
  cases r.handle c ((s.th c t).top 0) with
  | none => exact hr.of_eq (r.modCnt_memories c _)
  | some i =>
    dsimp only
    rw [apply_ite Prod.fst]
    exact ite hr hr

theorem execEtrig : Keeps W q (execEtrig c t s) :=
  h.issues c t _ (fun r hr => (ite (hr.of_eq (r.modCnt_memories c _)) (hr.of_eq (r.trigger_memories _ _))).modTh c t _)

/-! ## Literals and branches -/

theorem execCall (d : BitVec 9) : Keeps W q (execCall c t d s) := h.issues c t _ (fun _ hr => (hr.modTh c t _).jumpTo c t _ _)

theorem execJmp (d : BitVec 9) : Keeps W q (execJmp c t d s) := h.issues c t _ (fun _ hr => hr.jumpTo c t _ _)

theorem execBcc (cc : BitVec 4) (d : BitVec 6) : Keeps W q (execBcc c t cc d s) :=
  h.issues c t _ (fun _ hr => ite (hr.jumpTo c t _ _) hr)

theorem execRet : Keeps W q (execRet c t s) := h.issues c t _ (fun _ hr => (hr.modTh c t _).jumpTo c t _ _)

theorem execCallx : Keeps W q (execCallx c t s) := h.issues c t _ (fun _ hr => (hr.modTh c t _).jumpTo c t _ _)

theorem execJmpx : Keeps W q (execJmpx c t s) := h.issues c t _ (fun _ hr => (hr.modTh c t _).jumpTo c t _ _)

end Syllables

end Memories.Sound

end Sys2Proof.Machine
end

section
/-! The cores, the capture side, the vault and the seals: their steps keep the memories sound. -/

namespace Sys2Proof.Machine

theorem Memory.Canon.filter {W : Prop} {w : Nat} {m : Mem w} (h : Memory.Canon W m) (p : Nat × BitVec w → Bool) :
    Memory.Canon W (m.filter p) := fun hW => memWfFrom_filter p m 0 (h hW)

theorem Vault.canon_freshBlock {W : Prop} {v : Vault} (h : Memory.Canon W v.wear) (n : Nat) : Memory.Canon W (v.freshBlock n) :=
  (h.filter _).writeList _ _

/-- Stores that a routine sends leave the memories of its core alone. -/
theorem Core.own_foldl_pushStore (t : ThId) (l : List (Cell × Cell)) (k : Core) :
    (l.foldl (fun (q : Core) x => q.pushStore t x.1 .cell (x.2.setWidth 48)) k).own = k.own :=
  List.foldlRecOn l _ (motive := fun r : Core => r.own = k.own) rfl (fun _ hq _ _ => hq)

namespace Memories.Sound

variable {W : Prop} {q : List Instr} {s : State} (h : s.memories.Sound W q)
include h

/-! ## Loads, stores and transfers -/

theorem execCaptureObjectWrite (o : CapObj) (v : Cell) : Keeps W q (execCaptureObjectWrite o v s) :=
  (ite (h.devStore 0 _ v false) h).next

theorem execDeferredLoadComplete (c : CoreId) (t : ThId) : Keeps W q (execDeferredLoadComplete c t s) := by
  refine next ?_
  split
  · exact h
  · refine ite h ?_
    have hread : ∀ f : Thread → Thread, (s.modCore c (fun k => ((((k.modTh t f).pushlls t).fences).retry))).memories.Sound W q :=
      fun f => h.of_eq (s.modCore_memories c _ (by simp) (by simp))
    exact swapsAsk c (ite (hread _) ((hread _).of_eq (State.readEffect_memories _ c _)))

theorem execStoreDrain (c : CoreId) : Keeps W q (execStoreDrain c s) := by
  refine next ?_
  split
  · exact h
  · refine ite h (swapsAsk c ?_)
    rw [State.releaseLines_memories]
    exact (h.applyStore c _).of_eq (State.modCore_memories _ c _ (by simp) (by simp))

theorem execSpillComplete (c : CoreId) : Keeps W q (execSpillComplete c s) := by
  refine next ?_
  split
  · dsimp only
    split
    · exact ite h (ite (xferOver c (of_eq (h.putCellsMem c _ _) (State.draw_memories _)) _ _)
        (xferOver c (h.putCellsMem c _ _) _ _))
    · exact h
  · exact h

theorem execFillComplete (c : CoreId) : Keeps W q (execFillComplete c s) := by
  refine next ?_
  split
  · dsimp only
    split
    · exact ite h (xferOver c (ite h (h.of_eq s.draw_memories)) _ _)
    · exact h
  · exact h

theorem execSwapctxComplete (c : CoreId) : Keeps W q (execSwapctxComplete c s) := by
  refine next ?_
  split
  · dsimp only
    split
    · refine ite h ?_
      rw [State.fetchLine_memories, State.waitOver_memories, State.modCore_memories _ c _ rfl rfl]
      exact h.saveCtx c _
    · exact h
  · exact h

theorem execEventEntry (c : CoreId) (t : ThId) : Keeps W q (execEventEntry c t s) := (ite (h.enter c t _) h).next

theorem execThreadHalt (c : CoreId) (t : ThId) : Keeps W q (execThreadHalt c t s) := by
  refine next (ite ?_ h)
  rw [State.stopRuns_memories]
  exact traceRec (h.of_eq (s.modCore_memories c _ (by simp) (by simp))) c t 5 _ _

/-! ## Routines -/

/-- The end of a routine that sends its stores and changes its thread by `f`. -/
theorem routineStores (c : CoreId) (r : Routine) (wq : List (Cell × Cell)) (f : Thread → Thread) :
    (s.modCore c (fun k =>
      let k1 := wq.foldl (fun (q : Core) x => q.pushStore r.t x.1 .cell (x.2.setWidth 48)) k
      (({ (k1.modTh r.t f) with seq := none }).testXfer r.t).retry)).memories.Sound W q := by
  have hown := Core.own_foldl_pushStore r.t wq (s.core c)
  refine h.of_eq (s.modCore_memories c _ ?_ ?_)
  · rw [Core.retry_lmem, Core.testXfer_lmem]
    exact congrArg Prod.fst hown
  · rw [Core.retry_cs, Core.testXfer_cs]
    exact congrArg Prod.snd hown

theorem execRoutineEnd (c : CoreId) : Keeps W q (execRoutineEnd c s) := by
  refine next ?_
  split
  · exact h
  · next r _ =>
    refine ite h ?_
    generalize s.routineEnd c r = x
    generalize (s.core c).cs.entry r.code.toNat = e
    cases x with
    | done ua outs st wq =>
      cases e with
      | some e => exact ite h (h.routineStores c r wq _)
      | none => exact h
    | seqFault cause ua => exact h.routineFault c _ _ _ _
    | memFault a => exact h.routineFault c _ _ _ _
    | fifthStore => exact h.routineFault c _ _ _ _
    | _ => exact h

theorem execMicroWaitTimeout (c : CoreId) : Keeps W q (execMicroWaitTimeout c s) := by
  refine next ?_
  split
  · exact h
  · next r _ =>
    refine ite h ?_
    generalize s.routineEnd c r = x
    split
    · exact h.routineFault c _ _ _ _
    · exact h

theorem execRoutineLengthLimit (c : CoreId) : Keeps W q (execRoutineLengthLimit c s) := by
  refine next ?_
  split
  · exact h
  · next r _ =>
    have hlate : ∀ ua, (s.routineFault c r .illegal 0 (some (4, ua))).memories.Sound W q := fun ua => h.routineFault c _ _ _ _
    refine ite h ?_
    generalize s.routineEnd c r = x
    split
    · exact hlate _
    · exact hlate _
    · exact ite (hlate _) h
    · exact h

/-! ## Rings, the Damper and the vault -/

theorem execEmberEntryWrite : Keeps W q (execEmberEntryWrite s) := by
  refine next ?_
  split
  · exact h
  · next e r _ =>
    have hcap := h.of_eq (s.modCap_memories (fun c => { c with stream := r }) rfl rfl)
    exact ite h (ite (hcap.foldl _ (fun _ i hr => hr.ringEntry i _) _) hcap)

theorem execDamperMeasurement : Keeps W q (execDamperMeasurement s) := by
  have hjudge : ((s.modDmp Damper.measure).judgeAll.modDmp (fun d => { d with rsvM := d.rsv })).memories.Sound W q :=
    (judgeAll (h.of_eq (s.modDmp_memories _))).of_eq (State.modDmp_memories _ _)
  refine next (ite h (ite ?_ (ite hjudge (hjudge.of_eq (State.startKeys_memories _)))))
  exact h

theorem execCommitDurable (k : WClass) : Keeps W q (execCommitDurable k s) := by
  have hstream := h.streamed
  refine next ?_
  dsimp only
  generalize s.streamed = r at hstream ⊢
  split
  · exact ite (hstream.commitDone _) h
  · exact h

theorem worn (f : Vault → Mem 40) (g : Vault → List Nat) (hf : Memory.Canon W (f s.hs.vault)) :
    (s.modVault (fun v => { v with retiring := g v, wear := f v })).memories.Sound W q := h.modVault _ hf h.raw

theorem execBlockCopyDone (b : BitVec 12) : Keeps W q (execBlockCopyDone b s) :=
  next (ite h (h.worn (fun v => v.freshBlock b.toNat) _ (Vault.canon_freshBlock h.wear b.toNat)))

theorem execPowerFailWarning (cause : PfCause) : Keeps W q (execPowerFailWarning cause s) := by
  have hrail : (if cause = .rail then s.modPw (fun p => { p with rails := false }) else s).memories.Sound W q :=
    ite (h.of_eq (s.modPw_memories _)) h
  refine next ?_
  dsimp only
  split
  · exact ite hrail.powerFail h
  · exact ite hrail.powerFail hrail
  · exact hrail

/-! ## Seals -/

theorem execCordTimer : Keeps W q (execCordTimer s) := by
  refine next ?_
  split
  · exact h
  · exact ite h ((cords (h.of_eq (s.modSeal_memories _))).of_eq (State.syncDstate_memories _))

theorem execSealRelease : Keeps W q (execSealRelease s) := by
  refine next ?_
  dsimp only
  split
  · refine ite h ?_
    rw [State.syncDstate_memories]
    refine cords ?_
    rw [State.trySwitch_memories, State.exportSeal_memories, State.submit_memories, State.markSealed_memories,
      State.modVault_memories _ _ rfl rfl, State.modSeal_memories]
    exact h
  · exact h

end Memories.Sound

end Sys2Proof.Machine
end

section
/-! Commands, images, resets, the start, links, self tests and fuses: their steps keep the memories sound. -/

namespace Sys2Proof.Machine

namespace Memories.Sound

variable {W : Prop} {q : List Instr} {s : State}

/-! ## Commands -/

theorem finish (h : s.memories.Sound W q) (t : Nat) (st : Byte) (res : List Byte := []) :
    (s.finish t st res).memories.Sound W q := h.of_eq (s.finish_memories t st res)

theorem modRun (h : s.memories.Sound W q) (t : Nat) (f : Run → Run) : (s.modRun t f).memories.Sound W q :=
  h.of_eq (s.modRun_memories t f)

theorem submit (h : s.memories.Sound W q) (k : CKind) (t : Option Nat) : (s.submit k t).memories.Sound W q :=
  h.of_eq (s.submit_memories k t)

theorem acrossLink (h : s.memories.Sound W q) (l : LinkId) (d : Desc) (t : Nat) (buf : List Byte) (f : State → State)
    (hf : (f s).memories.Sound W q) : (s.acrossLink l d t buf f).memories.Sound W q := by
  unfold State.acrossLink
  exact ite (h.modRun t _) hf

/-- A command keeps the memories sound when what it does does. -/
theorem command (h : s.memories.Sound W q) (sq : BitVec 4) (c : CmdRule) (act : Desc → Nat → State → State)
    (hact : ∀ d t r, r.memories.Sound W q → (act d t r).memories.Sound W q) : Keeps W q (.next (command sq c act s)) := by
  refine next ?_
  unfold Machine.command
  split
  · exact h
  · next d _ =>
    have hb : (s.begin_ sq.toNat d).memories.Sound W q := h.of_eq (s.begin_memories sq.toNat d)
    exact ite h (ite (hb.finish _ _) (ite (hb.finish _ _) (ite (hb.finish _ _) (hact d _ _ hb))))

theorem iteFst {β : Type} {a b : State × β} {p : Prop} [Decidable p] (ha : a.1.memories.Sound W q)
    (hb : b.1.memories.Sound W q) : (if p then a else b).1.memories.Sound W q := by
  rw [apply_ite Prod.fst]
  exact ite ha hb

/-! ## Images, core resets and capture objects -/

section Commands

variable (h : s.memories.Sound W q)
include h

theorem execImageLoad (sq : BitVec 4) (buf : Option (List Byte)) : Keeps W q (execImageLoad sq buf s) := by
  refine h.command sq _ _ (fun d t r hr => ?_)
  have hfail : ∀ st, ((if d.p 0 = 0 then r.wipeImage else r).finish t st).memories.Sound W q :=
    fun st => finish (ite hr.wipeImage hr) t st
  refine ite (hr.finish _ _) (ite (hr.finish _ _) (ite (hr.finish _ _) ?_))
  cases buf with
  | none => exact hfail _
  | some x =>
    refine ite (hfail _) (ite (tryImage ?_ t _) (hr.modRun t _))
    exact hr.modRun t (fun y => { y with kind := .imageWait (bytesAt x 0 d.dlen) })

theorem execVerificationEnd : Keeps W q (execVerificationEnd s) := by
  refine next ?_
  split
  · exact h.verified _
  · exact h

theorem execCoreReset (sq : BitVec 4) : Keeps W q (execCoreReset sq s) :=
  h.command sq _ _ (fun _ t _ hr => ((hr.modRun t _).runReset t _).of_eq (State.stopRuns_memories _))

theorem execBundleReinstallDone (c : CoreId) : Keeps W q (execBundleReinstallDone c s) := by
  have hone : ∀ (a : Core) (b : List Byte), OwnCanon W a.own → OwnCanon W (if b.isEmpty then a
      else if (s.bundleCheck b).1 = 0 then { a with cs := a.cs.install (bundleOpen b) (fld b 14 2) (s.bundleCheck b).2 }
      else { a with rfail := true }).own := by
    intro a b ha
    split_ifs
    · exact ha
    · exact CtlStore.canon_install ha _ _ _
    · exact ha
  have hinst := h.modCore c (s.reinstall c) (hone _ _ (hone _ _ (h.core c)))
  refine next (ite h (startRuns (hinst.foldl _ (fun r x hr => ?_) _)))
  split
  · exact ite (hr.finish _ _ _) hr
  · exact hr

theorem execEmberConfig (sq : BitVec 4) (buf : Option (List Byte)) : Keeps W q (execEmberConfig sq buf s) := by
  refine h.command sq _ _ (fun d t r hr => ?_)
  cases buf with
  | none => exact hr.finish _ _
  | some b =>
    dsimp only
    split
    · exact hr.acrossLink _ _ _ _ _ (hr.configObj _ _ _)
    · exact hr.of_eq (r.configRing_memories _ _ _)

/-! ## Resets and the start -/

theorem execColdReset : Keeps W q (execColdReset s) :=
  nextOf (resetDies (s := { s with pil := { ph := s.pil.ph.cold, cap := s.pil.cap } }) h .cold) (State.modPw_memories _ _)

theorem execMainRailsRestored : Keeps W q (execMainRailsRestored s) := by
  refine next ?_
  split
  · exact h.warmStart
  · exact h.warmStart
  · exact h
  · exact h
  · exact h
  · exact h

theorem shutdown : (s.modHs Hearth.shutdown).memories.Sound W q :=
  h.modHs _ rfl rfl (Hearth.canon_jraw h.vault _ _).wear (Hearth.canon_jraw h.vault _ _).raw

theorem jheads : (s.modHs Hearth.jheads).memories.Sound W q :=
  h.modHs _ rfl rfl (Hearth.canon_jheads h.vault).wear (Hearth.canon_jheads h.vault).raw

theorem execVaultSafe : Keeps W q (execVaultSafe s) := by
  refine next (ite h ?_)
  have hdown : (if s.vaultOn then s.modHs Hearth.shutdown else s).memories.Sound W q := ite h.shutdown h
  generalize (if s.vaultOn then s.modHs Hearth.shutdown else s) = s1 at hdown ⊢
  have hready : ∀ p : Bool, (if p then s1.modWk (fun w => { w with ready := true }) else s1).memories.Sound W q :=
    fun _ => ite (hdown.of_eq (s1.modWk_memories _)) hdown
  have hsafe : ∀ p : Bool, ((if p then s1.modWk (fun w => { w with ready := true }) else s1).resetFlue.modPw
      (fun p => { p with life := .vaultSafe, plan := none, hostWait := false })).memories.Sound W q :=
    fun p => (hready p).of_eq ((State.modPw_memories _ _).trans (State.resetFlue_memories _))
  exact ite (hsafe _).warmStart (hsafe _)

theorem execPerstNFall : Keeps W q (execPerstNFall s) :=
  (ite h (raiseHost (h.of_eq ((State.modFl_memories _ _).trans (s.modPw_memories _))))).next

theorem freshCores : (State.memories { s with cores := Tab.fill 16 {} }).Sound W q := by
  refine h.withCores _ (fun i hi => ?_)
  rw [Tab.get_fill i _ hi]
  exact ⟨Memory.Canon.nil, Memory.Canon.nil, Memory.Canon.nil⟩

theorem execHostResetBegin : Keeps W q (execHostResetBegin s) := by
  refine next (ite h ?_)
  have hreset : (((State.resetHearth { s with cores := Tab.fill 16 {}, pil := s.pil.putLockups 0 } true).modPw
      (fun p => { p with hostWait := false }))).memories.Sound W q :=
    (resetHearth (s := { s with cores := Tab.fill 16 {}, pil := s.pil.putLockups 0 }) h.freshCores true).of_eq (State.modPw_memories _ _)
  rw [State.syncDstate_memories]
  refine ite (cords ?_) hreset
  rw [State.trySwitch_memories, State.reindex_memories, State.pilotNext_memories]
  exact hreset

theorem execOtpStartReadDone (o : FuseShot) : Keeps W q (execOtpStartReadDone o s) := by
  have hread := h.modOtp (fun h => { h with otp := h.otp.startRead o }) (fun hW => (h.otp hW).startRead o) h.wear h.raw
  refine next (ite ?_ h)
  rw [State.deriveWhenReady_memories, State.modPw_memories, State.laneSync_memories]
  exact hread

theorem execVaultRecovery (newestBad : Bool) : Keeps W q (execVaultRecovery newestBad s) := by
  have htorn : ((if newestBad then s.badNewest else s).tearCommits).memories.Sound W q :=
    tearCommits (ite (h.of_eq s.badNewest_memories) h)
  unfold Machine.execVaultRecovery
  refine next (ite h ?_)
  dsimp only
  generalize (if newestBad then s.badNewest else s).tearCommits = s1 at htorn ⊢
  rw [State.syncDstate_memories]
  refine cords ?_
  rw [State.trySwitch_memories, State.reindex_memories, State.modPw_memories, State.modSeal_memories,
    State.modVault_memories _ _ rfl rfl]
  exact jheads (htorn.of_eq (s1.modVault_memories _ rfl rfl))

theorem execBootRom : Keeps W q (execBootRom s) := by
  have hhalt : ∀ c, (s.modTh (BitVec.ofNat 4 c) 0 Thread.halted).memories.Sound W q := fun c => h.modTh _ _ _
  refine next (ite h ?_)
  split
  · exact h.of_eq s.bootEnds_memories
  · exact (hhalt _).of_eq (State.bootEnds_memories _)
  · next c _ _ =>
    have hcleared := (hhalt c).of_eq (State.modPw_memories _ (fun p => { p with bootSrc := 0xFF, statA := 0xFF, statB := 0xFF, ignored := 0 }))
    generalize (s.modTh (BitVec.ofNat 4 c) 0 Thread.halted).modPw _ = s1 at hcleared ⊢
    rw [State.syncDstate_memories, State.bootEnds_memories, State.modPw_memories]
    exact ite ((((hcleared.bootBundle false).bootBundle true).bootSlots _).of_eq (State.bootThreads_memories _)) hcleared

/-! ## The host's window and links -/

theorem execRstCtlWrite (v : BitVec 32) : Keeps W q (execRstCtlWrite v s) := (ite (h.rstCtl v) h).next

theorem execRegisterWrite (w : RegWrite) : Keeps W q (execRegisterWrite w s) := by
  refine next ?_
  cases w with
  | bar off be v => exact ite (h.barWrite off be v) h
  | bar64 off v => exact ite (h.of_eq (s.barWrite64_memories off v)) h
  | cell c a v => exact ite (h.devStore c _ v false) h
  | cell2 c a v => exact ite (h.of_eq (s.devStore2_memories _ v)) h

theorem execLinkRetrainDone (l : LinkId) (ok : Bool) : Keeps W q (execLinkRetrainDone l ok s) := by
  have hlink : (s.modLink l (fun k => k.retrained ok)).memories.Sound W q := h.of_eq (s.modLink_memories l _)
  unfold Machine.execLinkRetrainDone
  refine next (ite h ?_)
  dsimp only
  generalize s.modLink l (fun k => k.retrained ok) = s1 at hlink ⊢
  rw [State.syncDstate_memories, State.randomRuns_memories]
  refine linkRuns (ite hlink (ite ?_ ?_))
  · rw [State.pilotNext_memories]
    exact ite (hlink.of_eq s1.hearPilot_memories) hlink
  · cases l with
    | hearth => exact hlink.hearthDown
    | pilot =>
      refine resetRuns ?_
      rw [State.loseStates_memories, State.loseNotes_memories, State.emberLinkDown_memories]
      exact hlink

/-! ## Self tests, fuses and the life cycle -/

theorem execBistItemDone (r : BistResult) : Keeps W q (execBistItemDone r s) := by
  unfold Machine.execBistItemDone
  refine next ?_
  split
  · exact h
  · next i rest _ =>
    dsimp only
    refine ite h ?_
    have heff := h.bistEffect i r (decide ((s.bistVerdict i r).1 = 1))
    generalize s.bistEffect i r (decide ((s.bistVerdict i r).1 = 1)) = s1 at heff ⊢
    refine startRuns ?_
    rw [State.bistNext_memories]
    exact heff

theorem fuseWrite (g w : Nat) (o : FuseShot) : (State.fuseWrite g w o s).1.memories.Sound W q :=
  iteFst h (iteFst h (iteFst h (h.fuseProgram _ _ _)))

theorem fuseLock (g : Nat) (rd : Bool) (o : FuseShot) : (State.fuseLock g rd o s).1.memories.Sound W q :=
  iteFst h (iteFst h (h.fuseProgram _ _ _))

theorem fuseGenerate (g : Nat) (o : FuseShot) : (State.fuseGenerate g o s).1.memories.Sound W q :=
  iteFst h (iteFst h (iteFst h (h.fuseGen o)))

theorem fuseRead (g w : Nat) : (State.fuseRead g w s).1.memories.Sound W q := by
  refine iteFst h ?_
  cases s.hs.otp.word g w with
  | none => exact h
  | some d => exact h

theorem execFuseGenerate (g : BitVec 4) (o : FuseShot) : Keeps W q (execFuseGenerate g o s) := by
  refine next (ite (h.of_eq (s.modHs_memories _ ?_ ?_ rfl rfl)) (h.fuseCmd _ 0 _ (fun _ hr => hr.fuseGenerate _ o)))
  · dsimp only [Otp.putCmd]
    split <;> rfl
  · dsimp only [Otp.putCmd]
    split <;> rfl

theorem execTrngStartupDone : Keeps W q (execTrngStartupDone s) := by
  have hstart : ((s.modHs (fun h => { h with trng := { h.trng with started := true, since := s.pil.ph.clk } })).randomRuns).memories.Sound W q :=
    h.of_eq ((State.randomRuns_memories _).trans (s.modHs_memories _ rfl rfl rfl rfl))
  exact next (ite h (ite hstart.genResume (hstart.genResume.of_eq (State.serveGets_memories _))))

theorem execLifecycleFuseBurn : Keeps W q (execLifecycleFuseBurn s) := by
  refine next ?_
  split
  · exact h
  · next l _ =>
    refine ite h ?_
    split
    · exact h.endLife l
    · next w b rest _ =>
      have hshot := h.modOtp (fun h => { h with otp := h.otp.setCopy w b, life := some { l with shots := some rest } })
        (fun hW => (h.otp hW).pulse w _ _) h.wear h.raw
      exact ite (hshot.endLife l) hshot

end Commands

end Memories.Sound

end Sys2Proof.Machine
end

section
/-! Steps of the timebase, the capture side, the links, the rings and the commands that write no memory. -/

namespace Sys2Proof.Machine

namespace Memories.Sound

variable {W : Prop} {q : List Instr} {s : State} (h : s.memories.Sound W q)
include h

/-! ## The timebase and standby -/

theorem putPh (x : PhOut) : (s.putPh x).memories.Sound W q := h.of_eq (s.putPh_memories x)

theorem execCrystalFailure : Keeps W q (execCrystalFailure s) :=
  next (ite h (ite (h.of_eq (s.modPh_memories _)) (h.of_eq (s.modPh_memories _))))

theorem execStbyWakeTeethReached : Keeps W q (execStbyWakeTeethReached s) :=
  next (ite (h.of_eq ((State.modWk_memories _ _).trans (s.wakeRequest_memories 1))) h)

theorem execStandbyTrigEdge (p : BitVec 2) (level : Bool) : Keeps W q (execStandbyTrigEdge p level s) := by
  have hpin : (s.modCap (fun c => { c with trigPin := setBit c.trigPin p.toNat level })).memories.Sound W q :=
    h.of_eq (s.modCap_memories _ rfl rfl)
  exact next (ite h (ite (hpin.of_eq (State.wakeRequest_memories _ _)) hpin))

/-! ## Lines, locks, the Bellows, threads -/

theorem execLockGrant (line : BitVec 18) : Keeps W q (execLockGrant line s) := by
  refine next ?_
  split
  · exact h
  · exact ite h (h.of_eq ((State.waitOver_memories _ _ _ _).trans (s.modFb_memories _ rfl rfl rfl rfl)))

theorem execBellowsStart (c : CoreId) : Keeps W q (execBellowsStart c s) := by
  refine next ?_
  split
  · exact ite h (ite (h.of_eq (s.modCore_memories c _ (Core.unask_lmem _ .bell) (Core.unask_cs _ .bell)))
      (h.of_eq (s.modCore_memories c _ (Core.askSlot_lmem _ _) (Core.askSlot_cs _ _))))
  · exact h

theorem execEventBitWake (c : CoreId) (t : ThId) : Keeps W q (execEventBitWake c t s) := by
  refine next ?_
  dsimp only
  split
  · split
    · exact ite (h.of_eq ((State.fetchLine_memories _ c t).trans
        (s.modCore_memories c _ (Core.testXfer_lmem _ t) (Core.testXfer_cs _ t)))) h
    · exact h
  · exact h

theorem execStopTakesEffect (c : CoreId) (t : ThId) : Keeps W q (execStopTakesEffect c t s) :=
  next (ite (h.of_eq ((State.stopRuns_memories _).trans (s.modCore_memories c _ (by simp) (by simp)))) h)

/-! ## Lockups -/

theorem execLockupQuiescent (c : CoreId) : Keeps W q (execLockupQuiescent c s) :=
  next (ite (h.of_eq (s.modCore_memories c _ rfl rfl)) h)

theorem execLockupReport (c : CoreId) : Keeps W q (execLockupReport c s) := by
  refine next (ite ?_ h)
  exact h.of_eq (s.modCore_memories c (fun k => { k with lockup := k.lockup.map (fun l => { l with reported := true }) }) rfl rfl)

theorem execFrozenStateArrival (c : CoreId) : Keeps W q (execFrozenStateArrival c s) := by
  refine next ?_
  split
  · next l _ =>
    have hsent : (s.modCore c (fun k => { k with lockup := some { l with sent := true } })).memories.Sound W q :=
      h.of_eq (s.modCore_memories c _ rfl rfl)
    exact ite (ite (hsent.of_eq (State.pilotLog_memories _ _ _)) hsent) h
  · exact h

/-! ## Captures -/

theorem execAppendComplete (slot : BitVec 6) : Keeps W q (execAppendComplete slot s) := by
  unfold Machine.execAppendComplete
  refine next ?_
  dsimp only
  split
  · exact h
  · exact ite h (h.of_eq ((State.logReady_memories _ _).trans (s.modSlot_memories _ _)))

theorem modCapOnly (f : Capture → Capture) (ho : (f s.pil.cap).objs = s.pil.cap.objs)
    (hs : (f s.pil.cap).stg = s.pil.cap.stg) : (s.modCap f).memories.Sound W q := h.of_eq (s.modCap_memories f ho hs)

theorem loseSample (n : Nat) : (s.loseSample n).memories.Sound W q := h.of_eq (s.loseSample_memories n)

theorem execChannelSample (ch : BitVec 6) : Keeps W q (execChannelSample ch s) := by
  refine next (ite h (ite (h.modCapOnly _ rfl rfl) (ite (ite (h.loseSample _) ?_) (ite h (ite h ?_)))))
  · exact modCapOnly (ite (h.loseSample _) h) _ rfl rfl
  · exact h.of_eq (s.discEntry_memories _)

theorem execAdcConversionDone (code : BitVec 16) : Keeps W q (execAdcConversionDone code s) := by
  refine next ?_
  split
  · exact ite h (h.of_eq ((State.sampled_memories _ _ _ _).trans (s.modCap_memories _ rfl rfl)))
  · exact h

theorem execSpiTransaction (m : BitVec 2) : Keeps W q (execSpiTransaction m s) := by
  refine next ?_
  split
  · exact ite h (h.modCapOnly _ rfl rfl)
  · exact h

theorem execSpiTransactionDone (m : BitVec 2) (rx : BitVec 48) : Keeps W q (execSpiTransactionDone m rx s) := by
  have hend : (s.modCap (fun c => { c with spiRun := c.spiRun.set m.toNat none })).memories.Sound W q := h.modCapOnly _ rfl rfl
  refine next ?_
  split
  · exact h
  · exact ite h (ite hend (ite (hend.loseSample _) (hend.of_eq (State.sampled_memories _ _ _ _))))

theorem execCanFrame (i : BitVec 1) (f : CanFrame) (valid : Bool) : Keeps W q (execCanFrame i f valid s) := by
  have hfire : ((List.range 8).foldl (fun (q : State) j =>
      if q.pil.cap.canHit i.toNat f j then q.fire (20 + j) else q) s).memories.Sound W q :=
    h.foldl _ (fun r j hr => ite (hr.of_eq (r.fire_memories _)) hr) _
  exact next (ite h (ite (h.modCapOnly _ rfl rfl) (ite (hfire.of_eq (State.stream_memories _ _ _ _)) hfire)))

theorem execDiscreteChange (gpio : BitVec 8) : Keeps W q (execDiscreteChange gpio s) :=
  next (ite h (of_eq (ite (h.modCapOnly _ rfl rfl) h) (State.discWatch_memories _)))

theorem execTrigEdge (p : BitVec 2) (level : Bool) : Keeps W q (execTrigEdge p level s) := by
  have hs : (s.modCap (fun c => c.trigSample p.toNat level s.pil.ph.clk)).memories.Sound W q := by
    refine h.modCapOnly _ ?_ ?_ <;> · unfold Capture.trigSample; split <;> rfl
  exact next (ite h (ite (hs.of_eq ((State.discWatch_memories _).trans (State.trigFilter_memories _ _))) hs))

theorem execTriggerPulse : Keeps W q (execTriggerPulse s) := by
  refine next ?_
  split
  · exact h
  · next x r _ =>
    have hcap : (s.modCap (fun c => { c with pulses := c.pulses.filter (fun y => y.at_ ≠ x.at_) })).memories.Sound W q :=
      h.modCapOnly _ rfl rfl
    exact ite hcap (hcap.foldl _ (fun r _ hr => hr.of_eq (r.trigger_memories _ _)) _)

theorem execTriggerRecord : Keeps W q (execTriggerRecord s) := by
  refine next ?_
  split
  · exact h
  · next x r _ =>
    have hcap : (s.modCap (fun c => { c with recs := r })).memories.Sound W q := h.modCapOnly _ rfl rfl
    exact ite h (ite (hcap.of_eq (State.record_memories _ _ _ _ _)) hcap)

theorem execCopyBurst : Keeps W q (execCopyBurst s) := by
  refine next ?_
  split
  · exact h
  · split
    · exact h
    · exact ite h (h.of_eq ((State.modSlot_memories _ _ _).trans (s.modFb_memories _ rfl rfl rfl rfl)))

theorem execCopyComplete (slot : BitVec 6) : Keeps W q (execCopyComplete slot s) := by
  unfold Machine.execCopyComplete
  refine next ?_
  dsimp only
  split
  · exact h
  · split
    · exact h
    · refine ite h ?_
      rw [State.emberOffRuns_memories, State.logReady_memories, State.modSlot_memories, State.modFb_memories _ _ rfl rfl rfl rfl]
      exact h

theorem execHoldSenseConversion (code : BitVec 16) : Keeps W q (execHoldSenseConversion code s) := by
  refine next ?_
  split
  · next t r _ =>
    have hcap : (s.modCap (fun c => { c with adcq := r })).memories.Sound W q := h.modCapOnly _ rfl rfl
    refine ite h ?_
    exact hcap.of_eq (State.modDmp_memories _ (fun d => d.conversion code))
  · exact h

/-! ## Challenges -/

theorem modHsOnly (f : Hearth → Hearth) (hn : (f s.hs).otp.norm = s.hs.otp.norm) (hs : (f s.hs).otp.strict = s.hs.otp.strict)
    (hw : (f s.hs).vault.wear = s.hs.vault.wear) (hr : (f s.hs).vault.raw = s.hs.vault.raw) :
    (s.modHs f).memories.Sound W q := h.of_eq (s.modHs_memories f hn hs hw hr)

theorem execChallengeJudge : Keeps W q (execChallengeJudge s) := by
  refine next ?_
  split
  · exact ite h (submit (h.modHsOnly _ rfl rfl rfl rfl) _ _)
  · exact h

theorem execNonceExpiry : Keeps W q (execNonceExpiry s) := next (ite (h.modHsOnly _ rfl rfl rfl rfl) h)

theorem execChallengeGet (sq : BitVec 4) : Keeps W q (execChallengeGet sq s) :=
  h.command sq _ _ (fun d t r hr => hr.acrossLink _ d t _ _ (hr.of_eq (r.chalGet_memories d t)))

theorem execChallengeAnswer (sq : BitVec 4) (buf : Option (List Byte)) : Keeps W q (execChallengeAnswer sq buf s) := by
  refine h.command sq _ _ (fun d t r hr => ?_)
  cases buf with
  | none => exact hr.finish _ _
  | some b => exact ite (hr.finish _ _) (hr.acrossLink _ d t _ _ (hr.of_eq (r.chalAnswer_memories t _)))

/-! ## Seals and the vault -/

theorem modSeal (f : SealSt → SealSt) : (s.modSeal f).memories.Sound W q := h.of_eq (s.modSeal_memories f)

theorem execSealStart : Keeps W q (execSealStart s) := by
  refine next ?_
  dsimp only
  split
  · exact h
  · exact ite h (ite (h.of_eq s.trySwitch_memories) ((h.modSeal _).submit _ _))

theorem execTreeBuildDone : Keeps W q (execTreeBuildDone s) := next (ite h ((h.modSeal _).submit _ _))

theorem execKeypairCreated : Keeps W q (execKeypairCreated s) := next (ite h ((h.modSeal _).submit _ _))

theorem execBuildProgressSave : Keeps W q (execBuildProgressSave s) := next (ite h (h.submit _ _))

theorem execBlockRetire (b : BitVec 12) : Keeps W q (execBlockRetire b s) := by
  obtain ⟨hw, hr⟩ := s.hs.vault.retire_memories b.toNat
  exact next (ite h (h.of_eq ((State.skipBad_memories _ _).trans (s.modVault_memories _ hw hr))))

theorem execVaultScrub (line : BitVec 17) (errs : BitVec 10) : Keeps W q (execVaultScrub line errs s) :=
  next (ite h (ite (h.submit _ _) (h.of_eq (s.modVault_memories _ rfl rfl))))

theorem execStandbyEntry : Keeps W q (execStandbyEntry s) := by
  refine next (ite ?_ h)
  rw [State.modPw_memories]
  exact modCapOnly (h.of_eq ((State.modWk_memories _ _).trans (s.modPh_memories _))) _ rfl rfl

/-! ## Commands on bundles and threads -/

theorem execBundleLoad (sq : BitVec 4) (buf : Option (List Byte)) : Keeps W q (execBundleLoad sq buf s) := by
  refine h.command sq _ _ (fun d t r hr => ite (hr.finish _ _) (ite (hr.finish _ _) ?_))
  cases buf with
  | none => exact hr.finish _ _
  | some x => exact ite (hr.finish _ _) (hr.modRun _ _)

theorem execThreadStart (sq : BitVec 4) : Keeps W q (execThreadStart sq s) :=
  h.command sq _ _ (fun _ t _ hr => (hr.modRun t _).of_eq (State.tryStart_memories _ _ _ _ _ _))

theorem execThreadStop (sq : BitVec 4) : Keeps W q (execThreadStop sq s) :=
  h.command sq _ _ (fun _ t _ hr => (hr.modRun t _).of_eq (State.tryStop_memories _ _ _ _))

theorem execThreadQuery (sq : BitVec 4) : Keeps W q (execThreadQuery sq s) :=
  h.command sq _ _ (fun _ t _ hr => (hr.modRun t _).of_eq (State.tryQuery_memories _ _ _))

/-! ## The TAP -/

theorem execTapInstruction (ir : BitVec 8) : Keeps W q (execTapInstruction ir s) :=
  next (ite h (ite (h.of_eq (s.modTap_memories _)) (h.of_eq (s.modTap_memories _))))

theorem tapped (f : Tap → Tap) : (s.modTap f).tapRuns.memories.Sound W q :=
  h.of_eq ((State.tapRuns_memories _).trans (s.modTap_memories f))

/-! ## Power and the start -/

theorem execPerstNRise : Keeps W q (execPerstNRise s) := by
  have hp : (s.modPw (fun p => { p with perst := false })).memories.Sound W q := h.of_eq (s.modPw_memories _)
  refine next (ite h (of_eq ?_ (State.linkStart_memories _)))
  exact ite hp hp

theorem execPllLock : Keeps W q (execPllLock s) :=
  next (ite (h.of_eq ((State.modPw_memories _ _).trans ((State.captureStart_memories _).trans (s.modPh_memories _)))) h)

theorem execResetRelease : Keeps W q (execResetRelease s) :=
  next (ite (h.of_eq ((State.syncMirror_memories _).trans ((State.linkStart_memories _).trans (s.modPw_memories _)))) h)

theorem execSweepDone : Keeps W q (execSweepDone s) :=
  next (ite (h.of_eq ((State.bootWhenReady_memories _).trans ((State.deriveWhenReady_memories _).trans (s.modPw_memories _)))) h)

theorem seenFrame (f : Hearth → Lanes) :
    ((s.modHs (fun h => { h with lanes := f h })).adoptLanes.rightsFrom s).memories.Sound W q :=
  (h.modHsOnly _ rfl rfl rfl rfl).of_eq ((State.rightsFrom_memories _ s).trans (State.adoptLanes_memories _))

/-- What follows a frame that has been seen. -/
theorem afterFrame (p : Prop) [Decidable p] : (if p then
    (s.modPw (fun p => { p with start := { p.start with s4 := true } })).bootWhenReady else s).memories.Sound W q :=
  ite (h.of_eq ((State.bootWhenReady_memories _).trans (s.modPw_memories _))) h

theorem execFuseFrame (l : Lane) (errs : List (BitVec 32)) : Keeps W q (execFuseFrame l errs s) := by
  unfold Machine.execFuseFrame
  refine next (ite h ?_)
  dsimp only
  generalize withErrors (s.sentFrame l) errs = w
  cases l with
  | f => exact afterFrame (h.seenFrame (fun h => { h.lanes with f := h.lanes.f.see (goodFrame 0 10 w) })) _
  | p => exact afterFrame (h.seenFrame (fun h => { h.lanes with p := h.lanes.p.see (goodFrame 1 12 w) })) _

theorem execPilotStartLoad : Keeps W q (execPilotStartLoad s) := by
  have hstep : (s.modPw (fun p => { p with start := { p.start with s8 := true } })).memories.Sound W q := h.of_eq (s.modPw_memories _)
  unfold Machine.execPilotStartLoad
  refine next (ite h ?_)
  dsimp only
  generalize s.modPw (fun p => { p with start := { p.start with s8 := true } }) = s1 at hstep ⊢
  refine ite hstep ?_
  rw [State.modWk_memories, State.checkpoint_memories, State.syncMirror_memories, State.modPh_memories]
  exact ite (hstep.of_eq s1.hearPilot_memories) hstep

end Memories.Sound

end Sys2Proof.Machine
end

section
/-! Steps of the host's rings, the commands and the links that write no memory. -/

namespace Sys2Proof.Machine

namespace Memories.Sound

variable {W : Prop} {q : List Instr} {s : State} (h : s.memories.Sound W q)
include h

/-! ## Polling, descriptors and exports -/

theorem modFl (f : Flue → Flue) : (s.modFl f).memories.Sound W q := h.of_eq (s.modFl_memories f)

theorem execPoll : Keeps W q (execPoll s) := next (ite h (h.modFl _))

theorem execPollComplete (r : Option (List Byte)) : Keeps W q (execPollComplete r s) := by
  refine next (ite h ?_)
  cases r with
  | some b => exact h.of_eq (s.pollGood_memories b)
  | none => exact h.of_eq s.pollBad_memories

theorem execDescriptorFetch (sq : BitVec 4) : Keeps W q (execDescriptorFetch sq s) := next (ite h (h.modFl _))

theorem execDescriptorReadComplete (sq : BitVec 4) (r : Option (List Byte)) :
    Keeps W q (execDescriptorReadComplete sq r s) := by
  refine next ?_
  dsimp only
  split
  · exact ite h (h.modFl _)
  · exact h.modFl _
  · exact ite h (h.of_eq (s.ringErr_memories _))
  · exact h

theorem execExportStart (n : BitVec 2) : Keeps W q (execExportStart n s) := by
  have hgo : ∀ (f : Flue → Flue) (g : EqRing → EqRing), ((s.modFl f).modEq n.toNat g).memories.Sound W q :=
    fun f g => h.of_eq ((State.modEq_memories _ _ _).trans (s.modFl_memories f))
  unfold Machine.execExportStart
  refine next (ite h ?_)
  dsimp only
  cases (s.fl.eqs.get n.toNat).rollQ with
  | nil =>
    split
    · exact ite (hgo _ _) h
    · exact h
  | cons i r =>
    split
    · exact ite (hgo _ _) (ite (hgo _ _) h)
    · exact ite (hgo _ _) h

theorem execBqFetchComplete (n : BitVec 2) (r : Option (List Byte)) : Keeps W q (execBqFetchComplete n r s) := by
  unfold Machine.execBqFetchComplete
  refine next ?_
  dsimp only
  split
  · exact h
  · refine ite h ?_
    cases r with
    | none => exact ite (h.of_eq (s.ringErr_memories _)) (h.of_eq (s.modEq_memories _ _))
    | some b =>
      dsimp only
      split
      · exact h.of_eq (s.ringErr_memories _)
      · exact h.modFl _

theorem execExportRecord (n : BitVec 2) : Keeps W q (execExportRecord n s) := by
  refine next ?_
  dsimp only
  split
  · exact h
  · exact ite h ((h.modFl _).of_eq (State.modVault_memories _ _ rfl rfl))

theorem execShadowWrite : Keeps W q (execShadowWrite s) := next (ite h (h.modFl _))

theorem execCoalesceTimer (v : VecRing) : Keeps W q (execCoalesceTimer v s) := by
  refine next ?_
  cases v with
  | cq n => exact ite h (h.modFl _)
  | eq n => exact ite h (h.modFl _)

theorem execExportMarkWrite : Keeps W q (execExportMarkWrite s) :=
  next (ite h (modFl (h.foldl _ (fun _ _ hr => hr.submit _ _) _) _))

theorem execRingEnable (r : RingId) (v : BitVec 32) : Keeps W q (execRingEnable r v s) := by
  refine next (ite h ?_)
  cases r with
  | sq n => exact h.of_eq (s.cfgSq_memories _ _)
  | cq n => exact h.of_eq (s.cfgCq_memories _ _)
  | eq n => exact h.of_eq (s.cfgEq_memories _ _)

/-! ## Commands -/

theorem execBadOpcode (sq : BitVec 4) : Keeps W q (execBadOpcode sq s) := by
  refine next ?_
  split
  · exact h
  · exact ite h (finish (h.of_eq (s.begin_memories _ _)) _ _)

theorem answered (d : Desc) (t : Nat) (l res : List Byte) (both : Bool := false) : (s.answer d t l res both).memories.Sound W q :=
  h.of_eq (s.answer_memories d t l res both)

theorem execIdentify (sq : BitVec 4) : Keeps W q (execIdentify sq s) := h.command sq _ _ (fun d t _ hr => hr.answered d t _ _)

theorem execStatsRead (sq : BitVec 4) : Keeps W q (execStatsRead sq s) :=
  h.command sq _ _ (fun d t r hr => answered (ite (hr.of_eq (r.statsClear_memories _)) hr) d t _ _)

theorem execPubkeyRead (sq : BitVec 4) : Keeps W q (execPubkeyRead sq s) :=
  h.command sq _ _ (fun d t r hr => hr.acrossLink _ d t _ _ (hr.of_eq (r.pubkeyRead_memories d t)))

theorem execSetFclk (sq : BitVec 4) (vcore : BitVec 16) : Keeps W q (execSetFclk sq vcore s) :=
  h.command sq _ _ (fun _ t _ hr => ite (hr.finish _ _) (ite (hr.finish _ _) ((hr.modRun t _).of_eq (State.relockRuns_memories _))))

theorem execFclkRelockDone : Keeps W q (execFclkRelockDone s) := by
  refine next ?_
  split
  · exact h
  · refine foldl (h.of_eq (s.modFb_memories _ rfl rfl rfl rfl)) _ (fun r x hr => ?_) _
    split
    · exact hr.finish _ _ _
    · exact hr

theorem execConfigWrite (sq : BitVec 4) (buf : Option (List Byte)) : Keeps W q (execConfigWrite sq buf s) := by
  refine h.command sq _ _ (fun d t r hr => ite (hr.finish _ _) (ite (hr.submit _ _) ?_))
  cases buf with
  | none => exact hr.finish _ _
  | some b => exact hr.of_eq (r.writePhase_memories t _)

theorem execEmberControl (sq : BitVec 4) : Keeps W q (execEmberControl sq s) := by
  refine h.command sq _ _ (fun d t r hr => ?_)
  have hon := hr.of_eq (r.enableRing_memories (d.p 0))
  refine ite (ite (hr.finish _ _ _) (ite (hon.finish _ _ _) (hon.finish _ _ _))) (ite ?_ (ite (ite ?_ (hr.finish _ _)) (hr.answered d t _ _)))
  · exact (modRun (ite (hr.of_eq (r.modRing_memories _ _)) hr) t _).of_eq (State.emberOffRuns_memories _)
  · exact finish (hr.of_eq (r.modRing_memories _ _)) _ _ _

theorem execLogRead (sq : BitVec 4) : Keeps W q (execLogRead sq s) :=
  h.command sq _ _ (fun d t r hr => hr.acrossLink _ d t _ _ (hr.of_eq (r.logRead_memories d t)))

theorem execCordRead (sq : BitVec 4) : Keeps W q (execCordRead sq s) :=
  h.command sq _ _ (fun d t r hr => hr.acrossLink _ d t _ _ (hr.of_eq (r.cordRead_memories d t)))

theorem execOdoRead (sq : BitVec 4) : Keeps W q (execOdoRead sq s) :=
  h.command sq _ _ (fun d t r hr => ite (hr.finish _ _ _) (hr.acrossLink _ d t _ _ (hr.of_eq (r.odoRead_memories t))))

theorem execService (sq : BitVec 4) (buf : Option (List Byte)) : Keeps W q (execService sq buf s) := by
  refine h.command sq _ _ (fun d t r hr => ite (hr.finish _ _) (ite (hr.finish _ _) (ite (hr.of_eq (r.serve_memories _ _ _ _ _)) ?_)))
  cases buf with
  | none => exact hr.finish _ _
  | some b => exact ite (hr.finish _ _) (hr.of_eq (r.serve_memories _ _ _ _ _))

theorem execRandom (sq : BitVec 4) : Keeps W q (execRandom sq s) :=
  h.command sq _ _ (fun _ t r hr => hr.of_eq (r.giveRandom_memories t _ _ _))

theorem execBistRun (sq : BitVec 4) (vcore : BitVec 16) (temp : BitVec 8) : Keeps W q (execBistRun sq vcore temp s) := by
  refine h.command sq _ _ (fun d t r hr => ite (hr.finish _ _) ?_)
  rw [State.bistNext_memories]
  exact hr.modRun t (fun x => { x with kind := .bist (d.pn 0 4) d.dptr d.dlen })

theorem execLifecycle (sq : BitVec 4) (buf : Option (List Byte)) : Keeps W q (execLifecycle sq buf s) := by
  have hbegin : ∀ (r : State) (t a b : Nat) (o : Option (List Byte)), r.memories.Sound W q →
      (r.beginLife t a b o).memories.Sound W q := fun r t a b o hr => hr.of_eq (r.beginLife_memories t a b o)
  refine h.command sq _ _ (fun d t r hr => ite (hr.finish _ _) (ite (hr.finish _ _) (ite (hr.finish _ _) (ite (hr.finish _ _)
    (ite (hbegin _ _ _ _ _ hr) ?_)))))
  cases buf with
  | none => exact hr.finish _ _
  | some b => exact ite (hr.finish _ _) (hbegin _ _ _ _ _ hr)

/-! ## Links, temperatures, rails and fuses -/

theorem execVddioDrop (k : IoBank) : Keeps W q (execVddioDrop k s) := by
  refine next (ite h ?_)
  cases k with
  | vddioA => exact h.of_eq (s.modPw_memories _)
  | vddioB => exact (h.modCapOnly _ rfl rfl).of_eq (State.modPw_memories _ _)

theorem execVddioReturn (k : IoBank) (levels : BitVec 10) : Keeps W q (execVddioReturn k levels s) := by
  have hfresh : ∀ r : State, r.memories.Sound W q →
      (r.modCap (fun c => { c with discLast := c.discLast.map (fun _ => r.discLevels) })).memories.Sound W q :=
    fun r hr => hr.modCapOnly _ rfl rfl
  refine next ?_
  cases k with
  | vddioA => exact ite h (hfresh _ (h.of_eq ((State.levelsA_memories _ _).trans (s.modPw_memories _))))
  | vddioB => exact ite h (hfresh _ (modCapOnly (h.of_eq (s.modPw_memories _)) _ rfl rfl))

theorem execFuseCommandEnd : Keeps W q (execFuseCommandEnd s) := by
  refine next ?_
  split
  · exact h
  · exact h.modHsOnly _ rfl rfl rfl rfl

end Memories.Sound

end Sys2Proof.Machine
end

section
/-! Every step keeps the memories sound. -/

namespace Sys2Proof.Machine

/-- Whatever the command is, it keeps the queue and the memories sound. -/
theorem Memories.Sound.exec {W : Prop} {q : List Instr} {s : State} (h : s.memories.Sound W q) (i : Instr) :
    Keeps W q (exec i s) := by
  cases i with
  | lit c t v => exact show Keeps W q (execLit c t v s) from h.threadSyl c t _ _ rfl
  | call c t d => exact h.execCall c t d
  | jmp c t d => exact h.execJmp c t d
  | bcc c t cc d => exact h.execBcc c t cc d
  | pfx c t p => exact show Keeps W q (execPfx c t p s) from h.threadSyl c t _ _ rfl
  | setb c t a => exact show Keeps W q (execSetb c t a s) from h.shortBit c t _ _ _
  | clrb c t a => exact show Keeps W q (execClrb c t a s) from h.shortBit c t _ _ _
  | tstb c t a => exact show Keeps W q (execTstb c t a s) from h.shortBit c t _ _ _
  | tglb c t a => exact show Keeps W q (execTglb c t a s) from h.shortBit c t _ _ _
  | nop c t => exact show Keeps W q (execNop c t s) from h.stackOp c t _ _ _ _ _
  | dup c t => exact show Keeps W q (execDup c t s) from h.stackOp c t _ _ _ _ _
  | drop c t => exact show Keeps W q (execDrop c t s) from h.stackOp c t _ _ _ _ _
  | swap c t => exact show Keeps W q (execSwap c t s) from h.stackOp c t _ _ _ _ _
  | rot c t => exact show Keeps W q (execRot c t s) from h.stackOp c t _ _ _ _ _
  | nip c t => exact show Keeps W q (execNip c t s) from h.stackOp c t _ _ _ _ _
  | tuck c t => exact show Keeps W q (execTuck c t s) from h.stackOp c t _ _ _ _ _
  | twoDup c t => exact show Keeps W q (execTwoDup c t s) from h.stackOp c t _ _ _ _ _
  | twoDrop c t => exact show Keeps W q (execTwoDrop c t s) from h.stackOp c t _ _ _ _ _
  | twoSwap c t => exact show Keeps W q (execTwoSwap c t s) from h.stackOp c t _ _ _ _ _
  | twoOver c t => exact show Keeps W q (execTwoOver c t s) from h.stackOp c t _ _ _ _ _
  | tor c t => exact show Keeps W q (execTor c t s) from h.returnOp c t _ _ _ _ _ _
  | fromr c t => exact show Keeps W q (execFromr c t s) from h.returnOp c t _ _ _ _ _ _
  | rfetch c t => exact show Keeps W q (execRfetch c t s) from h.returnOp c t _ _ _ _ _ _
  | depth c t => exact show Keeps W q (execDepth c t s) from h.threadSyl c t _ _ rfl
  | add c t => exact show Keeps W q (execAdd c t s) from h.binOp c t _ _
  | sub c t => exact show Keeps W q (execSub c t s) from h.binOp c t _ _
  | adc c t => exact show Keeps W q (execAdc c t s) from h.binOp c t _ _
  | sbc c t => exact show Keeps W q (execSbc c t s) from h.binOp c t _ _
  | neg c t => exact show Keeps W q (execNeg c t s) from h.unOp c t _ _
  | abs c t => exact show Keeps W q (execAbs c t s) from h.unOp c t _ _
  | inc c t => exact show Keeps W q (execInc c t s) from h.unOp c t _ _
  | dec c t => exact show Keeps W q (execDec c t s) from h.unOp c t _ _
  | cmp c t => exact show Keeps W q (execCmp c t s) from h.stackOp c t _ _ _ _ _
  | tst c t => exact show Keeps W q (execTst c t s) from h.stackOp c t _ _ _ _ _
  | min c t => exact show Keeps W q (execMin c t s) from h.binOp c t _ _
  | max c t => exact show Keeps W q (execMax c t s) from h.binOp c t _ _
  | satadd c t => exact show Keeps W q (execSatadd c t s) from h.binOp c t _ _
  | satsub c t => exact show Keeps W q (execSatsub c t s) from h.binOp c t _ _
  | add2 c t => exact show Keeps W q (execAdd2 c t s) from h.stackOp c t _ _ _ _ _
  | sub2 c t => exact show Keeps W q (execSub2 c t s) from h.stackOp c t _ _ _ _ _
  | and c t => exact show Keeps W q (execAnd c t s) from h.binOp c t _ _
  | or c t => exact show Keeps W q (execOr c t s) from h.binOp c t _ _
  | xor c t => exact show Keeps W q (execXor c t s) from h.binOp c t _ _
  | not c t => exact show Keeps W q (execNot c t s) from h.unOp c t _ _
  | shl c t => exact show Keeps W q (execShl c t s) from h.binOp c t _ _
  | shr c t => exact show Keeps W q (execShr c t s) from h.binOp c t _ _
  | sar c t => exact show Keeps W q (execSar c t s) from h.binOp c t _ _
  | rol c t => exact show Keeps W q (execRol c t s) from h.binOp c t _ _
  | shl1 c t => exact show Keeps W q (execShl1 c t s) from h.unOp c t _ _
  | shr1 c t => exact show Keeps W q (execShr1 c t s) from h.unOp c t _ _
  | sar1 c t => exact show Keeps W q (execSar1 c t s) from h.unOp c t _ _
  | clz c t => exact show Keeps W q (execClz c t s) from h.unOp c t _ _
  | popc c t => exact show Keeps W q (execPopc c t s) from h.unOp c t _ _
  | sext12 c t => exact show Keeps W q (execSext12 c t s) from h.unOp c t _ _
  | zext12 c t => exact show Keeps W q (execZext12 c t s) from h.unOp c t _ _
  | ext2 c t => exact show Keeps W q (execExt2 c t s) from h.stackOp c t _ _ _ _ _
  | mul c t => exact show Keeps W q (execMul c t s) from h.mulOp c t _ _
  | mulu c t => exact show Keeps W q (execMulu c t s) from h.mulOp c t _ _
  | mac c t => exact show Keeps W q (execMac c t s) from h.mulOp c t _ _
  | mfl c t => exact show Keeps W q (execMfl c t s) from h.threadSyl c t _ _ rfl
  | mfh c t => exact show Keeps W q (execMfh c t s) from h.threadSyl c t _ _ rfl
  | div c t => exact show Keeps W q (execDiv c t s) from h.divOp c t _ _
  | divu c t => exact show Keeps W q (execDivu c t s) from h.divOp c t _ _
  | mod c t => exact show Keeps W q (execMod c t s) from h.divOp c t _ _
  | sqrt c t => exact show Keeps W q (execSqrt c t s) from h.threadSyl c t _ _ rfl
  | tli c t => exact show Keeps W q (execTli c t s) from h.threadSyl c t _ _ rfl
  | ld c t => exact show Keeps W q (execLd c t s) from h.loadOp c t _ _ _
  | st c t => exact show Keeps W q (execSt c t s) from h.storeOp c t _ _ _ _ _ _ _ _ _ _
  | ldt c t => exact show Keeps W q (execLdt c t s) from h.loadOp c t _ _ _
  | ldtu c t => exact show Keeps W q (execLdtu c t s) from h.loadOp c t _ _ _
  | stt c t => exact show Keeps W q (execStt c t s) from h.storeOp c t _ _ _ _ _ _ _ _ _ _
  | ld2 c t => exact show Keeps W q (execLd2 c t s) from h.loadOp c t _ _ _
  | st2 c t => exact show Keeps W q (execSt2 c t s) from h.storeOp c t _ _ _ _ _ _ _ _ _ _
  | ldd c t => exact show Keeps W q (execLdd c t s) from h.threadSyl c t _ _ rfl
  | pushll c t => exact show Keeps W q (execPushll c t s) from h.threadSyl c t _ _ rfl
  | ldp c t => exact show Keeps W q (execLdp c t s) from h.loadOp c t _ _ _
  | stp c t => exact show Keeps W q (execStp c t s) from h.storeOp c t _ _ _ _ _ _ _ _ _ _
  | fence c t => exact h.execFence c t
  | lck c t => exact h.execLck c t
  | ulk c t => exact h.execUlk c t
  | setbx c t => exact show Keeps W q (execSetbx c t s) from h.stackBit c t _ _
  | clrbx c t => exact show Keeps W q (execClrbx c t s) from h.stackBit c t _ _
  | tstbx c t => exact show Keeps W q (execTstbx c t s) from h.stackBit c t _ _
  | tglbx c t => exact show Keeps W q (execTglbx c t s) from h.stackBit c t _ _
  | pushb c t => exact show Keeps W q (execPushb c t s) from h.threadSyl c t _ _ rfl
  | putb c t => exact h.execPutb c t
  | tste c t => exact show Keeps W q (execTste c t s) from h.threadSyl c t _ _ rfl
  | ret c t => exact h.execRet c t
  | callx c t => exact h.execCallx c t
  | jmpx c t => exact h.execJmpx c t
  | rete c t => exact h.execRete c t
  | wait c t => exact show Keeps W q (execWait c t s) from h.threadSyl c t _ _ rfl
  | waitn c t => exact show Keeps W q (execWaitn c t s) from h.threadSyl c t _ _ rfl
  | trap c t => exact h.execTrap c t
  | brk c t => exact show Keeps W q (execBrk c t s) from h.threadSyl c t _ _ rfl
  | mfs c t => exact show Keeps W q (execMfs c t s) from h.readSpecial c t _ _ _
  | mts c t => exact show Keeps W q (execMts c t s) from h.threadSyl c t _ _ rfl
  | mfs2 c t => exact show Keeps W q (execMfs2 c t s) from h.readSpecial c t _ _ _
  | swapctx c t => exact h.execSwapctx c t
  | phc c t => exact show Keeps W q (execPhc c t s) from h.phaseRead c t _ _ _
  | phk c t => exact show Keeps W q (execPhk c t s) from h.phaseRead c t _ _ _
  | pht c t => exact show Keeps W q (execPht c t s) from h.phaseRead c t _ _ _
  | ph3 c t => exact show Keeps W q (execPh3 c t s) from h.phaseRead c t _ _ _
  | lopen c t => exact h.execLopen c t
  | lapp c t => exact h.execLapp c t
  | lemb c t => exact h.execLemb c t
  | lcommit c t => exact h.execLcommit c t
  | ldrop c t => exact h.execLdrop c t
  | lstat c t => exact h.execLstat c t
  | etrig c t => exact h.execEtrig c t
  | openCode c t k => exact h.execOpenCode c t k
  | unassignedOp c t k => exact h.execUnassignedOp c t k
  | routineEnd c => exact h.execRoutineEnd c
  | microWaitTimeout c => exact h.execMicroWaitTimeout c
  | routineLengthLimit c => exact h.execRoutineLengthLimit c
  | loadComplete c t => exact show Keeps W q (execLoadComplete c t s) from (h.loadDone c t).next
  | deferredLoadComplete c t => exact h.execDeferredLoadComplete c t
  | lineFillComplete c line => exact show Keeps W q (execLineFillComplete c line s) from next (ite (h.of_eq (s.fillLine_memories c line)) h)
  | storeDrain c => exact h.execStoreDrain c
  | lockGrant line => exact h.execLockGrant line
  | bellowsStart c => exact h.execBellowsStart c
  | spillComplete c => exact h.execSpillComplete c
  | fillComplete c => exact h.execFillComplete c
  | swapctxComplete c => exact h.execSwapctxComplete c
  | eventBitWake c t => exact h.execEventBitWake c t
  | eventEntry c t => exact h.execEventEntry c t
  | lockupQuiescent c => exact h.execLockupQuiescent c
  | lockupReport c => exact h.execLockupReport c
  | frozenStateArrival c => exact h.execFrozenStateArrival c
  | stopTakesEffect c t => exact h.execStopTakesEffect c t
  | angleEdge j level => exact show Keeps W q (execAngleEdge j level s) from h.nextOf (s.angleEdge_memories _ level)
  | camEdge level => exact show Keeps W q (execCamEdge level s) from h.nextOf (s.angleEdge_memories _ level)
  | standstillTimeout j => exact show Keeps W q (execStandstillTimeout j s) from next (ite (h.putPh _) h)
  | tickHoldover => exact show Keeps W q (execTickHoldover s) from next (ite (h.putPh _) h)
  | comparatorHit n => exact show Keeps W q (execComparatorHit n s) from h.nextOf (s.evalCmp_memories _)
  | checkpointTimer => exact show Keeps W q (execCheckpointTimer s) from next (ite (h.of_eq (s.checkpoint_memories 2)) h)
  | standbyTooth w level => exact show Keeps W q (execStandbyTooth w level s) from h.nextOf (s.standbyTooth_memories _ level)
  | stbyWakeTeethReached => exact h.execStbyWakeTeethReached
  | standbyTrigEdge p level => exact h.execStandbyTrigEdge p level
  | channelSample ch => exact h.execChannelSample ch
  | adcConversionDone code => exact h.execAdcConversionDone code
  | spiTransaction m => exact h.execSpiTransaction m
  | spiTransactionDone m rx => exact h.execSpiTransactionDone m rx
  | canFrame j f valid => exact h.execCanFrame j f valid
  | discreteChange gpio => exact h.execDiscreteChange gpio
  | emberEntryWrite => exact h.execEmberEntryWrite
  | trigEdge p level => exact h.execTrigEdge p level
  | triggerPulse => exact h.execTriggerPulse
  | triggerRecord => exact h.execTriggerRecord
  | copyBurst => exact h.execCopyBurst
  | copyComplete slot => exact h.execCopyComplete slot
  | appendComplete slot => exact h.execAppendComplete slot
  | holdSenseConversion code => exact h.execHoldSenseConversion code
  | damperMeasurement => exact h.execDamperMeasurement
  | commitDurable k => exact h.execCommitDurable k
  | cordTimer => exact h.execCordTimer
  | sealStart => exact h.execSealStart
  | sealRelease => exact h.execSealRelease
  | treeBuildDone => exact h.execTreeBuildDone
  | blockRetire b => exact h.execBlockRetire b
  | blockCopyDone b => exact h.execBlockCopyDone b
  | vaultScrub line errs => exact h.execVaultScrub line errs
  | powerFailWarning cause => exact h.execPowerFailWarning cause
  | vaultSafe => exact h.execVaultSafe
  | standbyEntry => exact h.execStandbyEntry
  | flitCrcError l => exact show Keeps W q (execFlitCrcError l s) from next (ite h (h.of_eq (s.modLink_memories l _)))
  | linkRetrainDone l ok => exact h.execLinkRetrainDone l ok
  | thermalThreshold d temp => exact show Keeps W q (execThermalThreshold d temp s) from h.nextOf (s.modPw_memories _)
  | poll => exact h.execPoll
  | pollComplete r => exact h.execPollComplete r
  | descriptorFetch sq => exact h.execDescriptorFetch sq
  | descriptorReadComplete sq r => exact h.execDescriptorReadComplete sq r
  | bqFetchComplete q r => exact h.execBqFetchComplete q r
  | exportStart q => exact h.execExportStart q
  | exportRecord q => exact h.execExportRecord q
  | shadowWrite => exact h.execShadowWrite
  | coalesceTimer q => exact h.execCoalesceTimer q
  | exportMarkWrite => exact h.execExportMarkWrite
  | linkL1Entry => exact show Keeps W q (execLinkL1Entry s) from next (ite (h.modFl _) h)
  | busMasterEnable on => exact show Keeps W q (execBusMasterEnable on s) from next (ite (h.modFl _) h)
  | powerStateChange d3hot pmeEn => exact show Keeps W q (execPowerStateChange d3hot pmeEn s) from next (ite (h.modFl _) h)
  | linkHotReset => exact show Keeps W q (execLinkHotReset s) from next (ite (h.modFl _) h)
  | msixTableWrite e dw v => exact show Keeps W q (execMsixTableWrite e dw v s) from next (ite (h.of_eq (s.putMsix_memories _ _ v)) h)
  | ringEnable r v => exact h.execRingEnable r v
  | sqDisable n => exact show Keeps W q (execSqDisable n s) from next (ite (h.of_eq (s.sqOff_memories _)) h)
  | cqDisable n => exact show Keeps W q (execCqDisable n s) from next (ite (h.of_eq (s.cqOff_memories _)) h)
  | eqDisable n => exact show Keeps W q (execEqDisable n s) from next (ite (h.of_eq (s.eqOff_memories _)) h)
  | badOpcode sq => exact h.execBadOpcode sq
  | identify sq => exact h.execIdentify sq
  | statsRead sq => exact h.execStatsRead sq
  | pubkeyRead sq => exact h.execPubkeyRead sq
  | setFclk sq vcore => exact h.execSetFclk sq vcore
  | fclkRelockDone => exact h.execFclkRelockDone
  | configWrite sq buf => exact h.execConfigWrite sq buf
  | imageLoad sq buf => exact h.execImageLoad sq buf
  | bundleLoad sq buf => exact h.execBundleLoad sq buf
  | threadStart sq => exact h.execThreadStart sq
  | threadStop sq => exact h.execThreadStop sq
  | coreReset sq => exact h.execCoreReset sq
  | bundleReinstallDone c => exact h.execBundleReinstallDone c
  | threadQuery sq => exact h.execThreadQuery sq
  | emberConfig sq buf => exact h.execEmberConfig sq buf
  | emberControl sq => exact h.execEmberControl sq
  | logRead sq => exact h.execLogRead sq
  | cordRead sq => exact h.execCordRead sq
  | odoRead sq => exact h.execOdoRead sq
  | service sq buf => exact h.execService sq buf
  | random sq => exact h.execRandom sq
  | bistRun sq vcore temp => exact h.execBistRun sq vcore temp
  | challengeGet sq => exact h.execChallengeGet sq
  | challengeAnswer sq buf => exact h.execChallengeAnswer sq buf
  | challengeJudge => exact h.execChallengeJudge
  | nonceExpiry => exact h.execNonceExpiry
  | lifecycle sq buf => exact h.execLifecycle sq buf
  | lifecycleFuseBurn => exact h.execLifecycleFuseBurn
  | fuseRead g w => exact show Keeps W q (execFuseRead g w s) from next (h.fuseCmd _ _ _ (fun _ hr => hr.fuseRead _ _))
  | fuseWrite g w o => exact show Keeps W q (execFuseWrite g w o s) from next (h.fuseCmd _ _ _ (fun _ hr => hr.fuseWrite _ _ o))
  | fuseGenerate g o => exact h.execFuseGenerate g o
  | fuseLock g readLock o => exact show Keeps W q (execFuseLock g readLock o s) from next (h.fuseCmd _ _ _ (fun _ hr => hr.fuseLock _ readLock o))
  | fuseCommandEnd => exact h.execFuseCommandEnd
  | fuseFrame l words => exact h.execFuseFrame l words
  | trngHealthFail cell samples => exact show Keeps W q (execTrngHealthFail cell samples s) from next (ite (h.of_eq s.trngFail_memories) h)
  | trngStartupDone => exact h.execTrngStartupDone
  | keypairCreated => exact h.execKeypairCreated
  | coldReset => exact h.execColdReset
  | mainRailsRestored => exact h.execMainRailsRestored
  | perstNFall => exact h.execPerstNFall
  | perstNRise => exact h.execPerstNRise
  | hostResetBegin => exact h.execHostResetBegin
  | pllLock => exact h.execPllLock
  | resetRelease => exact h.execResetRelease
  | otpStartReadDone o => exact h.execOtpStartReadDone o
  | sweepDone => exact h.execSweepDone
  | vaultRecovery newestBad => exact h.execVaultRecovery newestBad
  | pilotStartLoad => exact h.execPilotStartLoad
  | bootRom => exact h.execBootRom
  | rstCtlWrite v => exact h.execRstCtlWrite v
  | stbyReq v => exact show Keeps W q (execStbyReq v s) from next (ite (h.of_eq (s.stbyReqBit_memories v)) h)
  | wakeClear v => exact show Keeps W q (execWakeClear v s) from next (ite (h.of_eq (s.clearWake_memories v)) h)
  | pollEnSet v => exact show Keeps W q (execPollEnSet v s) from next (ite (h.of_eq (s.putPollCtl_memories _)) h)
  | registerWrite w => exact h.execRegisterWrite w
  | armWrite c t j v => exact show Keeps W q (execArmWrite c t j v s) from h.nextOf (s.writeArm_memories c t _ v)
  | comparatorCtrlWrite n v => exact show Keeps W q (execComparatorCtrlWrite n v s) from h.nextOf (s.writeCmpCtrl_memories _ v)
  | comparatorTargetWrite n v => exact show Keeps W q (execComparatorTargetWrite n v s) from h.nextOf (s.writeCmpTarget_memories _ v)
  | comparatorIncrWrite n v => exact show Keeps W q (execComparatorIncrWrite n v s) from h.nextOf (s.writeCmpIncr_memories _ v)
  | ringCellWrite r off v => exact show Keeps W q (execRingCellWrite r off v s) from next (ite (h.of_eq (s.releaseRing_memories _ v)) (h.of_eq (s.writeRingCell_memories _ _ v)))
  | release r v => exact show Keeps W q (execRelease r v s) from h.nextOf (s.releaseRing_memories _ v)
  | captureObjectWrite o v => exact h.execCaptureObjectWrite o v
  | icacheInval c v => exact show Keeps W q (execIcacheInval c v s) from h.nextOf (s.writeIcache_memories c v)
  | mseqFaultClear c v => exact show Keeps W q (execMseqFaultClear c v s) from h.nextOf (s.clearMseq_memories c v)
  | watchpointWrite c j k v => exact show Keeps W q (execWatchpointWrite c j k v s) from h.nextOf (s.writeWp_memories c _ _ v false)
  | traceCtlWrite v => exact show Keeps W q (execTraceCtlWrite v s) from (h.writeTraceCtl v).next
  | traceFullClear v => exact show Keeps W q (execTraceFullClear v s) from h.nextOf (s.clearTraceFull_memories v)
  | embqRead c t => exact show Keeps W q (execEmbqRead c t s) from next (ite (h.loadDone c t) h)
  | phStatusRead c t => exact show Keeps W q (execPhStatusRead c t s) from next (ite (h.loadDone c t) h)
  | tapInstruction ir => exact h.execTapInstruction ir
  | dbgChal => exact show Keeps W q (execDbgChal s) from next (ite (h.tapped _) h)
  | dbgAns bits bytes => exact show Keeps W q (execDbgAns bits bytes s) from next (ite (h.tapped _) h)
  | dbgNop r => exact show Keeps W q (execDbgNop r s) from (h.dbgSubmit _ r).next
  | dbgRd r => exact show Keeps W q (execDbgRd r s) from (h.dbgSubmit _ r).next
  | dbgRdx r => exact show Keeps W q (execDbgRdx r s) from (h.dbgSubmit _ r).next
  | dbgWr r => exact show Keeps W q (execDbgWr r s) from (h.dbgSubmit _ r).next
  | dbgHalt r => exact show Keeps W q (execDbgHalt r s) from (h.dbgSubmit _ r).next
  | threadHalt c t => exact h.execThreadHalt c t
  | dbgResume r => exact show Keeps W q (execDbgResume r s) from (h.dbgSubmit _ r).next
  | dbgStep r => exact show Keeps W q (execDbgStep r s) from (h.dbgSubmit _ r).next
  | dbgAttach r => exact show Keeps W q (execDbgAttach r s) from (h.dbgSubmit _ r).next
  | dbgInval r => exact show Keeps W q (execDbgInval r s) from (h.dbgSubmit _ r).next
  | holdoverEnd => exact show Keeps W q (execHoldoverEnd s) from next (ite (h.putPh _) h)
  | crystalFailure => exact h.execCrystalFailure
  | vstbyLoss => exact show Keeps W q (execVstbyLoss s) from h.nextOf rfl
  | vddioDrop k => exact h.execVddioDrop k
  | vddioReturn k levels => exact h.execVddioReturn k levels
  | buildProgressSave => exact h.execBuildProgressSave
  | bistItemDone r => exact h.execBistItemDone r
  | verificationEnd => exact h.execVerificationEnd
  | boundaryUpdate bits => exact show Keeps W q (execBoundaryUpdate bits s) from next (ite (h.of_eq (s.modTap_memories _)) h)
  | _ c t => exact show Keeps W q (execOver c t s) from h.stackOp c t _ _ _ _ _

end Sys2Proof.Machine
end

section
/-! The invariant is kept by every step. -/

namespace Sys2Proof.Machine

/-- What the invariant says of the memories does not depend on the queue. -/
theorem State.Inv.taken {s : State} (h : s.Inv) (rest : List Instr) :
    (State.memories { s with pending := rest }).Sound True rest :=
  { s.inv_iff.1 h with pending := rfl }

theorem Memories.Sound.inv {q : List Instr} {s : State} (h : s.memories.Sound True q) : s.Inv := by
  have hq : s.pending = q := h.pending
  exact s.inv_iff.2 (hq ▸ h)

theorem State.Inv.step {s : State} (h : s.Inv) : ∃ q, Keeps True q (Machine.step s) := by
  cases hp : s.pending with
  | nil =>
    rw [step_of_pending_nil s hp]
    exact ⟨_, (s.inv_iff.1 h).idle.next⟩
  | cons i rest =>
    have hstep : Machine.step s = exec i { s with pending := rest } := by
      simp only [Machine.step, hp]
    exact ⟨rest, hstep ▸ (h.taken rest).exec i⟩

end Sys2Proof.Machine

namespace Sys2Proof

open Machine

/-- Settles O3: the memories stay in their canonical form under every command and every idle cycle, and a pulse sets at
strict margin only what it sets at normal margin. -/
theorem stepKeepsInv : Obligations.StepKeepsInv := by
  intro s s' h hs
  obtain ⟨q, hq⟩ := h.step
  exact (hq s' hs).inv

end Sys2Proof
end
